-- ==== Sys2Proof/Word.lean ====
section
/-! DEFINITION. The word types of the machine (spec 00_scope.md R8, R14): byte, halfword, word, double word. -/

namespace Sys2Proof

/-- A byte: eight bits (R14, R70). -/
abbrev Byte := BitVec 8

/-- A halfword: sixteen bits (R14). -/
abbrev Half := BitVec 16

/-- A word: thirty-two bits (R14); the contents of a register, an address, an ARM instruction. -/
abbrev Word := BitVec 32

/-- A double word: sixty-four bits (R14). -/
abbrev DWord := BitVec 64

/-- A general register number as an ARM instruction holds it; 15 names the pc (R20, R21). -/
abbrev Reg := BitVec 4

/-- A low register number (r0 to r7) as a Thumb instruction holds it (R23). -/
abbrev LowReg := BitVec 3

/-- A single-precision VFP register number s0 to s31 (R40). -/
abbrev SReg := BitVec 5

/-- A double-precision VFP register number d0 to d15 (R40). -/
abbrev DReg := BitVec 4

end Sys2Proof
end

