-- ==== Sys2Proof/Config.lean ====
section
/-! DEFINITION. What a platform fixes for a run (spec 00_scope.md R9, 92_eei_decisions.md D1 to D25): the
parameters, as one record of plain data, and the values that the spec leaves open, as constants without a body. -/

namespace Sys2Proof

/-- `ARCH.version` (R9). -/
inductive ArchVersion where
  | v3 | v4 | v5
  deriving DecidableEq, Repr

/-- `FPU` (R9): no hardware floating point, VFPv1 or VFPv2. -/
inductive Fpu where
  | none | vfpv1 | vfpv2
  deriving DecidableEq, Repr

/-- `ARCH` and `FPU` (R2, R9): the architecture version, the T, M, E, ExP and XScale variants and the
floating-point unit. -/
structure Arch where
  version : ArchVersion
  thumb : Bool
  longMultiply : Bool
  enhanced : Bool
  exp : Bool
  xscale : Bool
  fpu : Fpu
  deriving DecidableEq, Repr

/-- v5TE with XScale and VFPv2, "under which every instruction of this spec exists" (R9). -/
def Arch.full : Arch :=
  { version := .v5, thumb := true, longMultiply := true, enhanced := true, exp := false,
    xscale := true, fpu := .vfpv2 }

/-- `PCSTOREOFFSET` (R9, R233): 8 or 12. -/
inductive PcStoreOffset where
  | eight | twelve
  deriving DecidableEq, Repr

/-- `BKPT_TREATMENT` (R9, R608, D20). -/
inductive BkptTreatment where
  | debugStop | prefetchAbort
  deriving DecidableEq, Repr

/-- One entry of the list that gives `MemAllowed` (R80): it denies an access whose address is `lo` to `hi`, if it names
its size, its kind and its privilege. Such lists give every predicate on address, size, kind and privilege
(`Sys2Proof.Machine.memAllowed_complete`). -/
structure Region where
  lo : Word
  hi : Word
  /-- It denies accesses of one byte. -/
  bytes : Bool
  /-- It denies accesses of two bytes. -/
  halves : Bool
  /-- It denies accesses of four bytes. -/
  words : Bool
  reads : Bool
  writes : Bool
  fetches : Bool
  /-- It denies accesses made as User. -/
  user : Bool
  /-- It denies privileged accesses. -/
  privileged : Bool
  deriving DecidableEq, Repr

/-- The parameters of R9, fixed for a run. No step changes them. -/
structure Config where
  arch : Arch
  bigEndian : Bool
  alignCheck : Bool
  pcStoreOffset : PcStoreOffset
  fldmxExtraWord : Bool
  vectorBase : Word
  /-- `COPROC`: bit n is set when coprocessor n is present. What a present one answers comes with the inputs of a step. -/
  coprocs : BitVec 16
  semihosting : Bool
  bkpt : BkptTreatment
  /-- `MemAllowed` (R80): what the memory system refuses; nothing by default. -/
  denied : List Region
  deriving DecidableEq, Repr

/-- The configuration after `State.reset`: the defaults of R9, but for `ARCH` and `FPU`, which are fixed to the
variant that has every instruction, as the last sentence of R9 allows (DESIGN CHOICE, notes/assumptions/2). -/
def Config.default : Config :=
  { arch := Arch.full, bigEndian := false, alignCheck := false, pcStoreOffset := .twelve,
    fldmxExtraWord := true, vectorBase := 0#32, coprocs := 0#16, semihosting := true, bkpt := .debugStop,
    denied := [] }

/-- `NONDET` (R9, D25): the n-th drawn bit of a run. It has no body, so nothing can be proved of a drawn bit. -/
opaque Config.freeBit : Nat → Bool

/-- The n-th drawn word of a run: the extra word that FSTMX stores (R560, D15). It has no body. -/
opaque Config.freeWord : Nat → Word

/-- A command that the core passes to a coprocessor (44_arm_coprocessor.md R340), as the coprocessor sees it. -/
inductive CoprocCommand where
  /-- CDP and CDP2 (R341, R342). -/
  | dataOp (two : Bool) (opc1 crn crd : BitVec 4) (opc2 : BitVec 3) (crm : BitVec 4)
  /-- MCR and MCR2 (R343, R344): a word goes to the coprocessor. -/
  | toCp (two : Bool) (opc1 : BitVec 3) (crn : BitVec 4) (opc2 : BitVec 3) (crm : BitVec 4) (value : Word)
  /-- MRC and MRC2 (R346, R347): a word comes from the coprocessor. -/
  | fromCp (two : Bool) (opc1 : BitVec 3) (crn : BitVec 4) (opc2 : BitVec 3) (crm : BitVec 4)
  /-- MCRR (R345): two words go to the coprocessor. -/
  | toCp2 (opc crm : BitVec 4) (valueD valueN : Word)
  /-- MRRC (R348): two words come from the coprocessor. -/
  | fromCp2 (opc crm : BitVec 4)
  /-- LDC and LDC2 (R349, R351): the words read from memory go to the coprocessor. -/
  | load (two : Bool) (long : Bool) (crd : BitVec 4) (words : List Word)
  /-- STC and STC2 (R350, R352): the coprocessor gives the words that are stored. -/
  | store (two : Bool) (long : Bool) (crd : BitVec 4) (words : List Word)
  deriving DecidableEq, Repr

/-- One accepted command: the coprocessor's number, the processor mode it was told, the command. -/
structure CoprocEvent where
  cp : BitVec 4
  mode : BitVec 5
  command : CoprocCommand
  deriving DecidableEq, Repr

/-- What the coprocessors answer to the coprocessor instruction of one step (R340: "an environment-supplied object"), if
it has one: whether the one addressed accepts the command; the words that MRC (the first) and MRRC take; how many words
LDC transfers; the words that STC stores. -/
structure CoprocAnswer where
  accept : Bool
  first : Word
  second : Word
  count : Nat
  words : List Word
  deriving DecidableEq, Repr

/-- No coprocessor accepts anything. -/
def CoprocAnswer.none : CoprocAnswer := { accept := false, first := 0#32, second := 0#32, count := 0, words := [] }

end Sys2Proof
end

