-- ==== Sys2Proof/Syntax.lean ====
section
/-! DEFINITION. The instructions: one constructor per row of spec/opcode_table.json, in the table's order (a
first-matching-row decoder, 30_encoding.md R100, R152). A constructor's arguments are the row's fields; the two
parts of a single-precision VFP register number (R140) are one argument, and a condition field is a `Cond`. ARM rows
come first; the constructors that begin with `t` are the Thumb rows. -/

namespace Sys2Proof

/-- The fifteen conditions (10_state.md R35, 30_encoding.md R101), in the order of their numbers 0000 to 1110. -/
inductive Cond where
  | eq | ne | cs | cc | mi | pl | vs | vc | hi | ls | ge | lt | gt | le | al
  deriving DecidableEq, Repr

/-- The four shift types of the register forms of Operand2 (R105), numbered 00 to 11. -/
inductive ShiftType where
  | lsl | lsr | asr | ror
  deriving DecidableEq, Repr

/-- The instructions of the ARM, VFP, XScale and Thumb tables. -/
inductive Instr where
  /-- `PLD__register_offset`: R256. -/
  | pldReg (u : Bool) (rn : Reg) (shiftImm : BitVec 5) (shift : ShiftType) (rm : Reg)
  /-- `PLD__immediate_offset`: R256. -/
  | pldImm (u : Bool) (rn : Reg) (imm12 : BitVec 12)
  /-- `MCR2`: R344. -/
  | mcr2 (opc1 : BitVec 3) (crn : BitVec 4) (rd : Reg) (cp : BitVec 4) (opc2 : BitVec 3) (crm : BitVec 4)
  /-- `MRC2`: R347. -/
  | mrc2 (opc1 : BitVec 3) (crn : BitVec 4) (rd : Reg) (cp : BitVec 4) (opc2 : BitVec 3) (crm : BitVec 4)
  /-- `LDC2__post-indexed`: R351. -/
  | ldc2Post (u : Bool) (long : Bool) (rn : Reg) (crd : BitVec 4) (cp : BitVec 4) (offset8 : BitVec 8)
  /-- `STC2__post-indexed`: R352. -/
  | stc2Post (u : Bool) (long : Bool) (rn : Reg) (crd : BitVec 4) (cp : BitVec 4) (offset8 : BitVec 8)
  /-- `CDP2`: R342. -/
  | cdp2 (opc1 : BitVec 4) (crn : BitVec 4) (crd : BitVec 4) (cp : BitVec 4) (opc2 : BitVec 3) (crm : BitVec 4)
  /-- `LDC2__offset_or_pre-indexed`: R351. -/
  | ldc2Pre (u : Bool) (long : Bool) (w : Bool) (rn : Reg) (crd : BitVec 4) (cp : BitVec 4) (offset8 : BitVec 8)
  /-- `STC2__offset_or_pre-indexed`: R352. -/
  | stc2Pre (u : Bool) (long : Bool) (w : Bool) (rn : Reg) (crd : BitVec 4) (cp : BitVec 4) (offset8 : BitVec 8)
  /-- `BLX__label`: R334. -/
  | blxLabel (h : Bool) (imm24 : BitVec 24)
  /-- `unallocated__cond___1111`: R117. -/
  | unallocatedUncond (bits : BitVec 28)
  /-- `FMSTAT`: R544. -/
  | fmstat (cond : Cond)
  /-- `FCPYS`: R510. -/
  | fcpys (cond : Cond) (fd : SReg) (fm : SReg)
  /-- `FCPYD`: R510. -/
  | fcpyd (cond : Cond) (fd : DReg) (fm : DReg)
  /-- `FABSS`: R511. -/
  | fabss (cond : Cond) (fd : SReg) (fm : SReg)
  /-- `FABSD`: R511. -/
  | fabsd (cond : Cond) (fd : DReg) (fm : DReg)
  /-- `FNEGS`: R512. -/
  | fnegs (cond : Cond) (fd : SReg) (fm : SReg)
  /-- `FNEGD`: R512. -/
  | fnegd (cond : Cond) (fd : DReg) (fm : DReg)
  /-- `FSQRTS`: R518. -/
  | fsqrts (cond : Cond) (fd : SReg) (fm : SReg)
  /-- `FSQRTD`: R518. -/
  | fsqrtd (cond : Cond) (fd : DReg) (fm : DReg)
  /-- `FCMPS`: R524. -/
  | fcmps (cond : Cond) (fd : SReg) (fm : SReg)
  /-- `FCMPD`: R524. -/
  | fcmpd (cond : Cond) (fd : DReg) (fm : DReg)
  /-- `FCMPES`: R524. -/
  | fcmpes (cond : Cond) (fd : SReg) (fm : SReg)
  /-- `FCMPED`: R524. -/
  | fcmped (cond : Cond) (fd : DReg) (fm : DReg)
  /-- `FCMPZS`: R525. -/
  | fcmpzs (cond : Cond) (fd : SReg)
  /-- `FCMPZD`: R525. -/
  | fcmpzd (cond : Cond) (fd : DReg)
  /-- `FCMPEZS`: R525. -/
  | fcmpezs (cond : Cond) (fd : SReg)
  /-- `FCMPEZD`: R525. -/
  | fcmpezd (cond : Cond) (fd : DReg)
  /-- `FCVTDS`: R526. -/
  | fcvtds (cond : Cond) (fd : DReg) (fm : SReg)
  /-- `FCVTSD`: R527. -/
  | fcvtsd (cond : Cond) (fd : SReg) (fm : DReg)
  /-- `FUITOS`: R529. -/
  | fuitos (cond : Cond) (fd : SReg) (fm : SReg)
  /-- `FUITOD`: R529. -/
  | fuitod (cond : Cond) (fd : DReg) (fm : SReg)
  /-- `FSITOS`: R528. -/
  | fsitos (cond : Cond) (fd : SReg) (fm : SReg)
  /-- `FSITOD`: R528. -/
  | fsitod (cond : Cond) (fd : DReg) (fm : SReg)
  /-- `FTOUIS`: R531. -/
  | ftouis (cond : Cond) (fd : SReg) (fm : SReg)
  /-- `FTOUID`: R531. -/
  | ftouid (cond : Cond) (fd : SReg) (fm : DReg)
  /-- `FTOUIZS`: R531. -/
  | ftouizs (cond : Cond) (fd : SReg) (fm : SReg)
  /-- `FTOUIZD`: R531. -/
  | ftouizd (cond : Cond) (fd : SReg) (fm : DReg)
  /-- `FTOSIS`: R530. -/
  | ftosis (cond : Cond) (fd : SReg) (fm : SReg)
  /-- `FTOSID`: R530. -/
  | ftosid (cond : Cond) (fd : SReg) (fm : DReg)
  /-- `FTOSIZS`: R530. -/
  | ftosizs (cond : Cond) (fd : SReg) (fm : SReg)
  /-- `FTOSIZD`: R530. -/
  | ftosizd (cond : Cond) (fd : SReg) (fm : DReg)
  /-- `MIA`: R312. -/
  | mia (cond : Cond) (rs : Reg) (rm : Reg)
  /-- `MIAPH`: R313. -/
  | miaph (cond : Cond) (rs : Reg) (rm : Reg)
  /-- `MIA<x><y>`: R314. -/
  | miaXY (cond : Cond) (x : Bool) (y : Bool) (rs : Reg) (rm : Reg)
  /-- `FMACS`: R520. -/
  | fmacs (cond : Cond) (fn : SReg) (fd : SReg) (fm : SReg)
  /-- `FMACD`: R520. -/
  | fmacd (cond : Cond) (fn : DReg) (fd : DReg) (fm : DReg)
  /-- `FNMACS`: R521. -/
  | fnmacs (cond : Cond) (fn : SReg) (fd : SReg) (fm : SReg)
  /-- `FNMACD`: R521. -/
  | fnmacd (cond : Cond) (fn : DReg) (fd : DReg) (fm : DReg)
  /-- `FMSCS`: R522. -/
  | fmscs (cond : Cond) (fn : SReg) (fd : SReg) (fm : SReg)
  /-- `FMSCD`: R522. -/
  | fmscd (cond : Cond) (fn : DReg) (fd : DReg) (fm : DReg)
  /-- `FNMSCS`: R523. -/
  | fnmscs (cond : Cond) (fn : SReg) (fd : SReg) (fm : SReg)
  /-- `FNMSCD`: R523. -/
  | fnmscd (cond : Cond) (fn : DReg) (fd : DReg) (fm : DReg)
  /-- `FMULS`: R515. -/
  | fmuls (cond : Cond) (fn : SReg) (fd : SReg) (fm : SReg)
  /-- `FMULD`: R515. -/
  | fmuld (cond : Cond) (fn : DReg) (fd : DReg) (fm : DReg)
  /-- `FNMULS`: R516. -/
  | fnmuls (cond : Cond) (fn : SReg) (fd : SReg) (fm : SReg)
  /-- `FNMULD`: R516. -/
  | fnmuld (cond : Cond) (fn : DReg) (fd : DReg) (fm : DReg)
  /-- `FADDS`: R513. -/
  | fadds (cond : Cond) (fn : SReg) (fd : SReg) (fm : SReg)
  /-- `FADDD`: R513. -/
  | faddd (cond : Cond) (fn : DReg) (fd : DReg) (fm : DReg)
  /-- `FSUBS`: R514. -/
  | fsubs (cond : Cond) (fn : SReg) (fd : SReg) (fm : SReg)
  /-- `FSUBD`: R514. -/
  | fsubd (cond : Cond) (fn : DReg) (fd : DReg) (fm : DReg)
  /-- `FDIVS`: R517. -/
  | fdivs (cond : Cond) (fn : SReg) (fd : SReg) (fm : SReg)
  /-- `FDIVD`: R517. -/
  | fdivd (cond : Cond) (fn : DReg) (fd : DReg) (fm : DReg)
  /-- `FMSR`: R541. -/
  | fmsr (cond : Cond) (fn : SReg) (rd : Reg)
  /-- `FMRS`: R540. -/
  | fmrs (cond : Cond) (fn : SReg) (rd : Reg)
  /-- `FMDLR`: R537. -/
  | fmdlr (cond : Cond) (fn : DReg) (rd : Reg)
  /-- `FMRDL`: R539. -/
  | fmrdl (cond : Cond) (fn : DReg) (rd : Reg)
  /-- `FMDHR`: R536. -/
  | fmdhr (cond : Cond) (fn : DReg) (rd : Reg)
  /-- `FMRDH`: R538. -/
  | fmrdh (cond : Cond) (fn : DReg) (rd : Reg)
  /-- `FMXR`: R543. -/
  | fmxr (cond : Cond) (reg : BitVec 4) (rd : Reg)
  /-- `FMRX`: R542. -/
  | fmrx (cond : Cond) (reg : BitVec 4) (rd : Reg)
  /-- `QADD`: R316. -/
  | qadd (cond : Cond) (rn : Reg) (rd : Reg) (rm : Reg)
  /-- `QSUB`: R317. -/
  | qsub (cond : Cond) (rn : Reg) (rd : Reg) (rm : Reg)
  /-- `QDADD`: R318. -/
  | qdadd (cond : Cond) (rn : Reg) (rd : Reg) (rm : Reg)
  /-- `QDSUB`: R319. -/
  | qdsub (cond : Cond) (rn : Reg) (rd : Reg) (rm : Reg)
  /-- `BX`: R332. -/
  | bx (cond : Cond) (rm : Reg)
  /-- `BLX__register`: R333. -/
  | blxReg (cond : Cond) (rm : Reg)
  /-- `CLZ`: R290. -/
  | clz (cond : Cond) (rd : Reg) (rm : Reg)
  /-- `BKPT`: R365. -/
  | bkpt (cond : Cond) (immHi : BitVec 12) (immLo : BitVec 4)
  /-- `SWP`: R257. -/
  | swp (cond : Cond) (rn : Reg) (rd : Reg) (rm : Reg)
  /-- `SWPB`: R258. -/
  | swpb (cond : Cond) (rn : Reg) (rd : Reg) (rm : Reg)
  /-- `MAR`: R366. -/
  | mar (cond : Cond) (rdHi : Reg) (rdLo : Reg)
  /-- `MRA`: R367. -/
  | mra (cond : Cond) (rdHi : Reg) (rdLo : Reg)
  /-- `FLDMDBD`: R534. -/
  | fldmdbd (cond : Cond) (rn : Reg) (fd : DReg) (count : BitVec 7)
  /-- `FLDMDBX`: R560. -/
  | fldmdbx (cond : Cond) (rn : Reg) (fd : DReg) (count : BitVec 7)
  /-- `FSTMDBD`: R535. -/
  | fstmdbd (cond : Cond) (rn : Reg) (fd : DReg) (count : BitVec 7)
  /-- `FSTMDBX`: R560. -/
  | fstmdbx (cond : Cond) (rn : Reg) (fd : DReg) (count : BitVec 7)
  /-- `MUL`: R301. -/
  | mul (cond : Cond) (setFlags : Bool) (rd : Reg) (rs : Reg) (rm : Reg)
  /-- `MLA`: R302. -/
  | mla (cond : Cond) (setFlags : Bool) (rd : Reg) (rn : Reg) (rs : Reg) (rm : Reg)
  /-- `UMULL`: R303. -/
  | umull (cond : Cond) (setFlags : Bool) (rdHi : Reg) (rdLo : Reg) (rs : Reg) (rm : Reg)
  /-- `UMLAL`: R304. -/
  | umlal (cond : Cond) (setFlags : Bool) (rdHi : Reg) (rdLo : Reg) (rs : Reg) (rm : Reg)
  /-- `SMULL`: R305. -/
  | smull (cond : Cond) (setFlags : Bool) (rdHi : Reg) (rdLo : Reg) (rs : Reg) (rm : Reg)
  /-- `SMLAL`: R306. -/
  | smlal (cond : Cond) (setFlags : Bool) (rdHi : Reg) (rdLo : Reg) (rs : Reg) (rm : Reg)
  /-- `SMLAW<y>`: R310. -/
  | smlawY (cond : Cond) (rd : Reg) (rn : Reg) (rs : Reg) (y : Bool) (rm : Reg)
  /-- `SMULW<y>`: R309. -/
  | smulwY (cond : Cond) (rd : Reg) (rs : Reg) (y : Bool) (rm : Reg)
  /-- `MRS`: R361. -/
  | mrs (cond : Cond) (r : Bool) (rd : Reg)
  /-- `MSR__register`: R364. -/
  | msrReg (cond : Cond) (r : Bool) (fields : BitVec 4) (rm : Reg)
  /-- `FLDMIAD`: R534. -/
  | fldmiad (cond : Cond) (w : Bool) (rn : Reg) (fd : DReg) (count : BitVec 7)
  /-- `FLDMIAX`: R560. -/
  | fldmiax (cond : Cond) (w : Bool) (rn : Reg) (fd : DReg) (count : BitVec 7)
  /-- `FLDMDBS`: R534. -/
  | fldmdbs (cond : Cond) (rn : Reg) (fd : SReg) (count : BitVec 8)
  /-- `FSTMIAD`: R535. -/
  | fstmiad (cond : Cond) (w : Bool) (rn : Reg) (fd : DReg) (count : BitVec 7)
  /-- `FSTMIAX`: R560. -/
  | fstmiax (cond : Cond) (w : Bool) (rn : Reg) (fd : DReg) (count : BitVec 7)
  /-- `FSTMDBS`: R535. -/
  | fstmdbs (cond : Cond) (rn : Reg) (fd : SReg) (count : BitVec 8)
  /-- `TST__register__shift_by_register`: R288. -/
  | tstRegReg (cond : Cond) (rn : Reg) (rs : Reg) (shift : ShiftType) (rm : Reg)
  /-- `TEQ__register__shift_by_register`: R289. -/
  | teqRegReg (cond : Cond) (rn : Reg) (rs : Reg) (shift : ShiftType) (rm : Reg)
  /-- `CMP__register__shift_by_register`: R286. -/
  | cmpRegReg (cond : Cond) (rn : Reg) (rs : Reg) (shift : ShiftType) (rm : Reg)
  /-- `CMN__register__shift_by_register`: R287. -/
  | cmnRegReg (cond : Cond) (rn : Reg) (rs : Reg) (shift : ShiftType) (rm : Reg)
  /-- `SMLA<x><y>`: R308. -/
  | smlaXY (cond : Cond) (rd : Reg) (rn : Reg) (rs : Reg) (y : Bool) (x : Bool) (rm : Reg)
  /-- `SMLAL<x><y>`: R311. -/
  | smlalXY (cond : Cond) (rdHi : Reg) (rdLo : Reg) (rs : Reg) (y : Bool) (x : Bool) (rm : Reg)
  /-- `SMUL<x><y>`: R307. -/
  | smulXY (cond : Cond) (rd : Reg) (rs : Reg) (y : Bool) (x : Bool) (rm : Reg)
  /-- `FLDS`: R532. -/
  | flds (cond : Cond) (u : Bool) (rn : Reg) (fd : SReg) (offset8 : BitVec 8)
  /-- `FLDD`: R532. -/
  | fldd (cond : Cond) (u : Bool) (rn : Reg) (fd : DReg) (offset8 : BitVec 8)
  /-- `FSTS`: R533. -/
  | fsts (cond : Cond) (u : Bool) (rn : Reg) (fd : SReg) (offset8 : BitVec 8)
  /-- `FSTD`: R533. -/
  | fstd (cond : Cond) (u : Bool) (rn : Reg) (fd : DReg) (offset8 : BitVec 8)
  /-- `FLDMIAS`: R534. -/
  | fldmias (cond : Cond) (w : Bool) (rn : Reg) (fd : SReg) (count : BitVec 8)
  /-- `FSTMIAS`: R535. -/
  | fstmias (cond : Cond) (w : Bool) (rn : Reg) (fd : SReg) (count : BitVec 8)
  /-- `AND__register__shift_by_register`: R280. -/
  | andRegReg (cond : Cond) (setFlags : Bool) (rn : Reg) (rd : Reg) (rs : Reg) (shift : ShiftType) (rm : Reg)
  /-- `EOR__register__shift_by_register`: R282. -/
  | eorRegReg (cond : Cond) (setFlags : Bool) (rn : Reg) (rd : Reg) (rs : Reg) (shift : ShiftType) (rm : Reg)
  /-- `SUB__register__shift_by_register`: R275. -/
  | subRegReg (cond : Cond) (setFlags : Bool) (rn : Reg) (rd : Reg) (rs : Reg) (shift : ShiftType) (rm : Reg)
  /-- `RSB__register__shift_by_register`: R276. -/
  | rsbRegReg (cond : Cond) (setFlags : Bool) (rn : Reg) (rd : Reg) (rs : Reg) (shift : ShiftType) (rm : Reg)
  /-- `ADD__register__shift_by_register`: R274. -/
  | addRegReg (cond : Cond) (setFlags : Bool) (rn : Reg) (rd : Reg) (rs : Reg) (shift : ShiftType) (rm : Reg)
  /-- `ADC__register__shift_by_register`: R277. -/
  | adcRegReg (cond : Cond) (setFlags : Bool) (rn : Reg) (rd : Reg) (rs : Reg) (shift : ShiftType) (rm : Reg)
  /-- `SBC__register__shift_by_register`: R278. -/
  | sbcRegReg (cond : Cond) (setFlags : Bool) (rn : Reg) (rd : Reg) (rs : Reg) (shift : ShiftType) (rm : Reg)
  /-- `RSC__register__shift_by_register`: R279. -/
  | rscRegReg (cond : Cond) (setFlags : Bool) (rn : Reg) (rd : Reg) (rs : Reg) (shift : ShiftType) (rm : Reg)
  /-- `TST__register__shift_by_immediate`: R288. -/
  | tstRegImm (cond : Cond) (rn : Reg) (shiftImm : BitVec 5) (shift : ShiftType) (rm : Reg)
  /-- `TEQ__register__shift_by_immediate`: R289. -/
  | teqRegImm (cond : Cond) (rn : Reg) (shiftImm : BitVec 5) (shift : ShiftType) (rm : Reg)
  /-- `CMP__register__shift_by_immediate`: R286. -/
  | cmpRegImm (cond : Cond) (rn : Reg) (shiftImm : BitVec 5) (shift : ShiftType) (rm : Reg)
  /-- `CMN__register__shift_by_immediate`: R287. -/
  | cmnRegImm (cond : Cond) (rn : Reg) (shiftImm : BitVec 5) (shift : ShiftType) (rm : Reg)
  /-- `ORR__register__shift_by_register`: R281. -/
  | orrRegReg (cond : Cond) (setFlags : Bool) (rn : Reg) (rd : Reg) (rs : Reg) (shift : ShiftType) (rm : Reg)
  /-- `MOV__register__shift_by_register`: R284. -/
  | movRegReg (cond : Cond) (setFlags : Bool) (rd : Reg) (rs : Reg) (shift : ShiftType) (rm : Reg)
  /-- `BIC__register__shift_by_register`: R283. -/
  | bicRegReg (cond : Cond) (setFlags : Bool) (rn : Reg) (rd : Reg) (rs : Reg) (shift : ShiftType) (rm : Reg)
  /-- `MVN__register__shift_by_register`: R285. -/
  | mvnRegReg (cond : Cond) (setFlags : Bool) (rd : Reg) (rs : Reg) (shift : ShiftType) (rm : Reg)
  /-- `STRH__immediate_offset`: R244. -/
  | strhImm (cond : Cond) (p : Bool) (u : Bool) (w : Bool) (rn : Reg) (rd : Reg) (immH : BitVec 4) (immL : BitVec 4)
  /-- `STRH__register_offset`: R244. -/
  | strhReg (cond : Cond) (p : Bool) (u : Bool) (w : Bool) (rn : Reg) (rd : Reg) (rm : Reg)
  /-- `LDRH__immediate_offset`: R243. -/
  | ldrhImm (cond : Cond) (p : Bool) (u : Bool) (w : Bool) (rn : Reg) (rd : Reg) (immH : BitVec 4) (immL : BitVec 4)
  /-- `LDRH__register_offset`: R243. -/
  | ldrhReg (cond : Cond) (p : Bool) (u : Bool) (w : Bool) (rn : Reg) (rd : Reg) (rm : Reg)
  /-- `LDRSB__immediate_offset`: R246. -/
  | ldrsbImm (cond : Cond) (p : Bool) (u : Bool) (w : Bool) (rn : Reg) (rd : Reg) (immH : BitVec 4) (immL : BitVec 4)
  /-- `LDRSB__register_offset`: R246. -/
  | ldrsbReg (cond : Cond) (p : Bool) (u : Bool) (w : Bool) (rn : Reg) (rd : Reg) (rm : Reg)
  /-- `LDRSH__immediate_offset`: R245. -/
  | ldrshImm (cond : Cond) (p : Bool) (u : Bool) (w : Bool) (rn : Reg) (rd : Reg) (immH : BitVec 4) (immL : BitVec 4)
  /-- `LDRSH__register_offset`: R245. -/
  | ldrshReg (cond : Cond) (p : Bool) (u : Bool) (w : Bool) (rn : Reg) (rd : Reg) (rm : Reg)
  /-- `LDRD__immediate_offset`: R247. -/
  | ldrdImm (cond : Cond) (p : Bool) (u : Bool) (w : Bool) (rn : Reg) (rd : Reg) (immH : BitVec 4) (immL : BitVec 4)
  /-- `LDRD__register_offset`: R247. -/
  | ldrdReg (cond : Cond) (p : Bool) (u : Bool) (w : Bool) (rn : Reg) (rd : Reg) (rm : Reg)
  /-- `STRD__immediate_offset`: R248. -/
  | strdImm (cond : Cond) (p : Bool) (u : Bool) (w : Bool) (rn : Reg) (rd : Reg) (immH : BitVec 4) (immL : BitVec 4)
  /-- `STRD__register_offset`: R248. -/
  | strdReg (cond : Cond) (p : Bool) (u : Bool) (w : Bool) (rn : Reg) (rd : Reg) (rm : Reg)
  /-- `AND__register__shift_by_immediate`: R280. -/
  | andRegImm (cond : Cond) (setFlags : Bool) (rn : Reg) (rd : Reg) (shiftImm : BitVec 5) (shift : ShiftType) (rm : Reg)
  /-- `EOR__register__shift_by_immediate`: R282. -/
  | eorRegImm (cond : Cond) (setFlags : Bool) (rn : Reg) (rd : Reg) (shiftImm : BitVec 5) (shift : ShiftType) (rm : Reg)
  /-- `SUB__register__shift_by_immediate`: R275. -/
  | subRegImm (cond : Cond) (setFlags : Bool) (rn : Reg) (rd : Reg) (shiftImm : BitVec 5) (shift : ShiftType) (rm : Reg)
  /-- `RSB__register__shift_by_immediate`: R276. -/
  | rsbRegImm (cond : Cond) (setFlags : Bool) (rn : Reg) (rd : Reg) (shiftImm : BitVec 5) (shift : ShiftType) (rm : Reg)
  /-- `ADD__register__shift_by_immediate`: R274. -/
  | addRegImm (cond : Cond) (setFlags : Bool) (rn : Reg) (rd : Reg) (shiftImm : BitVec 5) (shift : ShiftType) (rm : Reg)
  /-- `ADC__register__shift_by_immediate`: R277. -/
  | adcRegImm (cond : Cond) (setFlags : Bool) (rn : Reg) (rd : Reg) (shiftImm : BitVec 5) (shift : ShiftType) (rm : Reg)
  /-- `SBC__register__shift_by_immediate`: R278. -/
  | sbcRegImm (cond : Cond) (setFlags : Bool) (rn : Reg) (rd : Reg) (shiftImm : BitVec 5) (shift : ShiftType) (rm : Reg)
  /-- `RSC__register__shift_by_immediate`: R279. -/
  | rscRegImm (cond : Cond) (setFlags : Bool) (rn : Reg) (rd : Reg) (shiftImm : BitVec 5) (shift : ShiftType) (rm : Reg)
  /-- `TST__immediate`: R288. -/
  | tstImm (cond : Cond) (rn : Reg) (rot : BitVec 4) (imm8 : BitVec 8)
  /-- `TEQ__immediate`: R289. -/
  | teqImm (cond : Cond) (rn : Reg) (rot : BitVec 4) (imm8 : BitVec 8)
  /-- `CMP__immediate`: R286. -/
  | cmpImm (cond : Cond) (rn : Reg) (rot : BitVec 4) (imm8 : BitVec 8)
  /-- `CMN__immediate`: R287. -/
  | cmnImm (cond : Cond) (rn : Reg) (rot : BitVec 4) (imm8 : BitVec 8)
  /-- `ORR__register__shift_by_immediate`: R281. -/
  | orrRegImm (cond : Cond) (setFlags : Bool) (rn : Reg) (rd : Reg) (shiftImm : BitVec 5) (shift : ShiftType) (rm : Reg)
  /-- `MOV__register__shift_by_immediate`: R284. -/
  | movRegImm (cond : Cond) (setFlags : Bool) (rd : Reg) (shiftImm : BitVec 5) (shift : ShiftType) (rm : Reg)
  /-- `BIC__register__shift_by_immediate`: R283. -/
  | bicRegImm (cond : Cond) (setFlags : Bool) (rn : Reg) (rd : Reg) (shiftImm : BitVec 5) (shift : ShiftType) (rm : Reg)
  /-- `MVN__register__shift_by_immediate`: R285. -/
  | mvnRegImm (cond : Cond) (setFlags : Bool) (rd : Reg) (shiftImm : BitVec 5) (shift : ShiftType) (rm : Reg)
  /-- `LDRT__register_offset`: R238. -/
  | ldrtReg (cond : Cond) (u : Bool) (rn : Reg) (rd : Reg) (shiftImm : BitVec 5) (shift : ShiftType) (rm : Reg)
  /-- `STRT__register_offset`: R239. -/
  | strtReg (cond : Cond) (u : Bool) (rn : Reg) (rd : Reg) (shiftImm : BitVec 5) (shift : ShiftType) (rm : Reg)
  /-- `LDRBT__register_offset`: R240. -/
  | ldrbtReg (cond : Cond) (u : Bool) (rn : Reg) (rd : Reg) (shiftImm : BitVec 5) (shift : ShiftType) (rm : Reg)
  /-- `STRBT__register_offset`: R241. -/
  | strbtReg (cond : Cond) (u : Bool) (rn : Reg) (rd : Reg) (shiftImm : BitVec 5) (shift : ShiftType) (rm : Reg)
  /-- `MCRR`: R345. -/
  | mcrr (cond : Cond) (rn : Reg) (rd : Reg) (cp : BitVec 4) (opc : BitVec 4) (crm : BitVec 4)
  /-- `MRRC`: R348. -/
  | mrrc (cond : Cond) (rn : Reg) (rd : Reg) (cp : BitVec 4) (opc : BitVec 4) (crm : BitVec 4)
  /-- `AND__immediate`: R280. -/
  | andImm (cond : Cond) (setFlags : Bool) (rn : Reg) (rd : Reg) (rot : BitVec 4) (imm8 : BitVec 8)
  /-- `EOR__immediate`: R282. -/
  | eorImm (cond : Cond) (setFlags : Bool) (rn : Reg) (rd : Reg) (rot : BitVec 4) (imm8 : BitVec 8)
  /-- `SUB__immediate`: R275. -/
  | subImm (cond : Cond) (setFlags : Bool) (rn : Reg) (rd : Reg) (rot : BitVec 4) (imm8 : BitVec 8)
  /-- `RSB__immediate`: R276. -/
  | rsbImm (cond : Cond) (setFlags : Bool) (rn : Reg) (rd : Reg) (rot : BitVec 4) (imm8 : BitVec 8)
  /-- `ADD__immediate`: R274. -/
  | addImm (cond : Cond) (setFlags : Bool) (rn : Reg) (rd : Reg) (rot : BitVec 4) (imm8 : BitVec 8)
  /-- `ADC__immediate`: R277. -/
  | adcImm (cond : Cond) (setFlags : Bool) (rn : Reg) (rd : Reg) (rot : BitVec 4) (imm8 : BitVec 8)
  /-- `SBC__immediate`: R278. -/
  | sbcImm (cond : Cond) (setFlags : Bool) (rn : Reg) (rd : Reg) (rot : BitVec 4) (imm8 : BitVec 8)
  /-- `RSC__immediate`: R279. -/
  | rscImm (cond : Cond) (setFlags : Bool) (rn : Reg) (rd : Reg) (rot : BitVec 4) (imm8 : BitVec 8)
  /-- `ORR__immediate`: R281. -/
  | orrImm (cond : Cond) (setFlags : Bool) (rn : Reg) (rd : Reg) (rot : BitVec 4) (imm8 : BitVec 8)
  /-- `MOV__immediate`: R284. -/
  | movImm (cond : Cond) (setFlags : Bool) (rd : Reg) (rot : BitVec 4) (imm8 : BitVec 8)
  /-- `BIC__immediate`: R283. -/
  | bicImm (cond : Cond) (setFlags : Bool) (rn : Reg) (rd : Reg) (rot : BitVec 4) (imm8 : BitVec 8)
  /-- `MVN__immediate`: R285. -/
  | mvnImm (cond : Cond) (setFlags : Bool) (rd : Reg) (rot : BitVec 4) (imm8 : BitVec 8)
  /-- `MSR__immediate`: R363. -/
  | msrImm (cond : Cond) (r : Bool) (fields : BitVec 4) (rot : BitVec 4) (imm8 : BitVec 8)
  /-- `LDRT__immediate_offset`: R238. -/
  | ldrtImm (cond : Cond) (u : Bool) (rn : Reg) (rd : Reg) (imm12 : BitVec 12)
  /-- `STRT__immediate_offset`: R239. -/
  | strtImm (cond : Cond) (u : Bool) (rn : Reg) (rd : Reg) (imm12 : BitVec 12)
  /-- `LDRBT__immediate_offset`: R240. -/
  | ldrbtImm (cond : Cond) (u : Bool) (rn : Reg) (rd : Reg) (imm12 : BitVec 12)
  /-- `STRBT__immediate_offset`: R241. -/
  | strbtImm (cond : Cond) (u : Bool) (rn : Reg) (rd : Reg) (imm12 : BitVec 12)
  /-- `LDR__register_offset`: R234. -/
  | ldrReg (cond : Cond) (p : Bool) (u : Bool) (w : Bool) (rn : Reg) (rd : Reg) (shiftImm : BitVec 5) (shift : ShiftType) (rm : Reg)
  /-- `STR__register_offset`: R235. -/
  | strReg (cond : Cond) (p : Bool) (u : Bool) (w : Bool) (rn : Reg) (rd : Reg) (shiftImm : BitVec 5) (shift : ShiftType) (rm : Reg)
  /-- `LDRB__register_offset`: R236. -/
  | ldrbReg (cond : Cond) (p : Bool) (u : Bool) (w : Bool) (rn : Reg) (rd : Reg) (shiftImm : BitVec 5) (shift : ShiftType) (rm : Reg)
  /-- `STRB__register_offset`: R237. -/
  | strbReg (cond : Cond) (p : Bool) (u : Bool) (w : Bool) (rn : Reg) (rd : Reg) (shiftImm : BitVec 5) (shift : ShiftType) (rm : Reg)
  /-- `LDM____User_registers`: R252. -/
  | ldmUser (cond : Cond) (p : Bool) (u : Bool) (w : Bool) (rn : Reg) (regs : BitVec 15)
  /-- `LDM____with_pc__exception_return`: R253. -/
  | ldmReturn (cond : Cond) (p : Bool) (u : Bool) (w : Bool) (rn : Reg) (regs : BitVec 15)
  /-- `MCR`: R343. -/
  | mcr (cond : Cond) (opc1 : BitVec 3) (crn : BitVec 4) (rd : Reg) (cp : BitVec 4) (opc2 : BitVec 3) (crm : BitVec 4)
  /-- `MRC`: R346. -/
  | mrc (cond : Cond) (opc1 : BitVec 3) (crn : BitVec 4) (rd : Reg) (cp : BitVec 4) (opc2 : BitVec 3) (crm : BitVec 4)
  /-- `LDC__post-indexed`: R349. -/
  | ldcPost (cond : Cond) (u : Bool) (long : Bool) (rn : Reg) (crd : BitVec 4) (cp : BitVec 4) (offset8 : BitVec 8)
  /-- `STC__post-indexed`: R350. -/
  | stcPost (cond : Cond) (u : Bool) (long : Bool) (rn : Reg) (crd : BitVec 4) (cp : BitVec 4) (offset8 : BitVec 8)
  /-- `LDR__immediate_offset`: R234. -/
  | ldrImm (cond : Cond) (p : Bool) (u : Bool) (w : Bool) (rn : Reg) (rd : Reg) (imm12 : BitVec 12)
  /-- `STR__immediate_offset`: R235. -/
  | strImm (cond : Cond) (p : Bool) (u : Bool) (w : Bool) (rn : Reg) (rd : Reg) (imm12 : BitVec 12)
  /-- `LDRB__immediate_offset`: R236. -/
  | ldrbImm (cond : Cond) (p : Bool) (u : Bool) (w : Bool) (rn : Reg) (rd : Reg) (imm12 : BitVec 12)
  /-- `STRB__immediate_offset`: R237. -/
  | strbImm (cond : Cond) (p : Bool) (u : Bool) (w : Bool) (rn : Reg) (rd : Reg) (imm12 : BitVec 12)
  /-- `LDM`: R250. -/
  | ldm (cond : Cond) (p : Bool) (u : Bool) (w : Bool) (rn : Reg) (regs : BitVec 16)
  /-- `STM`: R251. -/
  | stm (cond : Cond) (p : Bool) (u : Bool) (w : Bool) (rn : Reg) (regs : BitVec 16)
  /-- `STM____User_registers`: R254. -/
  | stmUser (cond : Cond) (p : Bool) (u : Bool) (w : Bool) (rn : Reg) (regs : BitVec 16)
  /-- `CDP`: R341. -/
  | cdp (cond : Cond) (opc1 : BitVec 4) (crn : BitVec 4) (crd : BitVec 4) (cp : BitVec 4) (opc2 : BitVec 3) (crm : BitVec 4)
  /-- `LDC__offset_or_pre-indexed`: R349. -/
  | ldcPre (cond : Cond) (u : Bool) (long : Bool) (w : Bool) (rn : Reg) (crd : BitVec 4) (cp : BitVec 4) (offset8 : BitVec 8)
  /-- `STC__offset_or_pre-indexed`: R350. -/
  | stcPre (cond : Cond) (u : Bool) (long : Bool) (w : Bool) (rn : Reg) (crd : BitVec 4) (cp : BitVec 4) (offset8 : BitVec 8)
  /-- `B`: R330. -/
  | b (cond : Cond) (imm24 : BitVec 24)
  /-- `BL`: R331. -/
  | bl (cond : Cond) (imm24 : BitVec 24)
  /-- `SWI`: R360. -/
  | swi (cond : Cond) (imm24 : BitVec 24)
  /-- `AND` (Thumb): R425. -/
  | tAnd (rm : LowReg) (rd : LowReg)
  /-- `EOR` (Thumb): R427. -/
  | tEor (rm : LowReg) (rd : LowReg)
  /-- `LSL__register` (Thumb): R431. -/
  | tLslReg (rm : LowReg) (rd : LowReg)
  /-- `LSR__register` (Thumb): R432. -/
  | tLsrReg (rm : LowReg) (rd : LowReg)
  /-- `ASR__register` (Thumb): R430. -/
  | tAsrReg (rm : LowReg) (rd : LowReg)
  /-- `ADC` (Thumb): R422. -/
  | tAdc (rm : LowReg) (rd : LowReg)
  /-- `SBC` (Thumb): R423. -/
  | tSbc (rm : LowReg) (rd : LowReg)
  /-- `ROR` (Thumb): R433. -/
  | tRor (rm : LowReg) (rd : LowReg)
  /-- `TST` (Thumb): R444. -/
  | tTst (rm : LowReg) (rd : LowReg)
  /-- `NEG` (Thumb): R443. -/
  | tNeg (rm : LowReg) (rd : LowReg)
  /-- `CMP__low_registers` (Thumb): R438. -/
  | tCmpLow (rm : LowReg) (rd : LowReg)
  /-- `CMN` (Thumb): R439. -/
  | tCmn (rm : LowReg) (rd : LowReg)
  /-- `ORR` (Thumb): R426. -/
  | tOrr (rm : LowReg) (rd : LowReg)
  /-- `MUL` (Thumb): R424. -/
  | tMul (rm : LowReg) (rd : LowReg)
  /-- `BIC` (Thumb): R428. -/
  | tBic (rm : LowReg) (rd : LowReg)
  /-- `MVN` (Thumb): R442. -/
  | tMvn (rm : LowReg) (rd : LowReg)
  /-- `BX` (Thumb): R454. -/
  | tBx (h2 : Bool) (rm : LowReg)
  /-- `BLX__register` (Thumb): R455. -/
  | tBlxReg (h2 : Bool) (rm : LowReg)
  /-- `ADD__sp` (Thumb): R418. -/
  | tAddSp (imm7 : BitVec 7)
  /-- `SUB__sp` (Thumb): R419. -/
  | tSubSp (imm7 : BitVec 7)
  /-- `ADD__high_registers` (Thumb): R417. -/
  | tAddHigh (h1 : Bool) (h2 : Bool) (rm : LowReg) (rd : LowReg)
  /-- `CMP__high_registers` (Thumb): R438. -/
  | tCmpHigh (h1 : Bool) (h2 : Bool) (rm : LowReg) (rd : LowReg)
  /-- `MOV__high_registers` (Thumb): R441. -/
  | tMovHigh (h1 : Bool) (h2 : Bool) (rm : LowReg) (rd : LowReg)
  /-- `BKPT` (Thumb): R458. -/
  | tBkpt (imm8 : BitVec 8)
  /-- `SWI` (Thumb): R457. -/
  | tSwi (imm8 : BitVec 8)
  /-- `unallocated__0xDE00-0xDEFF` (Thumb): R138. -/
  | tUnallocated (imm8 : BitVec 8)
  /-- `ADD__three_registers` (Thumb): R411. -/
  | tAddReg3 (rm : LowReg) (rn : LowReg) (rd : LowReg)
  /-- `SUB__three_registers` (Thumb): R412. -/
  | tSubReg3 (rm : LowReg) (rn : LowReg) (rd : LowReg)
  /-- `ADD__3-bit_immediate` (Thumb): R413. -/
  | tAddImm3 (imm3 : BitVec 3) (rn : LowReg) (rd : LowReg)
  /-- `SUB__3-bit_immediate` (Thumb): R414. -/
  | tSubImm3 (imm3 : BitVec 3) (rn : LowReg) (rd : LowReg)
  /-- `STR__register_offset` (Thumb): R388. -/
  | tStrReg (rm : LowReg) (rn : LowReg) (rd : LowReg)
  /-- `STRH__register_offset` (Thumb): R391. -/
  | tStrhReg (rm : LowReg) (rn : LowReg) (rd : LowReg)
  /-- `STRB__register_offset` (Thumb): R394. -/
  | tStrbReg (rm : LowReg) (rn : LowReg) (rd : LowReg)
  /-- `LDRSB__register_offset` (Thumb): R393. -/
  | tLdrsbReg (rm : LowReg) (rn : LowReg) (rd : LowReg)
  /-- `LDR__register_offset` (Thumb): R387. -/
  | tLdrReg (rm : LowReg) (rn : LowReg) (rd : LowReg)
  /-- `LDRH__register_offset` (Thumb): R389. -/
  | tLdrhReg (rm : LowReg) (rn : LowReg) (rd : LowReg)
  /-- `LDRB__register_offset` (Thumb): R392. -/
  | tLdrbReg (rm : LowReg) (rn : LowReg) (rd : LowReg)
  /-- `LDRSH__register_offset` (Thumb): R390. -/
  | tLdrshReg (rm : LowReg) (rn : LowReg) (rd : LowReg)
  /-- `PUSH` (Thumb): R398. -/
  | tPush (r : Bool) (regs : BitVec 8)
  /-- `POP` (Thumb): R399. -/
  | tPop (r : Bool) (regs : BitVec 8)
  /-- `BLX__label__second_half` (Thumb): R456. -/
  | tBlxSecond (lo10 : BitVec 10)
  /-- `LSL__immediate` (Thumb): R435. -/
  | tLslImm (imm5 : BitVec 5) (rm : LowReg) (rd : LowReg)
  /-- `LSR__immediate` (Thumb): R436. -/
  | tLsrImm (imm5 : BitVec 5) (rm : LowReg) (rd : LowReg)
  /-- `ASR__immediate` (Thumb): R434. -/
  | tAsrImm (imm5 : BitVec 5) (rm : LowReg) (rd : LowReg)
  /-- `MOV__8-bit_immediate` (Thumb): R440. -/
  | tMovImm8 (rd : LowReg) (imm8 : BitVec 8)
  /-- `CMP__8-bit_immediate` (Thumb): R437. -/
  | tCmpImm8 (rn : LowReg) (imm8 : BitVec 8)
  /-- `ADD__8-bit_immediate` (Thumb): R415. -/
  | tAddImm8 (rd : LowReg) (imm8 : BitVec 8)
  /-- `SUB__8-bit_immediate` (Thumb): R416. -/
  | tSubImm8 (rd : LowReg) (imm8 : BitVec 8)
  /-- `LDR__pc-relative` (Thumb): R395. -/
  | tLdrPc (rd : LowReg) (imm8 : BitVec 8)
  /-- `STR__immediate_offset` (Thumb): R382. -/
  | tStrImm (imm5 : BitVec 5) (rn : LowReg) (rd : LowReg)
  /-- `LDR__immediate_offset` (Thumb): R381. -/
  | tLdrImm (imm5 : BitVec 5) (rn : LowReg) (rd : LowReg)
  /-- `STRB__immediate_offset` (Thumb): R386. -/
  | tStrbImm (imm5 : BitVec 5) (rn : LowReg) (rd : LowReg)
  /-- `LDRB__immediate_offset` (Thumb): R385. -/
  | tLdrbImm (imm5 : BitVec 5) (rn : LowReg) (rd : LowReg)
  /-- `STRH__immediate_offset` (Thumb): R384. -/
  | tStrhImm (imm5 : BitVec 5) (rn : LowReg) (rd : LowReg)
  /-- `LDRH__immediate_offset` (Thumb): R383. -/
  | tLdrhImm (imm5 : BitVec 5) (rn : LowReg) (rd : LowReg)
  /-- `STR__sp-relative` (Thumb): R397. -/
  | tStrSpRel (rd : LowReg) (imm8 : BitVec 8)
  /-- `LDR__sp-relative` (Thumb): R396. -/
  | tLdrSpRel (rd : LowReg) (imm8 : BitVec 8)
  /-- `ADD__Rd___pc_+_immediate` (Thumb): R420. -/
  | tAddPcImm (rd : LowReg) (imm8 : BitVec 8)
  /-- `ADD__Rd___sp_+_immediate` (Thumb): R421. -/
  | tAddSpImm (rd : LowReg) (imm8 : BitVec 8)
  /-- `STMIA` (Thumb): R401. -/
  | tStmia (rn : LowReg) (regs : BitVec 8)
  /-- `LDMIA` (Thumb): R400. -/
  | tLdmia (rn : LowReg) (regs : BitVec 8)
  /-- `B` (Thumb): R451. -/
  | tB (imm11 : BitVec 11)
  /-- `BL___BLX__first_half` (Thumb): R453. -/
  | tBlFirst (hi11 : BitVec 11)
  /-- `BL__second_half` (Thumb): R453. -/
  | tBlSecond (lo11 : BitVec 11)
  /-- `B<cond>` (Thumb): R452. -/
  | tBCond (cond : Cond) (imm8 : BitVec 8)
  deriving DecidableEq, Repr

end Sys2Proof
end

