-- ==== Sys2Proof/Decode.lean ====
section
/-! DEFINITION. From bits to instructions and back (spec 30_encoding.md, opcode_table.json). Decoding takes the first
row of the table whose fixed bits match and whose availability holds (R100, R152); the rows are grouped by bits[27:25]
(R102) and, for Thumb, by bits[15:13] (R120), each group in the table's order. The encoder follows. -/

namespace Sys2Proof

/-- One bit of a row's pattern: fixed 0, fixed 1, or not fixed. -/
inductive Pat where
  | o | i | x
  deriving DecidableEq, Repr

/-- Whether a bit agrees with its place in a pattern. -/
def Pat.ok : Pat → Bool → Bool
  | .o, b => !b
  | .i, b => b
  | .x, _ => true

/-- One bit as a bit vector. -/
def bit1 (a : Bool) : BitVec 1 := BitVec.ofBool a

/-- Two bits, most significant first. -/
def bit2 (a b : Bool) : BitVec 2 := BitVec.ofBool a ++ BitVec.ofBool b

/-- Three bits, most significant first. -/
def bit3 (a b c : Bool) : BitVec 3 := BitVec.ofBool a ++ BitVec.ofBool b ++ BitVec.ofBool c

/-- Four bits, most significant first. -/
def bit4 (a b c d : Bool) : BitVec 4 := BitVec.ofBool a ++ BitVec.ofBool b ++ BitVec.ofBool c ++ BitVec.ofBool d

/-- A condition's four-bit number (R101). -/
def Cond.bits : Cond → BitVec 4
  | .eq => 0#4 | .ne => 1#4 | .cs => 2#4 | .cc => 3#4 | .mi => 4#4 | .pl => 5#4 | .vs => 6#4 | .vc => 7#4
  | .hi => 8#4 | .ls => 9#4 | .ge => 10#4 | .lt => 11#4 | .gt => 12#4 | .le => 13#4 | .al => 14#4

/-- The condition a four-bit number names; 1111 names none (R101). -/
def Cond.ofBits (n : BitVec 4) : Option Cond :=
  match n.toNat with
  | 0 => some .eq | 1 => some .ne | 2 => some .cs | 3 => some .cc | 4 => some .mi | 5 => some .pl
  | 6 => some .vs | 7 => some .vc | 8 => some .hi | 9 => some .ls | 10 => some .ge | 11 => some .lt
  | 12 => some .gt | 13 => some .le | 14 => some .al | _ => none

/-- A shift type from bits 6 and 5 (R105). -/
def ShiftType.ofBits : Bool → Bool → ShiftType
  | false, false => .lsl
  | false, true => .lsr
  | true, false => .asr
  | true, true => .ror

/-- Bit 6 of a shift type's encoding (R105). -/
def ShiftType.bit1 : ShiftType → Bool
  | .lsl => false | .lsr => false | .asr => true | .ror => true

/-- Bit 5 of a shift type's encoding (R105). -/
def ShiftType.bit0 : ShiftType → Bool
  | .lsl => false | .lsr => true | .asr => false | .ror => true

/-- An ARM instruction word taken apart: the condition, bits 27 to 20 and 7 to 4 one by one, and the four-bit fields
that begin at bits 16, 12, 8 and 0. -/
structure ArmWord where
  cond : BitVec 4
  b27 : Bool
  b26 : Bool
  b25 : Bool
  b24 : Bool
  b23 : Bool
  b22 : Bool
  b21 : Bool
  b20 : Bool
  n16 : BitVec 4
  n12 : BitVec 4
  n8 : BitVec 4
  b7 : Bool
  b6 : Bool
  b5 : Bool
  b4 : Bool
  n0 : BitVec 4
  deriving DecidableEq, Repr

/-- Take an ARM word apart. -/
def ArmWord.ofWord (w : Word) : ArmWord :=
  { cond := w.extractLsb' 28 4
    b27 := w.getLsbD 27, b26 := w.getLsbD 26, b25 := w.getLsbD 25, b24 := w.getLsbD 24
    b23 := w.getLsbD 23, b22 := w.getLsbD 22, b21 := w.getLsbD 21, b20 := w.getLsbD 20
    n16 := w.extractLsb' 16 4, n12 := w.extractLsb' 12 4, n8 := w.extractLsb' 8 4
    b7 := w.getLsbD 7, b6 := w.getLsbD 6, b5 := w.getLsbD 5, b4 := w.getLsbD 4
    n0 := w.extractLsb' 0 4 }

/-- Put an ARM word together. -/
def ArmWord.toWord (f : ArmWord) : Word :=
  f.cond ++ bit4 f.b27 f.b26 f.b25 f.b24 ++ bit4 f.b23 f.b22 f.b21 f.b20 ++ f.n16 ++ f.n12 ++ f.n8 ++
    bit4 f.b7 f.b6 f.b5 f.b4 ++ f.n0

/-- Bits 27 to 20 agree with a pattern. -/
def ArmWord.op (f : ArmWord) (p27 p26 p25 p24 p23 p22 p21 p20 : Pat) : Bool :=
  p27.ok f.b27 && p26.ok f.b26 && p25.ok f.b25 && p24.ok f.b24 && p23.ok f.b23 && p22.ok f.b22 &&
    p21.ok f.b21 && p20.ok f.b20

/-- Bits 7 to 4 agree with a pattern. -/
def ArmWord.mid (f : ArmWord) (p7 p6 p5 p4 : Pat) : Bool :=
  p7.ok f.b7 && p6.ok f.b6 && p5.ok f.b5 && p4.ok f.b4

/-- A Thumb instruction taken apart: bits 15 to 6 one by one, bits 5 to 3 and bits 2 to 0. -/
structure ThumbWord where
  b15 : Bool
  b14 : Bool
  b13 : Bool
  b12 : Bool
  b11 : Bool
  b10 : Bool
  b9 : Bool
  b8 : Bool
  b7 : Bool
  b6 : Bool
  m3 : BitVec 3
  l3 : BitVec 3
  deriving DecidableEq, Repr

/-- Take a Thumb halfword apart. -/
def ThumbWord.ofHalf (h : Half) : ThumbWord :=
  { b15 := h.getLsbD 15, b14 := h.getLsbD 14, b13 := h.getLsbD 13, b12 := h.getLsbD 12
    b11 := h.getLsbD 11, b10 := h.getLsbD 10, b9 := h.getLsbD 9, b8 := h.getLsbD 8
    b7 := h.getLsbD 7, b6 := h.getLsbD 6, m3 := h.extractLsb' 3 3, l3 := h.extractLsb' 0 3 }

/-- Put a Thumb halfword together. -/
def ThumbWord.toHalf (f : ThumbWord) : Half :=
  bit4 f.b15 f.b14 f.b13 f.b12 ++ bit4 f.b11 f.b10 f.b9 f.b8 ++ bit2 f.b7 f.b6 ++ f.m3 ++ f.l3

/-- Bits 15 to 6 agree with a pattern. -/
def ThumbWord.top (f : ThumbWord) (p15 p14 p13 p12 p11 p10 p9 p8 p7 p6 : Pat) : Bool :=
  p15.ok f.b15 && p14.ok f.b14 && p13.ok f.b13 && p12.ok f.b12 && p11.ok f.b11 && p10.ok f.b10 &&
    p9.ok f.b9 && p8.ok f.b8 && p7.ok f.b7 && p6.ok f.b6

/-- What decoding answers: an instruction; an unallocated or unavailable encoding, which raises Undefined Instruction
(R117, R138); or an allocated pattern with a wrong should-be bit, which is UNPREDICTABLE (R102). -/
inductive Decoded where
  | instr (i : Instr)
  | undefined
  | unpredictable
  deriving DecidableEq, Repr

/-- An encoded instruction: an ARM word or a Thumb halfword (R100). -/
inductive Code where
  | arm (w : Word)
  | thumb (h : Half)
  deriving DecidableEq, Repr

/-- An instruction whose should-be bits are right, else UNPREDICTABLE (R102). -/
def shouldBe (ok : Bool) (i : Instr) : Decoded := if ok then .instr i else .unpredictable

/-- `ARCH.version >= 4`. -/
def Arch.atLeast4 (a : Arch) : Bool :=
  match a.version with
  | .v3 => false
  | .v4 => true
  | .v5 => true

/-- `ARCH.version >= 5`. -/
def Arch.atLeast5 (a : Arch) : Bool :=
  match a.version with
  | .v3 => false
  | .v4 => false
  | .v5 => true

/-- "available in all E variants of ARM architecture version 5 and above" (R150, note e). -/
def Arch.hasE (a : Arch) : Bool := a.atLeast5 && a.enhanced

/-- "available in E variants of ARM architecture version 5 and above, except ExP variants" (R150, note d). -/
def Arch.hasFullE (a : Arch) : Bool := a.atLeast5 && a.enhanced && !a.exp

/-- Version 5 with Thumb: BLX and the Thumb BKPT (R150). -/
def Arch.hasT5 (a : Arch) : Bool := a.atLeast5 && a.thumb

/-- BX in ARM state (R150). -/
def Arch.hasBx (a : Arch) : Bool := (a.atLeast4 && a.thumb) || a.atLeast5

/-- `FPU /= none` (R9). -/
def Arch.hasFpu (a : Arch) : Bool :=
  match a.fpu with
  | .none => false
  | .vfpv1 => true
  | .vfpv2 => true

open Pat in
/-- The unconditional space, cond = 1111 (R112, R114, R115, R117). -/
def decodeUncond (a : Arch) (f : ArmWord) : Decoded :=
  if f.op o i i i x i o i && f.mid x x x o && a.hasFullE then
      shouldBe (f.n12 == 15#4) (.pldReg f.b23 f.n16 (f.n8 ++ bit1 f.b7) (ShiftType.ofBits f.b6 f.b5) f.n0)
  else if f.op o i o i x i o i && a.hasFullE then
      shouldBe (f.n12 == 15#4) (.pldImm f.b23 f.n16 (f.n8 ++ bit4 f.b7 f.b6 f.b5 f.b4 ++ f.n0))
  else if f.op i i i o x x x o && f.mid x x x i && a.atLeast5 then
      .instr (.mcr2 (bit3 f.b23 f.b22 f.b21) f.n16 f.n12 f.n8 (bit3 f.b7 f.b6 f.b5) f.n0)
  else if f.op i i i o x x x i && f.mid x x x i && a.atLeast5 then
      .instr (.mrc2 (bit3 f.b23 f.b22 f.b21) f.n16 f.n12 f.n8 (bit3 f.b7 f.b6 f.b5) f.n0)
  else if f.op i i o o x x i i && a.atLeast5 then
      .instr (.ldc2Post f.b23 f.b22 f.n16 f.n12 f.n8 (bit4 f.b7 f.b6 f.b5 f.b4 ++ f.n0))
  else if f.op i i o o x x i o && a.atLeast5 then
      .instr (.stc2Post f.b23 f.b22 f.n16 f.n12 f.n8 (bit4 f.b7 f.b6 f.b5 f.b4 ++ f.n0))
  else if f.op i i i o x x x x && f.mid x x x o && a.atLeast5 then
      .instr (.cdp2 (bit4 f.b23 f.b22 f.b21 f.b20) f.n16 f.n12 f.n8 (bit3 f.b7 f.b6 f.b5) f.n0)
  else if f.op i i o i x x x i && a.atLeast5 then
      .instr (.ldc2Pre f.b23 f.b22 f.b21 f.n16 f.n12 f.n8 (bit4 f.b7 f.b6 f.b5 f.b4 ++ f.n0))
  else if f.op i i o i x x x o && a.atLeast5 then
      .instr (.stc2Pre f.b23 f.b22 f.b21 f.n16 f.n12 f.n8 (bit4 f.b7 f.b6 f.b5 f.b4 ++ f.n0))
  else if f.op i o i x x x x x && a.hasT5 then
      .instr (.blxLabel f.b24 (bit4 f.b23 f.b22 f.b21 f.b20 ++ f.n16 ++ f.n12 ++ f.n8 ++ bit4 f.b7 f.b6 f.b5
      f.b4 ++ f.n0))
  else .instr (.unallocatedUncond (bit4 f.b27 f.b26 f.b25 f.b24 ++ bit4 f.b23 f.b22 f.b21 f.b20 ++ f.n16 ++
      f.n12 ++ f.n8 ++ bit4 f.b7 f.b6 f.b5 f.b4 ++ f.n0))

open Pat in
/-- bits[27:25] = 000, bit 4 = 0, outside the miscellaneous space: data processing, shift by immediate (R103, R105). -/
def decodeDpImmShift (_ : Arch) (_ : Bool) (c : Cond) (f : ArmWord) : Decoded :=
  if f.op o o o i o o o i && f.mid x x x o then
      shouldBe (f.n12 == 0#4) (.tstRegImm c f.n16 (f.n8 ++ bit1 f.b7) (ShiftType.ofBits f.b6 f.b5) f.n0)
  else if f.op o o o i o o i i && f.mid x x x o then
      shouldBe (f.n12 == 0#4) (.teqRegImm c f.n16 (f.n8 ++ bit1 f.b7) (ShiftType.ofBits f.b6 f.b5) f.n0)
  else if f.op o o o i o i o i && f.mid x x x o then
      shouldBe (f.n12 == 0#4) (.cmpRegImm c f.n16 (f.n8 ++ bit1 f.b7) (ShiftType.ofBits f.b6 f.b5) f.n0)
  else if f.op o o o i o i i i && f.mid x x x o then
      shouldBe (f.n12 == 0#4) (.cmnRegImm c f.n16 (f.n8 ++ bit1 f.b7) (ShiftType.ofBits f.b6 f.b5) f.n0)
  else if f.op o o o o o o o x && f.mid x x x o then
      .instr (.andRegImm c f.b20 f.n16 f.n12 (f.n8 ++ bit1 f.b7) (ShiftType.ofBits f.b6 f.b5) f.n0)
  else if f.op o o o o o o i x && f.mid x x x o then
      .instr (.eorRegImm c f.b20 f.n16 f.n12 (f.n8 ++ bit1 f.b7) (ShiftType.ofBits f.b6 f.b5) f.n0)
  else if f.op o o o o o i o x && f.mid x x x o then
      .instr (.subRegImm c f.b20 f.n16 f.n12 (f.n8 ++ bit1 f.b7) (ShiftType.ofBits f.b6 f.b5) f.n0)
  else if f.op o o o o o i i x && f.mid x x x o then
      .instr (.rsbRegImm c f.b20 f.n16 f.n12 (f.n8 ++ bit1 f.b7) (ShiftType.ofBits f.b6 f.b5) f.n0)
  else if f.op o o o o i o o x && f.mid x x x o then
      .instr (.addRegImm c f.b20 f.n16 f.n12 (f.n8 ++ bit1 f.b7) (ShiftType.ofBits f.b6 f.b5) f.n0)
  else if f.op o o o o i o i x && f.mid x x x o then
      .instr (.adcRegImm c f.b20 f.n16 f.n12 (f.n8 ++ bit1 f.b7) (ShiftType.ofBits f.b6 f.b5) f.n0)
  else if f.op o o o o i i o x && f.mid x x x o then
      .instr (.sbcRegImm c f.b20 f.n16 f.n12 (f.n8 ++ bit1 f.b7) (ShiftType.ofBits f.b6 f.b5) f.n0)
  else if f.op o o o o i i i x && f.mid x x x o then
      .instr (.rscRegImm c f.b20 f.n16 f.n12 (f.n8 ++ bit1 f.b7) (ShiftType.ofBits f.b6 f.b5) f.n0)
  else if f.op o o o i i o o x && f.mid x x x o then
      .instr (.orrRegImm c f.b20 f.n16 f.n12 (f.n8 ++ bit1 f.b7) (ShiftType.ofBits f.b6 f.b5) f.n0)
  else if f.op o o o i i o i x && f.mid x x x o then
      shouldBe (f.n16 == 0#4) (.movRegImm c f.b20 f.n12 (f.n8 ++ bit1 f.b7) (ShiftType.ofBits f.b6 f.b5) f.n0)
  else if f.op o o o i i i o x && f.mid x x x o then
      .instr (.bicRegImm c f.b20 f.n16 f.n12 (f.n8 ++ bit1 f.b7) (ShiftType.ofBits f.b6 f.b5) f.n0)
  else if f.op o o o i i i i x && f.mid x x x o then
      shouldBe (f.n16 == 0#4) (.mvnRegImm c f.b20 f.n12 (f.n8 ++ bit1 f.b7) (ShiftType.ofBits f.b6 f.b5) f.n0)
  else .undefined

open Pat in
/-- bits[27:25] = 000, bit 7 = 0, bit 4 = 1, outside the miscellaneous space: data processing, shift by register (R103, R105). -/
def decodeDpRegShift (_ : Arch) (_ : Bool) (c : Cond) (f : ArmWord) : Decoded :=
  if f.op o o o i o o o i && f.mid o x x i then
      shouldBe (f.n12 == 0#4) (.tstRegReg c f.n16 f.n8 (ShiftType.ofBits f.b6 f.b5) f.n0)
  else if f.op o o o i o o i i && f.mid o x x i then
      shouldBe (f.n12 == 0#4) (.teqRegReg c f.n16 f.n8 (ShiftType.ofBits f.b6 f.b5) f.n0)
  else if f.op o o o i o i o i && f.mid o x x i then
      shouldBe (f.n12 == 0#4) (.cmpRegReg c f.n16 f.n8 (ShiftType.ofBits f.b6 f.b5) f.n0)
  else if f.op o o o i o i i i && f.mid o x x i then
      shouldBe (f.n12 == 0#4) (.cmnRegReg c f.n16 f.n8 (ShiftType.ofBits f.b6 f.b5) f.n0)
  else if f.op o o o o o o o x && f.mid o x x i then
      .instr (.andRegReg c f.b20 f.n16 f.n12 f.n8 (ShiftType.ofBits f.b6 f.b5) f.n0)
  else if f.op o o o o o o i x && f.mid o x x i then
      .instr (.eorRegReg c f.b20 f.n16 f.n12 f.n8 (ShiftType.ofBits f.b6 f.b5) f.n0)
  else if f.op o o o o o i o x && f.mid o x x i then
      .instr (.subRegReg c f.b20 f.n16 f.n12 f.n8 (ShiftType.ofBits f.b6 f.b5) f.n0)
  else if f.op o o o o o i i x && f.mid o x x i then
      .instr (.rsbRegReg c f.b20 f.n16 f.n12 f.n8 (ShiftType.ofBits f.b6 f.b5) f.n0)
  else if f.op o o o o i o o x && f.mid o x x i then
      .instr (.addRegReg c f.b20 f.n16 f.n12 f.n8 (ShiftType.ofBits f.b6 f.b5) f.n0)
  else if f.op o o o o i o i x && f.mid o x x i then
      .instr (.adcRegReg c f.b20 f.n16 f.n12 f.n8 (ShiftType.ofBits f.b6 f.b5) f.n0)
  else if f.op o o o o i i o x && f.mid o x x i then
      .instr (.sbcRegReg c f.b20 f.n16 f.n12 f.n8 (ShiftType.ofBits f.b6 f.b5) f.n0)
  else if f.op o o o o i i i x && f.mid o x x i then
      .instr (.rscRegReg c f.b20 f.n16 f.n12 f.n8 (ShiftType.ofBits f.b6 f.b5) f.n0)
  else if f.op o o o i i o o x && f.mid o x x i then
      .instr (.orrRegReg c f.b20 f.n16 f.n12 f.n8 (ShiftType.ofBits f.b6 f.b5) f.n0)
  else if f.op o o o i i o i x && f.mid o x x i then
      shouldBe (f.n16 == 0#4) (.movRegReg c f.b20 f.n12 f.n8 (ShiftType.ofBits f.b6 f.b5) f.n0)
  else if f.op o o o i i i o x && f.mid o x x i then
      .instr (.bicRegReg c f.b20 f.n16 f.n12 f.n8 (ShiftType.ofBits f.b6 f.b5) f.n0)
  else if f.op o o o i i i i x && f.mid o x x i then
      shouldBe (f.n16 == 0#4) (.mvnRegReg c f.b20 f.n12 f.n8 (ShiftType.ofBits f.b6 f.b5) f.n0)
  else .undefined

open Pat in
/-- bits[27:23] = 00010, bit 20 = 0, not (bit 7 = 1 and bit 4 = 1): the miscellaneous space (R107). -/
def decodeMisc (a : Arch) (_ : Bool) (c : Cond) (f : ArmWord) : Decoded :=
  if f.op o o o i o o o o && f.mid o i o i && a.hasE then shouldBe (f.n8 == 0#4) (.qadd c f.n16 f.n12 f.n0)
  else if f.op o o o i o o i o && f.mid o i o i && a.hasE then shouldBe (f.n8 == 0#4) (.qsub c f.n16 f.n12 f.n0)
  else if f.op o o o i o i o o && f.mid o i o i && a.hasE then
      shouldBe (f.n8 == 0#4) (.qdadd c f.n16 f.n12 f.n0)
  else if f.op o o o i o i i o && f.mid o i o i && a.hasE then
      shouldBe (f.n8 == 0#4) (.qdsub c f.n16 f.n12 f.n0)
  else if f.op o o o i o o i o && f.mid o o o i && a.hasBx then
      shouldBe (f.n16 == 15#4 && f.n12 == 15#4 && f.n8 == 15#4) (.bx c f.n0)
  else if f.op o o o i o o i o && f.mid o o i i && a.hasT5 then
      shouldBe (f.n16 == 15#4 && f.n12 == 15#4 && f.n8 == 15#4) (.blxReg c f.n0)
  else if f.op o o o i o i i o && f.mid o o o i && a.atLeast5 then
      shouldBe (f.n16 == 15#4 && f.n8 == 15#4) (.clz c f.n12 f.n0)
  else if f.op o o o i o o i o && f.mid o i i i && a.atLeast5 then
      .instr (.bkpt c (f.n16 ++ f.n12 ++ f.n8) f.n0)
  else if f.op o o o i o o i o && f.mid i x o o && a.hasE then .instr (.smlawY c f.n16 f.n12 f.n8 f.b6 f.n0)
  else if f.op o o o i o o i o && f.mid i x i o && a.hasE then
      shouldBe (f.n12 == 0#4) (.smulwY c f.n16 f.n8 f.b6 f.n0)
  else if f.op o o o i o x o o && f.mid o o o o then
      shouldBe (f.n16 == 15#4 && f.n8 == 0#4 && f.n0 == 0#4) (.mrs c f.b22 f.n12)
  else if f.op o o o i o x i o && f.mid o o o o then
      shouldBe (f.n12 == 15#4 && f.n8 == 0#4) (.msrReg c f.b22 f.n16 f.n0)
  else if f.op o o o i o o o o && f.mid i x x o && a.hasE then
      .instr (.smlaXY c f.n16 f.n12 f.n8 f.b6 f.b5 f.n0)
  else if f.op o o o i o i o o && f.mid i x x o && a.hasE then
      .instr (.smlalXY c f.n16 f.n12 f.n8 f.b6 f.b5 f.n0)
  else if f.op o o o i o i i o && f.mid i x x o && a.hasE then
      shouldBe (f.n12 == 0#4) (.smulXY c f.n16 f.n8 f.b6 f.b5 f.n0)
  else .undefined

open Pat in
/-- bits[27:25] = 000, bits[7:4] = 1001: multiplies and swaps (R106, R111). -/
def decodeMulSwap (a : Arch) (_ : Bool) (c : Cond) (f : ArmWord) : Decoded :=
  if f.op o o o i o o o o && f.mid i o o i then shouldBe (f.n8 == 0#4) (.swp c f.n16 f.n12 f.n0)
  else if f.op o o o i o i o o && f.mid i o o i then shouldBe (f.n8 == 0#4) (.swpb c f.n16 f.n12 f.n0)
  else if f.op o o o o o o o x && f.mid i o o i then shouldBe (f.n12 == 0#4) (.mul c f.b20 f.n16 f.n8 f.n0)
  else if f.op o o o o o o i x && f.mid i o o i then .instr (.mla c f.b20 f.n16 f.n12 f.n8 f.n0)
  else if f.op o o o o i o o x && f.mid i o o i && a.longMultiply then
      .instr (.umull c f.b20 f.n16 f.n12 f.n8 f.n0)
  else if f.op o o o o i o i x && f.mid i o o i && a.longMultiply then
      .instr (.umlal c f.b20 f.n16 f.n12 f.n8 f.n0)
  else if f.op o o o o i i o x && f.mid i o o i && a.longMultiply then
      .instr (.smull c f.b20 f.n16 f.n12 f.n8 f.n0)
  else if f.op o o o o i i i x && f.mid i o o i && a.longMultiply then
      .instr (.smlal c f.b20 f.n16 f.n12 f.n8 f.n0)
  else .undefined

open Pat in
/-- bits[27:25] = 000, bit 7 = 1, bit 4 = 1, bits[6:5] not 00: halfword, signed and double word transfers (R109). -/
def decodeExtra (a : Arch) (_ : Bool) (c : Cond) (f : ArmWord) : Decoded :=
  if f.op o o o x x i x o && f.mid i o i i && a.atLeast4 then
      .instr (.strhImm c f.b24 f.b23 f.b21 f.n16 f.n12 f.n8 f.n0)
  else if f.op o o o x x o x o && f.mid i o i i && a.atLeast4 then
      shouldBe (f.n8 == 0#4) (.strhReg c f.b24 f.b23 f.b21 f.n16 f.n12 f.n0)
  else if f.op o o o x x i x i && f.mid i o i i && a.atLeast4 then
      .instr (.ldrhImm c f.b24 f.b23 f.b21 f.n16 f.n12 f.n8 f.n0)
  else if f.op o o o x x o x i && f.mid i o i i && a.atLeast4 then
      shouldBe (f.n8 == 0#4) (.ldrhReg c f.b24 f.b23 f.b21 f.n16 f.n12 f.n0)
  else if f.op o o o x x i x i && f.mid i i o i && a.atLeast4 then
      .instr (.ldrsbImm c f.b24 f.b23 f.b21 f.n16 f.n12 f.n8 f.n0)
  else if f.op o o o x x o x i && f.mid i i o i && a.atLeast4 then
      shouldBe (f.n8 == 0#4) (.ldrsbReg c f.b24 f.b23 f.b21 f.n16 f.n12 f.n0)
  else if f.op o o o x x i x i && f.mid i i i i && a.atLeast4 then
      .instr (.ldrshImm c f.b24 f.b23 f.b21 f.n16 f.n12 f.n8 f.n0)
  else if f.op o o o x x o x i && f.mid i i i i && a.atLeast4 then
      shouldBe (f.n8 == 0#4) (.ldrshReg c f.b24 f.b23 f.b21 f.n16 f.n12 f.n0)
  else if f.op o o o x x i x o && f.mid i i o i && a.hasFullE then
      .instr (.ldrdImm c f.b24 f.b23 f.b21 f.n16 f.n12 f.n8 f.n0)
  else if f.op o o o x x o x o && f.mid i i o i && a.hasFullE then
      shouldBe (f.n8 == 0#4) (.ldrdReg c f.b24 f.b23 f.b21 f.n16 f.n12 f.n0)
  else if f.op o o o x x i x o && f.mid i i i i && a.hasFullE then
      .instr (.strdImm c f.b24 f.b23 f.b21 f.n16 f.n12 f.n8 f.n0)
  else if f.op o o o x x o x o && f.mid i i i i && a.hasFullE then
      shouldBe (f.n8 == 0#4) (.strdReg c f.b24 f.b23 f.b21 f.n16 f.n12 f.n0)
  else .undefined

open Pat in
/-- bits[27:25] = 001: data processing, immediate, and MSR immediate (R103, R104, R107). -/
def decodeDpImm (_ : Arch) (_ : Bool) (c : Cond) (f : ArmWord) : Decoded :=
  if f.op o o i i o o o i then shouldBe (f.n12 == 0#4) (.tstImm c f.n16 f.n8 (bit4 f.b7 f.b6 f.b5 f.b4 ++ f.n0))
  else if f.op o o i i o o i i then
      shouldBe (f.n12 == 0#4) (.teqImm c f.n16 f.n8 (bit4 f.b7 f.b6 f.b5 f.b4 ++ f.n0))
  else if f.op o o i i o i o i then
      shouldBe (f.n12 == 0#4) (.cmpImm c f.n16 f.n8 (bit4 f.b7 f.b6 f.b5 f.b4 ++ f.n0))
  else if f.op o o i i o i i i then
      shouldBe (f.n12 == 0#4) (.cmnImm c f.n16 f.n8 (bit4 f.b7 f.b6 f.b5 f.b4 ++ f.n0))
  else if f.op o o i o o o o x then .instr (.andImm c f.b20 f.n16 f.n12 f.n8 (bit4 f.b7 f.b6 f.b5 f.b4 ++ f.n0))
  else if f.op o o i o o o i x then .instr (.eorImm c f.b20 f.n16 f.n12 f.n8 (bit4 f.b7 f.b6 f.b5 f.b4 ++ f.n0))
  else if f.op o o i o o i o x then .instr (.subImm c f.b20 f.n16 f.n12 f.n8 (bit4 f.b7 f.b6 f.b5 f.b4 ++ f.n0))
  else if f.op o o i o o i i x then .instr (.rsbImm c f.b20 f.n16 f.n12 f.n8 (bit4 f.b7 f.b6 f.b5 f.b4 ++ f.n0))
  else if f.op o o i o i o o x then .instr (.addImm c f.b20 f.n16 f.n12 f.n8 (bit4 f.b7 f.b6 f.b5 f.b4 ++ f.n0))
  else if f.op o o i o i o i x then .instr (.adcImm c f.b20 f.n16 f.n12 f.n8 (bit4 f.b7 f.b6 f.b5 f.b4 ++ f.n0))
  else if f.op o o i o i i o x then .instr (.sbcImm c f.b20 f.n16 f.n12 f.n8 (bit4 f.b7 f.b6 f.b5 f.b4 ++ f.n0))
  else if f.op o o i o i i i x then .instr (.rscImm c f.b20 f.n16 f.n12 f.n8 (bit4 f.b7 f.b6 f.b5 f.b4 ++ f.n0))
  else if f.op o o i i i o o x then .instr (.orrImm c f.b20 f.n16 f.n12 f.n8 (bit4 f.b7 f.b6 f.b5 f.b4 ++ f.n0))
  else if f.op o o i i i o i x then
      shouldBe (f.n16 == 0#4) (.movImm c f.b20 f.n12 f.n8 (bit4 f.b7 f.b6 f.b5 f.b4 ++ f.n0))
  else if f.op o o i i i i o x then .instr (.bicImm c f.b20 f.n16 f.n12 f.n8 (bit4 f.b7 f.b6 f.b5 f.b4 ++ f.n0))
  else if f.op o o i i i i i x then
      shouldBe (f.n16 == 0#4) (.mvnImm c f.b20 f.n12 f.n8 (bit4 f.b7 f.b6 f.b5 f.b4 ++ f.n0))
  else if f.op o o i i o x i o then
      shouldBe (f.n12 == 15#4) (.msrImm c f.b22 f.n16 f.n8 (bit4 f.b7 f.b6 f.b5 f.b4 ++ f.n0))
  else .undefined

open Pat in
/-- bits[27:25] = 010: word and byte transfers, immediate offset (R108). -/
def decodeLsImm (_ : Arch) (_ : Bool) (c : Cond) (f : ArmWord) : Decoded :=
  if f.op o i o o x o i i then .instr (.ldrtImm c f.b23 f.n16 f.n12 (f.n8 ++ bit4 f.b7 f.b6 f.b5 f.b4 ++ f.n0))
  else if f.op o i o o x o i o then
      .instr (.strtImm c f.b23 f.n16 f.n12 (f.n8 ++ bit4 f.b7 f.b6 f.b5 f.b4 ++ f.n0))
  else if f.op o i o o x i i i then
      .instr (.ldrbtImm c f.b23 f.n16 f.n12 (f.n8 ++ bit4 f.b7 f.b6 f.b5 f.b4 ++ f.n0))
  else if f.op o i o o x i i o then
      .instr (.strbtImm c f.b23 f.n16 f.n12 (f.n8 ++ bit4 f.b7 f.b6 f.b5 f.b4 ++ f.n0))
  else if f.op o i o x x o x i then
      .instr (.ldrImm c f.b24 f.b23 f.b21 f.n16 f.n12 (f.n8 ++ bit4 f.b7 f.b6 f.b5 f.b4 ++ f.n0))
  else if f.op o i o x x o x o then
      .instr (.strImm c f.b24 f.b23 f.b21 f.n16 f.n12 (f.n8 ++ bit4 f.b7 f.b6 f.b5 f.b4 ++ f.n0))
  else if f.op o i o x x i x i then
      .instr (.ldrbImm c f.b24 f.b23 f.b21 f.n16 f.n12 (f.n8 ++ bit4 f.b7 f.b6 f.b5 f.b4 ++ f.n0))
  else if f.op o i o x x i x o then
      .instr (.strbImm c f.b24 f.b23 f.b21 f.n16 f.n12 (f.n8 ++ bit4 f.b7 f.b6 f.b5 f.b4 ++ f.n0))
  else .undefined

open Pat in
/-- bits[27:25] = 011: word and byte transfers, register offset (R108). -/
def decodeLsReg (_ : Arch) (_ : Bool) (c : Cond) (f : ArmWord) : Decoded :=
  if f.op o i i o x o i i && f.mid x x x o then
      .instr (.ldrtReg c f.b23 f.n16 f.n12 (f.n8 ++ bit1 f.b7) (ShiftType.ofBits f.b6 f.b5) f.n0)
  else if f.op o i i o x o i o && f.mid x x x o then
      .instr (.strtReg c f.b23 f.n16 f.n12 (f.n8 ++ bit1 f.b7) (ShiftType.ofBits f.b6 f.b5) f.n0)
  else if f.op o i i o x i i i && f.mid x x x o then
      .instr (.ldrbtReg c f.b23 f.n16 f.n12 (f.n8 ++ bit1 f.b7) (ShiftType.ofBits f.b6 f.b5) f.n0)
  else if f.op o i i o x i i o && f.mid x x x o then
      .instr (.strbtReg c f.b23 f.n16 f.n12 (f.n8 ++ bit1 f.b7) (ShiftType.ofBits f.b6 f.b5) f.n0)
  else if f.op o i i x x o x i && f.mid x x x o then
      .instr (.ldrReg c f.b24 f.b23 f.b21 f.n16 f.n12 (f.n8 ++ bit1 f.b7) (ShiftType.ofBits f.b6 f.b5) f.n0)
  else if f.op o i i x x o x o && f.mid x x x o then
      .instr (.strReg c f.b24 f.b23 f.b21 f.n16 f.n12 (f.n8 ++ bit1 f.b7) (ShiftType.ofBits f.b6 f.b5) f.n0)
  else if f.op o i i x x i x i && f.mid x x x o then
      .instr (.ldrbReg c f.b24 f.b23 f.b21 f.n16 f.n12 (f.n8 ++ bit1 f.b7) (ShiftType.ofBits f.b6 f.b5) f.n0)
  else if f.op o i i x x i x o && f.mid x x x o then
      .instr (.strbReg c f.b24 f.b23 f.b21 f.n16 f.n12 (f.n8 ++ bit1 f.b7) (ShiftType.ofBits f.b6 f.b5) f.n0)
  else .undefined

open Pat in
/-- bits[27:25] = 100: load and store multiple (R110). -/
def decodeMultiple (_ : Arch) (_ : Bool) (c : Cond) (f : ArmWord) : Decoded :=
  if f.op i o o x x i x i && !f.n12.getLsbD 3 then
      .instr (.ldmUser c f.b24 f.b23 f.b21 f.n16 (bit3 (f.n12.getLsbD 2) (f.n12.getLsbD 1) (f.n12.getLsbD 0) ++
      f.n8 ++ bit4 f.b7 f.b6 f.b5 f.b4 ++ f.n0))
  else if f.op i o o x x i x i && f.n12.getLsbD 3 then
      .instr (.ldmReturn c f.b24 f.b23 f.b21 f.n16 (bit3 (f.n12.getLsbD 2) (f.n12.getLsbD 1) (f.n12.getLsbD 0)
      ++ f.n8 ++ bit4 f.b7 f.b6 f.b5 f.b4 ++ f.n0))
  else if f.op i o o x x o x i then
      .instr (.ldm c f.b24 f.b23 f.b21 f.n16 (f.n12 ++ f.n8 ++ bit4 f.b7 f.b6 f.b5 f.b4 ++ f.n0))
  else if f.op i o o x x o x o then
      .instr (.stm c f.b24 f.b23 f.b21 f.n16 (f.n12 ++ f.n8 ++ bit4 f.b7 f.b6 f.b5 f.b4 ++ f.n0))
  else if f.op i o o x x i x o then
      .instr (.stmUser c f.b24 f.b23 f.b21 f.n16 (f.n12 ++ f.n8 ++ bit4 f.b7 f.b6 f.b5 f.b4 ++ f.n0))
  else .undefined

open Pat in
/-- bits[27:25] = 101: B and BL (R112). -/
def decodeBranch (_ : Arch) (_ : Bool) (c : Cond) (f : ArmWord) : Decoded :=
  if f.op i o i o x x x x then
      .instr (.b c (bit4 f.b23 f.b22 f.b21 f.b20 ++ f.n16 ++ f.n12 ++ f.n8 ++ bit4 f.b7 f.b6 f.b5 f.b4 ++ f.n0))
  else if f.op i o i i x x x x then
      .instr (.bl c (bit4 f.b23 f.b22 f.b21 f.b20 ++ f.n16 ++ f.n12 ++ f.n8 ++ bit4 f.b7 f.b6 f.b5 f.b4 ++
      f.n0))
  else .undefined

open Pat in
/-- bits[27:25] = 110: VFP loads and stores, MAR, MRA, MCRR, MRRC, LDC, STC (R114, R116, R143, R144). -/
def decodeCoprocTransfer (a : Arch) (en : Bool) (c : Cond) (f : ArmWord) : Decoded :=
  if f.op i i o o o i o o && f.n8 == 0#4 && a.xscale then
      shouldBe (f.mid o o o o && f.n0 == 0#4) (.mar c f.n16 f.n12)
  else if f.op i i o o o i o i && f.n8 == 0#4 && a.xscale then
      shouldBe (f.mid o o o o && f.n0 == 0#4) (.mra c f.n16 f.n12)
  else if f.op i i o i o x i i && f.n8 == 11#4 && !f.n0.getLsbD 0 && en then
      shouldBe (f.op x x x x x o x x) (.fldmdbd c f.n16 f.n12 (bit4 f.b7 f.b6 f.b5 f.b4 ++ bit3 (f.n0.getLsbD
      3) (f.n0.getLsbD 2) (f.n0.getLsbD 1)))
  else if f.op i i o i o x i i && f.n8 == 11#4 && f.n0.getLsbD 0 && en then
      shouldBe (f.op x x x x x o x x) (.fldmdbx c f.n16 f.n12 (bit4 f.b7 f.b6 f.b5 f.b4 ++ bit3 (f.n0.getLsbD
      3) (f.n0.getLsbD 2) (f.n0.getLsbD 1)))
  else if f.op i i o i o x i o && f.n8 == 11#4 && !f.n0.getLsbD 0 && en then
      shouldBe (f.op x x x x x o x x) (.fstmdbd c f.n16 f.n12 (bit4 f.b7 f.b6 f.b5 f.b4 ++ bit3 (f.n0.getLsbD
      3) (f.n0.getLsbD 2) (f.n0.getLsbD 1)))
  else if f.op i i o i o x i o && f.n8 == 11#4 && f.n0.getLsbD 0 && en then
      shouldBe (f.op x x x x x o x x) (.fstmdbx c f.n16 f.n12 (bit4 f.b7 f.b6 f.b5 f.b4 ++ bit3 (f.n0.getLsbD
      3) (f.n0.getLsbD 2) (f.n0.getLsbD 1)))
  else if f.op i i o o i x x i && f.n8 == 11#4 && !f.n0.getLsbD 0 && en then
      shouldBe (f.op x x x x x o x x) (.fldmiad c f.b21 f.n16 f.n12 (bit4 f.b7 f.b6 f.b5 f.b4 ++ bit3
      (f.n0.getLsbD 3) (f.n0.getLsbD 2) (f.n0.getLsbD 1)))
  else if f.op i i o o i x x i && f.n8 == 11#4 && f.n0.getLsbD 0 && en then
      shouldBe (f.op x x x x x o x x) (.fldmiax c f.b21 f.n16 f.n12 (bit4 f.b7 f.b6 f.b5 f.b4 ++ bit3
      (f.n0.getLsbD 3) (f.n0.getLsbD 2) (f.n0.getLsbD 1)))
  else if f.op i i o i o x i i && f.n8 == 10#4 && en then
      .instr (.fldmdbs c f.n16 (f.n12 ++ bit1 f.b22) (bit4 f.b7 f.b6 f.b5 f.b4 ++ f.n0))
  else if f.op i i o o i x x o && f.n8 == 11#4 && !f.n0.getLsbD 0 && en then
      shouldBe (f.op x x x x x o x x) (.fstmiad c f.b21 f.n16 f.n12 (bit4 f.b7 f.b6 f.b5 f.b4 ++ bit3
      (f.n0.getLsbD 3) (f.n0.getLsbD 2) (f.n0.getLsbD 1)))
  else if f.op i i o o i x x o && f.n8 == 11#4 && f.n0.getLsbD 0 && en then
      shouldBe (f.op x x x x x o x x) (.fstmiax c f.b21 f.n16 f.n12 (bit4 f.b7 f.b6 f.b5 f.b4 ++ bit3
      (f.n0.getLsbD 3) (f.n0.getLsbD 2) (f.n0.getLsbD 1)))
  else if f.op i i o i o x i o && f.n8 == 10#4 && en then
      .instr (.fstmdbs c f.n16 (f.n12 ++ bit1 f.b22) (bit4 f.b7 f.b6 f.b5 f.b4 ++ f.n0))
  else if f.op i i o i x x o i && f.n8 == 10#4 && en then
      .instr (.flds c f.b23 f.n16 (f.n12 ++ bit1 f.b22) (bit4 f.b7 f.b6 f.b5 f.b4 ++ f.n0))
  else if f.op i i o i x x o i && f.n8 == 11#4 && en then
      shouldBe (f.op x x x x x o x x) (.fldd c f.b23 f.n16 f.n12 (bit4 f.b7 f.b6 f.b5 f.b4 ++ f.n0))
  else if f.op i i o i x x o o && f.n8 == 10#4 && en then
      .instr (.fsts c f.b23 f.n16 (f.n12 ++ bit1 f.b22) (bit4 f.b7 f.b6 f.b5 f.b4 ++ f.n0))
  else if f.op i i o i x x o o && f.n8 == 11#4 && en then
      shouldBe (f.op x x x x x o x x) (.fstd c f.b23 f.n16 f.n12 (bit4 f.b7 f.b6 f.b5 f.b4 ++ f.n0))
  else if f.op i i o o i x x i && f.n8 == 10#4 && en then
      .instr (.fldmias c f.b21 f.n16 (f.n12 ++ bit1 f.b22) (bit4 f.b7 f.b6 f.b5 f.b4 ++ f.n0))
  else if f.op i i o o i x x o && f.n8 == 10#4 && en then
      .instr (.fstmias c f.b21 f.n16 (f.n12 ++ bit1 f.b22) (bit4 f.b7 f.b6 f.b5 f.b4 ++ f.n0))
  else if f.op i i o o o i o o && a.hasFullE then
      .instr (.mcrr c f.n16 f.n12 f.n8 (bit4 f.b7 f.b6 f.b5 f.b4) f.n0)
  else if f.op i i o o o i o i && a.hasFullE then
      .instr (.mrrc c f.n16 f.n12 f.n8 (bit4 f.b7 f.b6 f.b5 f.b4) f.n0)
  else if f.op i i o o x x i i then
      .instr (.ldcPost c f.b23 f.b22 f.n16 f.n12 f.n8 (bit4 f.b7 f.b6 f.b5 f.b4 ++ f.n0))
  else if f.op i i o o x x i o then
      .instr (.stcPost c f.b23 f.b22 f.n16 f.n12 f.n8 (bit4 f.b7 f.b6 f.b5 f.b4 ++ f.n0))
  else if f.op i i o i x x x i then
      .instr (.ldcPre c f.b23 f.b22 f.b21 f.n16 f.n12 f.n8 (bit4 f.b7 f.b6 f.b5 f.b4 ++ f.n0))
  else if f.op i i o i x x x o then
      .instr (.stcPre c f.b23 f.b22 f.b21 f.n16 f.n12 f.n8 (bit4 f.b7 f.b6 f.b5 f.b4 ++ f.n0))
  else .undefined

open Pat in
/-- bits[27:25] = 111: VFP data processing and transfers, MIA, CDP, MCR, MRC, SWI (R113, R114, R116, R141 to R146). -/
def decodeCoprocOp (a : Arch) (en : Bool) (c : Cond) (f : ArmWord) : Decoded :=
  if f.op i i i o i i i i && f.mid x x x i && f.n16 == 1#4 && f.n12 == 15#4 && f.n8 == 10#4 && en then
      shouldBe (f.mid o o o x && f.n0 == 0#4) (.fmstat c)
  else if f.op i i i o i x i i && f.mid o i x o && f.n16 == 0#4 && f.n8 == 10#4 && en then
      .instr (.fcpys c (f.n12 ++ bit1 f.b22) (f.n0 ++ bit1 f.b5))
  else if f.op i i i o i x i i && f.mid o i x o && f.n16 == 0#4 && f.n8 == 11#4 && en then
      shouldBe (f.op x x x x x o x x && f.mid x x o x) (.fcpyd c f.n12 f.n0)
  else if f.op i i i o i x i i && f.mid i i x o && f.n16 == 0#4 && f.n8 == 10#4 && en then
      .instr (.fabss c (f.n12 ++ bit1 f.b22) (f.n0 ++ bit1 f.b5))
  else if f.op i i i o i x i i && f.mid i i x o && f.n16 == 0#4 && f.n8 == 11#4 && en then
      shouldBe (f.op x x x x x o x x && f.mid x x o x) (.fabsd c f.n12 f.n0)
  else if f.op i i i o i x i i && f.mid o i x o && f.n16 == 1#4 && f.n8 == 10#4 && en then
      .instr (.fnegs c (f.n12 ++ bit1 f.b22) (f.n0 ++ bit1 f.b5))
  else if f.op i i i o i x i i && f.mid o i x o && f.n16 == 1#4 && f.n8 == 11#4 && en then
      shouldBe (f.op x x x x x o x x && f.mid x x o x) (.fnegd c f.n12 f.n0)
  else if f.op i i i o i x i i && f.mid i i x o && f.n16 == 1#4 && f.n8 == 10#4 && en then
      .instr (.fsqrts c (f.n12 ++ bit1 f.b22) (f.n0 ++ bit1 f.b5))
  else if f.op i i i o i x i i && f.mid i i x o && f.n16 == 1#4 && f.n8 == 11#4 && en then
      shouldBe (f.op x x x x x o x x && f.mid x x o x) (.fsqrtd c f.n12 f.n0)
  else if f.op i i i o i x i i && f.mid o i x o && f.n16 == 4#4 && f.n8 == 10#4 && en then
      .instr (.fcmps c (f.n12 ++ bit1 f.b22) (f.n0 ++ bit1 f.b5))
  else if f.op i i i o i x i i && f.mid o i x o && f.n16 == 4#4 && f.n8 == 11#4 && en then
      shouldBe (f.op x x x x x o x x && f.mid x x o x) (.fcmpd c f.n12 f.n0)
  else if f.op i i i o i x i i && f.mid i i x o && f.n16 == 4#4 && f.n8 == 10#4 && en then
      .instr (.fcmpes c (f.n12 ++ bit1 f.b22) (f.n0 ++ bit1 f.b5))
  else if f.op i i i o i x i i && f.mid i i x o && f.n16 == 4#4 && f.n8 == 11#4 && en then
      shouldBe (f.op x x x x x o x x && f.mid x x o x) (.fcmped c f.n12 f.n0)
  else if f.op i i i o i x i i && f.mid o i x o && f.n16 == 5#4 && f.n8 == 10#4 && en then
      shouldBe (f.mid x x o x && f.n0 == 0#4) (.fcmpzs c (f.n12 ++ bit1 f.b22))
  else if f.op i i i o i x i i && f.mid o i x o && f.n16 == 5#4 && f.n8 == 11#4 && en then
      shouldBe (f.op x x x x x o x x && f.mid x x o x && f.n0 == 0#4) (.fcmpzd c f.n12)
  else if f.op i i i o i x i i && f.mid i i x o && f.n16 == 5#4 && f.n8 == 10#4 && en then
      shouldBe (f.mid x x o x && f.n0 == 0#4) (.fcmpezs c (f.n12 ++ bit1 f.b22))
  else if f.op i i i o i x i i && f.mid i i x o && f.n16 == 5#4 && f.n8 == 11#4 && en then
      shouldBe (f.op x x x x x o x x && f.mid x x o x && f.n0 == 0#4) (.fcmpezd c f.n12)
  else if f.op i i i o i x i i && f.mid i i x o && f.n16 == 7#4 && f.n8 == 10#4 && en then
      shouldBe (f.op x x x x x o x x) (.fcvtds c f.n12 (f.n0 ++ bit1 f.b5))
  else if f.op i i i o i x i i && f.mid i i x o && f.n16 == 7#4 && f.n8 == 11#4 && en then
      shouldBe (f.mid x x o x) (.fcvtsd c (f.n12 ++ bit1 f.b22) f.n0)
  else if f.op i i i o i x i i && f.mid o i x o && f.n16 == 8#4 && f.n8 == 10#4 && en then
      .instr (.fuitos c (f.n12 ++ bit1 f.b22) (f.n0 ++ bit1 f.b5))
  else if f.op i i i o i x i i && f.mid o i x o && f.n16 == 8#4 && f.n8 == 11#4 && en then
      shouldBe (f.op x x x x x o x x) (.fuitod c f.n12 (f.n0 ++ bit1 f.b5))
  else if f.op i i i o i x i i && f.mid i i x o && f.n16 == 8#4 && f.n8 == 10#4 && en then
      .instr (.fsitos c (f.n12 ++ bit1 f.b22) (f.n0 ++ bit1 f.b5))
  else if f.op i i i o i x i i && f.mid i i x o && f.n16 == 8#4 && f.n8 == 11#4 && en then
      shouldBe (f.op x x x x x o x x) (.fsitod c f.n12 (f.n0 ++ bit1 f.b5))
  else if f.op i i i o i x i i && f.mid o i x o && f.n16 == 12#4 && f.n8 == 10#4 && en then
      .instr (.ftouis c (f.n12 ++ bit1 f.b22) (f.n0 ++ bit1 f.b5))
  else if f.op i i i o i x i i && f.mid o i x o && f.n16 == 12#4 && f.n8 == 11#4 && en then
      shouldBe (f.mid x x o x) (.ftouid c (f.n12 ++ bit1 f.b22) f.n0)
  else if f.op i i i o i x i i && f.mid i i x o && f.n16 == 12#4 && f.n8 == 10#4 && en then
      .instr (.ftouizs c (f.n12 ++ bit1 f.b22) (f.n0 ++ bit1 f.b5))
  else if f.op i i i o i x i i && f.mid i i x o && f.n16 == 12#4 && f.n8 == 11#4 && en then
      shouldBe (f.mid x x o x) (.ftouizd c (f.n12 ++ bit1 f.b22) f.n0)
  else if f.op i i i o i x i i && f.mid o i x o && f.n16 == 13#4 && f.n8 == 10#4 && en then
      .instr (.ftosis c (f.n12 ++ bit1 f.b22) (f.n0 ++ bit1 f.b5))
  else if f.op i i i o i x i i && f.mid o i x o && f.n16 == 13#4 && f.n8 == 11#4 && en then
      shouldBe (f.mid x x o x) (.ftosid c (f.n12 ++ bit1 f.b22) f.n0)
  else if f.op i i i o i x i i && f.mid i i x o && f.n16 == 13#4 && f.n8 == 10#4 && en then
      .instr (.ftosizs c (f.n12 ++ bit1 f.b22) (f.n0 ++ bit1 f.b5))
  else if f.op i i i o i x i i && f.mid i i x o && f.n16 == 13#4 && f.n8 == 11#4 && en then
      shouldBe (f.mid x x o x) (.ftosizd c (f.n12 ++ bit1 f.b22) f.n0)
  else if f.op i i i o o o i o && f.mid x x x i && f.n16 == 0#4 && f.n8 == 0#4 && a.xscale then
      shouldBe (f.mid o o o x) (.mia c f.n12 f.n0)
  else if f.op i i i o o o i o && f.mid x x x i && f.n16 == 8#4 && f.n8 == 0#4 && a.xscale then
      shouldBe (f.mid o o o x) (.miaph c f.n12 f.n0)
  else if f.op i i i o o o i o && f.mid x x x i && f.n16.getLsbD 3 && f.n16.getLsbD 2 && f.n8 == 0#4 &&
      a.xscale then shouldBe (f.mid o o o x) (.miaXY c (f.n16.getLsbD 1) (f.n16.getLsbD 0) f.n12 f.n0)
  else if f.op i i i o o x o o && f.mid x o x o && f.n8 == 10#4 && en then
      .instr (.fmacs c (f.n16 ++ bit1 f.b7) (f.n12 ++ bit1 f.b22) (f.n0 ++ bit1 f.b5))
  else if f.op i i i o o x o o && f.mid x o x o && f.n8 == 11#4 && en then
      shouldBe (f.op x x x x x o x x && f.mid o x o x) (.fmacd c f.n16 f.n12 f.n0)
  else if f.op i i i o o x o o && f.mid x i x o && f.n8 == 10#4 && en then
      .instr (.fnmacs c (f.n16 ++ bit1 f.b7) (f.n12 ++ bit1 f.b22) (f.n0 ++ bit1 f.b5))
  else if f.op i i i o o x o o && f.mid x i x o && f.n8 == 11#4 && en then
      shouldBe (f.op x x x x x o x x && f.mid o x o x) (.fnmacd c f.n16 f.n12 f.n0)
  else if f.op i i i o o x o i && f.mid x o x o && f.n8 == 10#4 && en then
      .instr (.fmscs c (f.n16 ++ bit1 f.b7) (f.n12 ++ bit1 f.b22) (f.n0 ++ bit1 f.b5))
  else if f.op i i i o o x o i && f.mid x o x o && f.n8 == 11#4 && en then
      shouldBe (f.op x x x x x o x x && f.mid o x o x) (.fmscd c f.n16 f.n12 f.n0)
  else if f.op i i i o o x o i && f.mid x i x o && f.n8 == 10#4 && en then
      .instr (.fnmscs c (f.n16 ++ bit1 f.b7) (f.n12 ++ bit1 f.b22) (f.n0 ++ bit1 f.b5))
  else if f.op i i i o o x o i && f.mid x i x o && f.n8 == 11#4 && en then
      shouldBe (f.op x x x x x o x x && f.mid o x o x) (.fnmscd c f.n16 f.n12 f.n0)
  else if f.op i i i o o x i o && f.mid x o x o && f.n8 == 10#4 && en then
      .instr (.fmuls c (f.n16 ++ bit1 f.b7) (f.n12 ++ bit1 f.b22) (f.n0 ++ bit1 f.b5))
  else if f.op i i i o o x i o && f.mid x o x o && f.n8 == 11#4 && en then
      shouldBe (f.op x x x x x o x x && f.mid o x o x) (.fmuld c f.n16 f.n12 f.n0)
  else if f.op i i i o o x i o && f.mid x i x o && f.n8 == 10#4 && en then
      .instr (.fnmuls c (f.n16 ++ bit1 f.b7) (f.n12 ++ bit1 f.b22) (f.n0 ++ bit1 f.b5))
  else if f.op i i i o o x i o && f.mid x i x o && f.n8 == 11#4 && en then
      shouldBe (f.op x x x x x o x x && f.mid o x o x) (.fnmuld c f.n16 f.n12 f.n0)
  else if f.op i i i o o x i i && f.mid x o x o && f.n8 == 10#4 && en then
      .instr (.fadds c (f.n16 ++ bit1 f.b7) (f.n12 ++ bit1 f.b22) (f.n0 ++ bit1 f.b5))
  else if f.op i i i o o x i i && f.mid x o x o && f.n8 == 11#4 && en then
      shouldBe (f.op x x x x x o x x && f.mid o x o x) (.faddd c f.n16 f.n12 f.n0)
  else if f.op i i i o o x i i && f.mid x i x o && f.n8 == 10#4 && en then
      .instr (.fsubs c (f.n16 ++ bit1 f.b7) (f.n12 ++ bit1 f.b22) (f.n0 ++ bit1 f.b5))
  else if f.op i i i o o x i i && f.mid x i x o && f.n8 == 11#4 && en then
      shouldBe (f.op x x x x x o x x && f.mid o x o x) (.fsubd c f.n16 f.n12 f.n0)
  else if f.op i i i o i x o o && f.mid x o x o && f.n8 == 10#4 && en then
      .instr (.fdivs c (f.n16 ++ bit1 f.b7) (f.n12 ++ bit1 f.b22) (f.n0 ++ bit1 f.b5))
  else if f.op i i i o i x o o && f.mid x o x o && f.n8 == 11#4 && en then
      shouldBe (f.op x x x x x o x x && f.mid o x o x) (.fdivd c f.n16 f.n12 f.n0)
  else if f.op i i i o o o o o && f.mid x x x i && f.n8 == 10#4 && en then
      shouldBe (f.mid x o o x && f.n0 == 0#4) (.fmsr c (f.n16 ++ bit1 f.b7) f.n12)
  else if f.op i i i o o o o i && f.mid x x x i && f.n8 == 10#4 && en then
      shouldBe (f.mid x o o x && f.n0 == 0#4) (.fmrs c (f.n16 ++ bit1 f.b7) f.n12)
  else if f.op i i i o o o o o && f.mid x x x i && f.n8 == 11#4 && en then
      shouldBe (f.mid o o o x && f.n0 == 0#4) (.fmdlr c f.n16 f.n12)
  else if f.op i i i o o o o i && f.mid x x x i && f.n8 == 11#4 && en then
      shouldBe (f.mid o o o x && f.n0 == 0#4) (.fmrdl c f.n16 f.n12)
  else if f.op i i i o o o i o && f.mid x x x i && f.n8 == 11#4 && en then
      shouldBe (f.mid o o o x && f.n0 == 0#4) (.fmdhr c f.n16 f.n12)
  else if f.op i i i o o o i i && f.mid x x x i && f.n8 == 11#4 && en then
      shouldBe (f.mid o o o x && f.n0 == 0#4) (.fmrdh c f.n16 f.n12)
  else if f.op i i i o i i i o && f.mid x x x i && f.n8 == 10#4 && a.hasFpu && (en || f.n16 == 0#4 || f.n16 ==
      8#4) then shouldBe (f.mid o o o x && f.n0 == 0#4) (.fmxr c f.n16 f.n12)
  else if f.op i i i o i i i i && f.mid x x x i && f.n8 == 10#4 && a.hasFpu && (en || f.n16 == 0#4 || f.n16 ==
      8#4) then shouldBe (f.mid o o o x && f.n0 == 0#4) (.fmrx c f.n16 f.n12)
  else if f.op i i i o x x x o && f.mid x x x i then
      .instr (.mcr c (bit3 f.b23 f.b22 f.b21) f.n16 f.n12 f.n8 (bit3 f.b7 f.b6 f.b5) f.n0)
  else if f.op i i i o x x x i && f.mid x x x i then
      .instr (.mrc c (bit3 f.b23 f.b22 f.b21) f.n16 f.n12 f.n8 (bit3 f.b7 f.b6 f.b5) f.n0)
  else if f.op i i i o x x x x && f.mid x x x o then
      .instr (.cdp c (bit4 f.b23 f.b22 f.b21 f.b20) f.n16 f.n12 f.n8 (bit3 f.b7 f.b6 f.b5) f.n0)
  else if f.op i i i i x x x x then
      .instr (.swi c (bit4 f.b23 f.b22 f.b21 f.b20 ++ f.n16 ++ f.n12 ++ f.n8 ++ bit4 f.b7 f.b6 f.b5 f.b4 ++
      f.n0))
  else .undefined

/-- Decode an ARM word that has been taken apart; `en` says that an FPU exists and FPEXC.EN is 1. -/
def decodeArmWord (a : Arch) (en : Bool) (f : ArmWord) : Decoded :=
  match Cond.ofBits f.cond with
  | none => decodeUncond a f
  | some c =>
    match f.b27, f.b26, f.b25 with
    | false, false, false =>
      if f.b7 && f.b4 then
        if f.b6 || f.b5 then decodeExtra a en c f else decodeMulSwap a en c f
      else if f.b24 && !f.b23 && !f.b20 then decodeMisc a en c f
      else if f.b4 then decodeDpRegShift a en c f
      else decodeDpImmShift a en c f
    | false, false, true => decodeDpImm a en c f
    | false, true, false => decodeLsImm a en c f
    | false, true, true => decodeLsReg a en c f
    | true, false, false => decodeMultiple a en c f
    | true, false, true => decodeBranch a en c f
    | true, true, false => decodeCoprocTransfer a en c f
    | true, true, true => decodeCoprocOp a en c f

/-- Decode a word fetched in ARM state (R100): total, and every refusal has its name. -/
def decodeArm (a : Arch) (en : Bool) (w : Word) : Decoded := decodeArmWord a en (ArmWord.ofWord w)

/-! The Thumb constructors come after the 244th of `Instr`, and the compiler makes no code that builds such a
constructor. The definitions that build one are marked `noncomputable`: the kernel evaluates them all the same, and
they have ordinary bodies (notes/assumptions/1). -/

noncomputable section

open Pat in
/-- bits[15:13] = 000: shifts by immediate, ADD and SUB (R121, R122). -/
def decodeThumb000 (a : Arch) (f : ThumbWord) : Decoded :=
  if f.top o o o i i o o x x x && a.thumb then .instr (.tAddReg3 (bit3 f.b8 f.b7 f.b6) f.m3 f.l3)
  else if f.top o o o i i o i x x x && a.thumb then .instr (.tSubReg3 (bit3 f.b8 f.b7 f.b6) f.m3 f.l3)
  else if f.top o o o i i i o x x x && a.thumb then .instr (.tAddImm3 (bit3 f.b8 f.b7 f.b6) f.m3 f.l3)
  else if f.top o o o i i i i x x x && a.thumb then .instr (.tSubImm3 (bit3 f.b8 f.b7 f.b6) f.m3 f.l3)
  else if f.top o o o o o x x x x x && a.thumb then
      .instr (.tLslImm (bit4 f.b10 f.b9 f.b8 f.b7 ++ bit1 f.b6) f.m3 f.l3)
  else if f.top o o o o i x x x x x && a.thumb then
      .instr (.tLsrImm (bit4 f.b10 f.b9 f.b8 f.b7 ++ bit1 f.b6) f.m3 f.l3)
  else if f.top o o o i o x x x x x && a.thumb then
      .instr (.tAsrImm (bit4 f.b10 f.b9 f.b8 f.b7 ++ bit1 f.b6) f.m3 f.l3)
  else .undefined

open Pat in
/-- bits[15:13] = 001: MOV, CMP, ADD, SUB with an 8-bit immediate (R123). -/
def decodeThumb001 (a : Arch) (f : ThumbWord) : Decoded :=
  if f.top o o i o o x x x x x && a.thumb then
      .instr (.tMovImm8 (bit3 f.b10 f.b9 f.b8) (bit2 f.b7 f.b6 ++ f.m3 ++ f.l3))
  else if f.top o o i o i x x x x x && a.thumb then
      .instr (.tCmpImm8 (bit3 f.b10 f.b9 f.b8) (bit2 f.b7 f.b6 ++ f.m3 ++ f.l3))
  else if f.top o o i i o x x x x x && a.thumb then
      .instr (.tAddImm8 (bit3 f.b10 f.b9 f.b8) (bit2 f.b7 f.b6 ++ f.m3 ++ f.l3))
  else if f.top o o i i i x x x x x && a.thumb then
      .instr (.tSubImm8 (bit3 f.b10 f.b9 f.b8) (bit2 f.b7 f.b6 ++ f.m3 ++ f.l3))
  else .undefined

open Pat in
/-- bits[15:13] = 010: ALU operations, high registers, LDR pc-relative, register offsets (R124 to R127). -/
def decodeThumb010 (a : Arch) (f : ThumbWord) : Decoded :=
  if f.top o i o o o o o o o o && a.thumb then .instr (.tAnd f.m3 f.l3)
  else if f.top o i o o o o o o o i && a.thumb then .instr (.tEor f.m3 f.l3)
  else if f.top o i o o o o o o i o && a.thumb then .instr (.tLslReg f.m3 f.l3)
  else if f.top o i o o o o o o i i && a.thumb then .instr (.tLsrReg f.m3 f.l3)
  else if f.top o i o o o o o i o o && a.thumb then .instr (.tAsrReg f.m3 f.l3)
  else if f.top o i o o o o o i o i && a.thumb then .instr (.tAdc f.m3 f.l3)
  else if f.top o i o o o o o i i o && a.thumb then .instr (.tSbc f.m3 f.l3)
  else if f.top o i o o o o o i i i && a.thumb then .instr (.tRor f.m3 f.l3)
  else if f.top o i o o o o i o o o && a.thumb then .instr (.tTst f.m3 f.l3)
  else if f.top o i o o o o i o o i && a.thumb then .instr (.tNeg f.m3 f.l3)
  else if f.top o i o o o o i o i o && a.thumb then .instr (.tCmpLow f.m3 f.l3)
  else if f.top o i o o o o i o i i && a.thumb then .instr (.tCmn f.m3 f.l3)
  else if f.top o i o o o o i i o o && a.thumb then .instr (.tOrr f.m3 f.l3)
  else if f.top o i o o o o i i o i && a.thumb then .instr (.tMul f.m3 f.l3)
  else if f.top o i o o o o i i i o && a.thumb then .instr (.tBic f.m3 f.l3)
  else if f.top o i o o o o i i i i && a.thumb then .instr (.tMvn f.m3 f.l3)
  else if f.top o i o o o i i i o x && a.thumb then
      shouldBe (!f.l3.getLsbD 2 && !f.l3.getLsbD 1 && !f.l3.getLsbD 0) (.tBx f.b6 f.m3)
  else if f.top o i o o o i i i i x && a.hasT5 then
      shouldBe (!f.l3.getLsbD 2 && !f.l3.getLsbD 1 && !f.l3.getLsbD 0) (.tBlxReg f.b6 f.m3)
  else if f.top o i o o o i o o x x && a.thumb then .instr (.tAddHigh f.b7 f.b6 f.m3 f.l3)
  else if f.top o i o o o i o i x x && a.thumb then .instr (.tCmpHigh f.b7 f.b6 f.m3 f.l3)
  else if f.top o i o o o i i o x x && a.thumb then .instr (.tMovHigh f.b7 f.b6 f.m3 f.l3)
  else if f.top o i o i o o o x x x && a.thumb then .instr (.tStrReg (bit3 f.b8 f.b7 f.b6) f.m3 f.l3)
  else if f.top o i o i o o i x x x && a.thumb then .instr (.tStrhReg (bit3 f.b8 f.b7 f.b6) f.m3 f.l3)
  else if f.top o i o i o i o x x x && a.thumb then .instr (.tStrbReg (bit3 f.b8 f.b7 f.b6) f.m3 f.l3)
  else if f.top o i o i o i i x x x && a.thumb then .instr (.tLdrsbReg (bit3 f.b8 f.b7 f.b6) f.m3 f.l3)
  else if f.top o i o i i o o x x x && a.thumb then .instr (.tLdrReg (bit3 f.b8 f.b7 f.b6) f.m3 f.l3)
  else if f.top o i o i i o i x x x && a.thumb then .instr (.tLdrhReg (bit3 f.b8 f.b7 f.b6) f.m3 f.l3)
  else if f.top o i o i i i o x x x && a.thumb then .instr (.tLdrbReg (bit3 f.b8 f.b7 f.b6) f.m3 f.l3)
  else if f.top o i o i i i i x x x && a.thumb then .instr (.tLdrshReg (bit3 f.b8 f.b7 f.b6) f.m3 f.l3)
  else if f.top o i o o i x x x x x && a.thumb then
      .instr (.tLdrPc (bit3 f.b10 f.b9 f.b8) (bit2 f.b7 f.b6 ++ f.m3 ++ f.l3))
  else .undefined

open Pat in
/-- bits[15:13] = 011: word and byte transfers, immediate offset (R128). -/
def decodeThumb011 (a : Arch) (f : ThumbWord) : Decoded :=
  if f.top o i i o o x x x x x && a.thumb then
      .instr (.tStrImm (bit4 f.b10 f.b9 f.b8 f.b7 ++ bit1 f.b6) f.m3 f.l3)
  else if f.top o i i o i x x x x x && a.thumb then
      .instr (.tLdrImm (bit4 f.b10 f.b9 f.b8 f.b7 ++ bit1 f.b6) f.m3 f.l3)
  else if f.top o i i i o x x x x x && a.thumb then
      .instr (.tStrbImm (bit4 f.b10 f.b9 f.b8 f.b7 ++ bit1 f.b6) f.m3 f.l3)
  else if f.top o i i i i x x x x x && a.thumb then
      .instr (.tLdrbImm (bit4 f.b10 f.b9 f.b8 f.b7 ++ bit1 f.b6) f.m3 f.l3)
  else .undefined

open Pat in
/-- bits[15:13] = 100: halfword and sp-relative transfers (R128, R129). -/
def decodeThumb100 (a : Arch) (f : ThumbWord) : Decoded :=
  if f.top i o o o o x x x x x && a.thumb then
      .instr (.tStrhImm (bit4 f.b10 f.b9 f.b8 f.b7 ++ bit1 f.b6) f.m3 f.l3)
  else if f.top i o o o i x x x x x && a.thumb then
      .instr (.tLdrhImm (bit4 f.b10 f.b9 f.b8 f.b7 ++ bit1 f.b6) f.m3 f.l3)
  else if f.top i o o i o x x x x x && a.thumb then
      .instr (.tStrSpRel (bit3 f.b10 f.b9 f.b8) (bit2 f.b7 f.b6 ++ f.m3 ++ f.l3))
  else if f.top i o o i i x x x x x && a.thumb then
      .instr (.tLdrSpRel (bit3 f.b10 f.b9 f.b8) (bit2 f.b7 f.b6 ++ f.m3 ++ f.l3))
  else .undefined

open Pat in
/-- bits[15:13] = 101: ADD to pc or sp, PUSH, POP, BKPT (R130 to R132, R135). -/
def decodeThumb101 (a : Arch) (f : ThumbWord) : Decoded :=
  if f.top i o i i o o o o o x && a.thumb then .instr (.tAddSp (bit1 f.b6 ++ f.m3 ++ f.l3))
  else if f.top i o i i o o o o i x && a.thumb then .instr (.tSubSp (bit1 f.b6 ++ f.m3 ++ f.l3))
  else if f.top i o i i i i i o x x && a.hasT5 then .instr (.tBkpt (bit2 f.b7 f.b6 ++ f.m3 ++ f.l3))
  else if f.top i o i i o i o x x x && a.thumb then .instr (.tPush f.b8 (bit2 f.b7 f.b6 ++ f.m3 ++ f.l3))
  else if f.top i o i i i i o x x x && a.thumb then .instr (.tPop f.b8 (bit2 f.b7 f.b6 ++ f.m3 ++ f.l3))
  else if f.top i o i o o x x x x x && a.thumb then
      .instr (.tAddPcImm (bit3 f.b10 f.b9 f.b8) (bit2 f.b7 f.b6 ++ f.m3 ++ f.l3))
  else if f.top i o i o i x x x x x && a.thumb then
      .instr (.tAddSpImm (bit3 f.b10 f.b9 f.b8) (bit2 f.b7 f.b6 ++ f.m3 ++ f.l3))
  else .undefined

open Pat in
/-- bits[15:13] = 110: LDMIA, STMIA, conditional branch, SWI (R133 to R135). -/
def decodeThumb110 (a : Arch) (f : ThumbWord) : Decoded :=
  if f.top i i o i i i i i x x && a.thumb then .instr (.tSwi (bit2 f.b7 f.b6 ++ f.m3 ++ f.l3))
  else if f.top i i o i i i i o x x && a.thumb then .instr (.tUnallocated (bit2 f.b7 f.b6 ++ f.m3 ++ f.l3))
  else if f.top i i o o o x x x x x && a.thumb then
      .instr (.tStmia (bit3 f.b10 f.b9 f.b8) (bit2 f.b7 f.b6 ++ f.m3 ++ f.l3))
  else if f.top i i o o i x x x x x && a.thumb then
      .instr (.tLdmia (bit3 f.b10 f.b9 f.b8) (bit2 f.b7 f.b6 ++ f.m3 ++ f.l3))
  else if f.top i i o i x x x x x x && a.thumb then
    match Cond.ofBits (bit4 f.b11 f.b10 f.b9 f.b8) with
    | some c => .instr (.tBCond c (bit2 f.b7 f.b6 ++ f.m3 ++ f.l3))
    | none => .undefined
  else .undefined

open Pat in
/-- bits[15:13] = 111: branches (R136, R137). -/
def decodeThumb111 (a : Arch) (f : ThumbWord) : Decoded :=
  if f.top i i i o i x x x x x && !f.l3.getLsbD 0 && a.hasT5 then
      .instr (.tBlxSecond (bit4 f.b10 f.b9 f.b8 f.b7 ++ bit1 f.b6 ++ f.m3 ++ bit2 (f.l3.getLsbD 2)
      (f.l3.getLsbD 1)))
  else if f.top i i i o o x x x x x && a.thumb then
      .instr (.tB (bit4 f.b10 f.b9 f.b8 f.b7 ++ bit1 f.b6 ++ f.m3 ++ f.l3))
  else if f.top i i i i o x x x x x && a.thumb then
      .instr (.tBlFirst (bit4 f.b10 f.b9 f.b8 f.b7 ++ bit1 f.b6 ++ f.m3 ++ f.l3))
  else if f.top i i i i i x x x x x && a.thumb then
      .instr (.tBlSecond (bit4 f.b10 f.b9 f.b8 f.b7 ++ bit1 f.b6 ++ f.m3 ++ f.l3))
  else .undefined

/-- Decode a Thumb halfword that has been taken apart. -/
def decodeThumbWord (a : Arch) (f : ThumbWord) : Decoded :=
  match f.b15, f.b14, f.b13 with
  | false, false, false => decodeThumb000 a f
  | false, false, true => decodeThumb001 a f
  | false, true, false => decodeThumb010 a f
  | false, true, true => decodeThumb011 a f
  | true, false, false => decodeThumb100 a f
  | true, false, true => decodeThumb101 a f
  | true, true, false => decodeThumb110 a f
  | true, true, true => decodeThumb111 a f

/-- Decode a halfword fetched in Thumb state (R100). -/
def decodeThumb (a : Arch) (h : Half) : Decoded := decodeThumbWord a (ThumbWord.ofHalf h)

/-- The instruction of a decoding, if there is one. -/
def Decoded.toOption : Decoded → Option Instr
  | .instr i => some i
  | .undefined => none
  | .unpredictable => none

/-- The instruction that the decoder reads from the bits of a table row (the host's question): ARM and VFP rows are
32 bits wide and Thumb rows 16; the architecture is the one that has every instruction, the VFP enabled. -/
def decodeTableWord (nbits w : Nat) : Option Instr :=
  if nbits ≤ 16 then (decodeThumb Arch.full (BitVec.ofNat 16 w)).toOption
  else (decodeArm Arch.full true (BitVec.ofNat 32 w)).toOption

/-- Decode a code in the state it belongs to. -/
def decode (a : Arch) (en : Bool) : Code → Decoded
  | .arm w => decodeArm a en w
  | .thumb h => decodeThumb a h

end

/-- An ARM code from its fields, most significant first. -/
def armCode (cond : BitVec 4) (b27 b26 b25 b24 b23 b22 b21 b20 : Bool) (n16 n12 n8 : BitVec 4)
    (b7 b6 b5 b4 : Bool) (n0 : BitVec 4) : Code :=
  .arm (ArmWord.toWord { cond, b27, b26, b25, b24, b23, b22, b21, b20, n16, n12, n8, b7, b6, b5, b4, n0 })

/-- A Thumb code from its fields, most significant first. -/
def thumbCode (b15 b14 b13 b12 b11 b10 b9 b8 b7 b6 : Bool) (m3 l3 : BitVec 3) : Code :=
  .thumb (ThumbWord.toHalf { b15, b14, b13, b12, b11, b10, b9, b8, b7, b6, m3, l3 })

/-- The code of an instruction: every fixed bit of its row, its should-be bits as they should be, its fields (R152). -/
def encode : Instr → Code
  | .pldReg u rn shiftImm shift rm =>
    armCode 15#4 false true true true u true false true rn 15#4 (shiftImm.extractLsb' 1 4) (shiftImm.getLsbD 0)
        shift.bit1 shift.bit0 false rm
  | .pldImm u rn imm12 =>
    armCode 15#4 false true false true u true false true rn 15#4 (imm12.extractLsb' 8 4) (imm12.getLsbD 7)
        (imm12.getLsbD 6) (imm12.getLsbD 5) (imm12.getLsbD 4) (imm12.extractLsb' 0 4)
  | .mcr2 opc1 crn rd cp opc2 crm =>
    armCode 15#4 true true true false (opc1.getLsbD 2) (opc1.getLsbD 1) (opc1.getLsbD 0) false crn rd cp
        (opc2.getLsbD 2) (opc2.getLsbD 1) (opc2.getLsbD 0) true crm
  | .mrc2 opc1 crn rd cp opc2 crm =>
    armCode 15#4 true true true false (opc1.getLsbD 2) (opc1.getLsbD 1) (opc1.getLsbD 0) true crn rd cp
        (opc2.getLsbD 2) (opc2.getLsbD 1) (opc2.getLsbD 0) true crm
  | .ldc2Post u long rn crd cp offset8 =>
    armCode 15#4 true true false false u long true true rn crd cp (offset8.getLsbD 7) (offset8.getLsbD 6)
        (offset8.getLsbD 5) (offset8.getLsbD 4) (offset8.extractLsb' 0 4)
  | .stc2Post u long rn crd cp offset8 =>
    armCode 15#4 true true false false u long true false rn crd cp (offset8.getLsbD 7) (offset8.getLsbD 6)
        (offset8.getLsbD 5) (offset8.getLsbD 4) (offset8.extractLsb' 0 4)
  | .cdp2 opc1 crn crd cp opc2 crm =>
    armCode 15#4 true true true false (opc1.getLsbD 3) (opc1.getLsbD 2) (opc1.getLsbD 1) (opc1.getLsbD 0) crn
        crd cp (opc2.getLsbD 2) (opc2.getLsbD 1) (opc2.getLsbD 0) false crm
  | .ldc2Pre u long w rn crd cp offset8 =>
    armCode 15#4 true true false true u long w true rn crd cp (offset8.getLsbD 7) (offset8.getLsbD 6)
        (offset8.getLsbD 5) (offset8.getLsbD 4) (offset8.extractLsb' 0 4)
  | .stc2Pre u long w rn crd cp offset8 =>
    armCode 15#4 true true false true u long w false rn crd cp (offset8.getLsbD 7) (offset8.getLsbD 6)
        (offset8.getLsbD 5) (offset8.getLsbD 4) (offset8.extractLsb' 0 4)
  | .blxLabel h imm24 =>
    armCode 15#4 true false true h (imm24.getLsbD 23) (imm24.getLsbD 22) (imm24.getLsbD 21) (imm24.getLsbD 20)
        (imm24.extractLsb' 16 4) (imm24.extractLsb' 12 4) (imm24.extractLsb' 8 4) (imm24.getLsbD 7)
        (imm24.getLsbD 6) (imm24.getLsbD 5) (imm24.getLsbD 4) (imm24.extractLsb' 0 4)
  | .unallocatedUncond bits =>
    armCode 15#4 (bits.getLsbD 27) (bits.getLsbD 26) (bits.getLsbD 25) (bits.getLsbD 24) (bits.getLsbD 23)
        (bits.getLsbD 22) (bits.getLsbD 21) (bits.getLsbD 20) (bits.extractLsb' 16 4) (bits.extractLsb' 12 4)
        (bits.extractLsb' 8 4) (bits.getLsbD 7) (bits.getLsbD 6) (bits.getLsbD 5) (bits.getLsbD 4)
        (bits.extractLsb' 0 4)
  | .fmstat c =>
    armCode c.bits true true true false true true true true 1#4 15#4 10#4 false false false true 0#4
  | .fcpys c fd fm =>
    armCode c.bits true true true false true (fd.getLsbD 0) true true 0#4 (fd.extractLsb' 1 4) 10#4 false true
        (fm.getLsbD 0) false (fm.extractLsb' 1 4)
  | .fcpyd c fd fm =>
    armCode c.bits true true true false true false true true 0#4 fd 11#4 false true false false fm
  | .fabss c fd fm =>
    armCode c.bits true true true false true (fd.getLsbD 0) true true 0#4 (fd.extractLsb' 1 4) 10#4 true true
        (fm.getLsbD 0) false (fm.extractLsb' 1 4)
  | .fabsd c fd fm =>
    armCode c.bits true true true false true false true true 0#4 fd 11#4 true true false false fm
  | .fnegs c fd fm =>
    armCode c.bits true true true false true (fd.getLsbD 0) true true 1#4 (fd.extractLsb' 1 4) 10#4 false true
        (fm.getLsbD 0) false (fm.extractLsb' 1 4)
  | .fnegd c fd fm =>
    armCode c.bits true true true false true false true true 1#4 fd 11#4 false true false false fm
  | .fsqrts c fd fm =>
    armCode c.bits true true true false true (fd.getLsbD 0) true true 1#4 (fd.extractLsb' 1 4) 10#4 true true
        (fm.getLsbD 0) false (fm.extractLsb' 1 4)
  | .fsqrtd c fd fm =>
    armCode c.bits true true true false true false true true 1#4 fd 11#4 true true false false fm
  | .fcmps c fd fm =>
    armCode c.bits true true true false true (fd.getLsbD 0) true true 4#4 (fd.extractLsb' 1 4) 10#4 false true
        (fm.getLsbD 0) false (fm.extractLsb' 1 4)
  | .fcmpd c fd fm =>
    armCode c.bits true true true false true false true true 4#4 fd 11#4 false true false false fm
  | .fcmpes c fd fm =>
    armCode c.bits true true true false true (fd.getLsbD 0) true true 4#4 (fd.extractLsb' 1 4) 10#4 true true
        (fm.getLsbD 0) false (fm.extractLsb' 1 4)
  | .fcmped c fd fm =>
    armCode c.bits true true true false true false true true 4#4 fd 11#4 true true false false fm
  | .fcmpzs c fd =>
    armCode c.bits true true true false true (fd.getLsbD 0) true true 5#4 (fd.extractLsb' 1 4) 10#4 false true
        false false 0#4
  | .fcmpzd c fd =>
    armCode c.bits true true true false true false true true 5#4 fd 11#4 false true false false 0#4
  | .fcmpezs c fd =>
    armCode c.bits true true true false true (fd.getLsbD 0) true true 5#4 (fd.extractLsb' 1 4) 10#4 true true
        false false 0#4
  | .fcmpezd c fd =>
    armCode c.bits true true true false true false true true 5#4 fd 11#4 true true false false 0#4
  | .fcvtds c fd fm =>
    armCode c.bits true true true false true false true true 7#4 fd 10#4 true true (fm.getLsbD 0) false
        (fm.extractLsb' 1 4)
  | .fcvtsd c fd fm =>
    armCode c.bits true true true false true (fd.getLsbD 0) true true 7#4 (fd.extractLsb' 1 4) 11#4 true true
        false false fm
  | .fuitos c fd fm =>
    armCode c.bits true true true false true (fd.getLsbD 0) true true 8#4 (fd.extractLsb' 1 4) 10#4 false true
        (fm.getLsbD 0) false (fm.extractLsb' 1 4)
  | .fuitod c fd fm =>
    armCode c.bits true true true false true false true true 8#4 fd 11#4 false true (fm.getLsbD 0) false
        (fm.extractLsb' 1 4)
  | .fsitos c fd fm =>
    armCode c.bits true true true false true (fd.getLsbD 0) true true 8#4 (fd.extractLsb' 1 4) 10#4 true true
        (fm.getLsbD 0) false (fm.extractLsb' 1 4)
  | .fsitod c fd fm =>
    armCode c.bits true true true false true false true true 8#4 fd 11#4 true true (fm.getLsbD 0) false
        (fm.extractLsb' 1 4)
  | .ftouis c fd fm =>
    armCode c.bits true true true false true (fd.getLsbD 0) true true 12#4 (fd.extractLsb' 1 4) 10#4 false true
        (fm.getLsbD 0) false (fm.extractLsb' 1 4)
  | .ftouid c fd fm =>
    armCode c.bits true true true false true (fd.getLsbD 0) true true 12#4 (fd.extractLsb' 1 4) 11#4 false true
        false false fm
  | .ftouizs c fd fm =>
    armCode c.bits true true true false true (fd.getLsbD 0) true true 12#4 (fd.extractLsb' 1 4) 10#4 true true
        (fm.getLsbD 0) false (fm.extractLsb' 1 4)
  | .ftouizd c fd fm =>
    armCode c.bits true true true false true (fd.getLsbD 0) true true 12#4 (fd.extractLsb' 1 4) 11#4 true true
        false false fm
  | .ftosis c fd fm =>
    armCode c.bits true true true false true (fd.getLsbD 0) true true 13#4 (fd.extractLsb' 1 4) 10#4 false true
        (fm.getLsbD 0) false (fm.extractLsb' 1 4)
  | .ftosid c fd fm =>
    armCode c.bits true true true false true (fd.getLsbD 0) true true 13#4 (fd.extractLsb' 1 4) 11#4 false true
        false false fm
  | .ftosizs c fd fm =>
    armCode c.bits true true true false true (fd.getLsbD 0) true true 13#4 (fd.extractLsb' 1 4) 10#4 true true
        (fm.getLsbD 0) false (fm.extractLsb' 1 4)
  | .ftosizd c fd fm =>
    armCode c.bits true true true false true (fd.getLsbD 0) true true 13#4 (fd.extractLsb' 1 4) 11#4 true true
        false false fm
  | .mia c rs rm =>
    armCode c.bits true true true false false false true false 0#4 rs 0#4 false false false true rm
  | .miaph c rs rm =>
    armCode c.bits true true true false false false true false 8#4 rs 0#4 false false false true rm
  | .miaXY c x y rs rm =>
    armCode c.bits true true true false false false true false (bit4 true true x y) rs 0#4 false false false
        true rm
  | .fmacs c fn fd fm =>
    armCode c.bits true true true false false (fd.getLsbD 0) false false (fn.extractLsb' 1 4) (fd.extractLsb' 1
        4) 10#4 (fn.getLsbD 0) false (fm.getLsbD 0) false (fm.extractLsb' 1 4)
  | .fmacd c fn fd fm =>
    armCode c.bits true true true false false false false false fn fd 11#4 false false false false fm
  | .fnmacs c fn fd fm =>
    armCode c.bits true true true false false (fd.getLsbD 0) false false (fn.extractLsb' 1 4) (fd.extractLsb' 1
        4) 10#4 (fn.getLsbD 0) true (fm.getLsbD 0) false (fm.extractLsb' 1 4)
  | .fnmacd c fn fd fm =>
    armCode c.bits true true true false false false false false fn fd 11#4 false true false false fm
  | .fmscs c fn fd fm =>
    armCode c.bits true true true false false (fd.getLsbD 0) false true (fn.extractLsb' 1 4) (fd.extractLsb' 1
        4) 10#4 (fn.getLsbD 0) false (fm.getLsbD 0) false (fm.extractLsb' 1 4)
  | .fmscd c fn fd fm =>
    armCode c.bits true true true false false false false true fn fd 11#4 false false false false fm
  | .fnmscs c fn fd fm =>
    armCode c.bits true true true false false (fd.getLsbD 0) false true (fn.extractLsb' 1 4) (fd.extractLsb' 1
        4) 10#4 (fn.getLsbD 0) true (fm.getLsbD 0) false (fm.extractLsb' 1 4)
  | .fnmscd c fn fd fm =>
    armCode c.bits true true true false false false false true fn fd 11#4 false true false false fm
  | .fmuls c fn fd fm =>
    armCode c.bits true true true false false (fd.getLsbD 0) true false (fn.extractLsb' 1 4) (fd.extractLsb' 1
        4) 10#4 (fn.getLsbD 0) false (fm.getLsbD 0) false (fm.extractLsb' 1 4)
  | .fmuld c fn fd fm =>
    armCode c.bits true true true false false false true false fn fd 11#4 false false false false fm
  | .fnmuls c fn fd fm =>
    armCode c.bits true true true false false (fd.getLsbD 0) true false (fn.extractLsb' 1 4) (fd.extractLsb' 1
        4) 10#4 (fn.getLsbD 0) true (fm.getLsbD 0) false (fm.extractLsb' 1 4)
  | .fnmuld c fn fd fm =>
    armCode c.bits true true true false false false true false fn fd 11#4 false true false false fm
  | .fadds c fn fd fm =>
    armCode c.bits true true true false false (fd.getLsbD 0) true true (fn.extractLsb' 1 4) (fd.extractLsb' 1
        4) 10#4 (fn.getLsbD 0) false (fm.getLsbD 0) false (fm.extractLsb' 1 4)
  | .faddd c fn fd fm =>
    armCode c.bits true true true false false false true true fn fd 11#4 false false false false fm
  | .fsubs c fn fd fm =>
    armCode c.bits true true true false false (fd.getLsbD 0) true true (fn.extractLsb' 1 4) (fd.extractLsb' 1
        4) 10#4 (fn.getLsbD 0) true (fm.getLsbD 0) false (fm.extractLsb' 1 4)
  | .fsubd c fn fd fm =>
    armCode c.bits true true true false false false true true fn fd 11#4 false true false false fm
  | .fdivs c fn fd fm =>
    armCode c.bits true true true false true (fd.getLsbD 0) false false (fn.extractLsb' 1 4) (fd.extractLsb' 1
        4) 10#4 (fn.getLsbD 0) false (fm.getLsbD 0) false (fm.extractLsb' 1 4)
  | .fdivd c fn fd fm =>
    armCode c.bits true true true false true false false false fn fd 11#4 false false false false fm
  | .fmsr c fn rd =>
    armCode c.bits true true true false false false false false (fn.extractLsb' 1 4) rd 10#4 (fn.getLsbD 0)
        false false true 0#4
  | .fmrs c fn rd =>
    armCode c.bits true true true false false false false true (fn.extractLsb' 1 4) rd 10#4 (fn.getLsbD 0)
        false false true 0#4
  | .fmdlr c fn rd =>
    armCode c.bits true true true false false false false false fn rd 11#4 false false false true 0#4
  | .fmrdl c fn rd =>
    armCode c.bits true true true false false false false true fn rd 11#4 false false false true 0#4
  | .fmdhr c fn rd =>
    armCode c.bits true true true false false false true false fn rd 11#4 false false false true 0#4
  | .fmrdh c fn rd =>
    armCode c.bits true true true false false false true true fn rd 11#4 false false false true 0#4
  | .fmxr c reg rd =>
    armCode c.bits true true true false true true true false reg rd 10#4 false false false true 0#4
  | .fmrx c reg rd =>
    armCode c.bits true true true false true true true true reg rd 10#4 false false false true 0#4
  | .qadd c rn rd rm =>
    armCode c.bits false false false true false false false false rn rd 0#4 false true false true rm
  | .qsub c rn rd rm =>
    armCode c.bits false false false true false false true false rn rd 0#4 false true false true rm
  | .qdadd c rn rd rm =>
    armCode c.bits false false false true false true false false rn rd 0#4 false true false true rm
  | .qdsub c rn rd rm =>
    armCode c.bits false false false true false true true false rn rd 0#4 false true false true rm
  | .bx c rm =>
    armCode c.bits false false false true false false true false 15#4 15#4 15#4 false false false true rm
  | .blxReg c rm =>
    armCode c.bits false false false true false false true false 15#4 15#4 15#4 false false true true rm
  | .clz c rd rm =>
    armCode c.bits false false false true false true true false 15#4 rd 15#4 false false false true rm
  | .bkpt c immHi immLo =>
    armCode c.bits false false false true false false true false (immHi.extractLsb' 8 4) (immHi.extractLsb' 4
        4) (immHi.extractLsb' 0 4) false true true true immLo
  | .swp c rn rd rm =>
    armCode c.bits false false false true false false false false rn rd 0#4 true false false true rm
  | .swpb c rn rd rm =>
    armCode c.bits false false false true false true false false rn rd 0#4 true false false true rm
  | .mar c rdHi rdLo =>
    armCode c.bits true true false false false true false false rdHi rdLo 0#4 false false false false 0#4
  | .mra c rdHi rdLo =>
    armCode c.bits true true false false false true false true rdHi rdLo 0#4 false false false false 0#4
  | .fldmdbd c rn fd count =>
    armCode c.bits true true false true false false true true rn fd 11#4 (count.getLsbD 6) (count.getLsbD 5)
        (count.getLsbD 4) (count.getLsbD 3) (bit4 (count.getLsbD 2) (count.getLsbD 1) (count.getLsbD 0) false)
  | .fldmdbx c rn fd count =>
    armCode c.bits true true false true false false true true rn fd 11#4 (count.getLsbD 6) (count.getLsbD 5)
        (count.getLsbD 4) (count.getLsbD 3) (bit4 (count.getLsbD 2) (count.getLsbD 1) (count.getLsbD 0) true)
  | .fstmdbd c rn fd count =>
    armCode c.bits true true false true false false true false rn fd 11#4 (count.getLsbD 6) (count.getLsbD 5)
        (count.getLsbD 4) (count.getLsbD 3) (bit4 (count.getLsbD 2) (count.getLsbD 1) (count.getLsbD 0) false)
  | .fstmdbx c rn fd count =>
    armCode c.bits true true false true false false true false rn fd 11#4 (count.getLsbD 6) (count.getLsbD 5)
        (count.getLsbD 4) (count.getLsbD 3) (bit4 (count.getLsbD 2) (count.getLsbD 1) (count.getLsbD 0) true)
  | .mul c setFlags rd rs rm =>
    armCode c.bits false false false false false false false setFlags rd 0#4 rs true false false true rm
  | .mla c setFlags rd rn rs rm =>
    armCode c.bits false false false false false false true setFlags rd rn rs true false false true rm
  | .umull c setFlags rdHi rdLo rs rm =>
    armCode c.bits false false false false true false false setFlags rdHi rdLo rs true false false true rm
  | .umlal c setFlags rdHi rdLo rs rm =>
    armCode c.bits false false false false true false true setFlags rdHi rdLo rs true false false true rm
  | .smull c setFlags rdHi rdLo rs rm =>
    armCode c.bits false false false false true true false setFlags rdHi rdLo rs true false false true rm
  | .smlal c setFlags rdHi rdLo rs rm =>
    armCode c.bits false false false false true true true setFlags rdHi rdLo rs true false false true rm
  | .smlawY c rd rn rs y rm =>
    armCode c.bits false false false true false false true false rd rn rs true y false false rm
  | .smulwY c rd rs y rm =>
    armCode c.bits false false false true false false true false rd 0#4 rs true y true false rm
  | .mrs c r rd =>
    armCode c.bits false false false true false r false false 15#4 rd 0#4 false false false false 0#4
  | .msrReg c r fields rm =>
    armCode c.bits false false false true false r true false fields 15#4 0#4 false false false false rm
  | .fldmiad c w rn fd count =>
    armCode c.bits true true false false true false w true rn fd 11#4 (count.getLsbD 6) (count.getLsbD 5)
        (count.getLsbD 4) (count.getLsbD 3) (bit4 (count.getLsbD 2) (count.getLsbD 1) (count.getLsbD 0) false)
  | .fldmiax c w rn fd count =>
    armCode c.bits true true false false true false w true rn fd 11#4 (count.getLsbD 6) (count.getLsbD 5)
        (count.getLsbD 4) (count.getLsbD 3) (bit4 (count.getLsbD 2) (count.getLsbD 1) (count.getLsbD 0) true)
  | .fldmdbs c rn fd count =>
    armCode c.bits true true false true false (fd.getLsbD 0) true true rn (fd.extractLsb' 1 4) 10#4
        (count.getLsbD 7) (count.getLsbD 6) (count.getLsbD 5) (count.getLsbD 4) (count.extractLsb' 0 4)
  | .fstmiad c w rn fd count =>
    armCode c.bits true true false false true false w false rn fd 11#4 (count.getLsbD 6) (count.getLsbD 5)
        (count.getLsbD 4) (count.getLsbD 3) (bit4 (count.getLsbD 2) (count.getLsbD 1) (count.getLsbD 0) false)
  | .fstmiax c w rn fd count =>
    armCode c.bits true true false false true false w false rn fd 11#4 (count.getLsbD 6) (count.getLsbD 5)
        (count.getLsbD 4) (count.getLsbD 3) (bit4 (count.getLsbD 2) (count.getLsbD 1) (count.getLsbD 0) true)
  | .fstmdbs c rn fd count =>
    armCode c.bits true true false true false (fd.getLsbD 0) true false rn (fd.extractLsb' 1 4) 10#4
        (count.getLsbD 7) (count.getLsbD 6) (count.getLsbD 5) (count.getLsbD 4) (count.extractLsb' 0 4)
  | .tstRegReg c rn rs shift rm =>
    armCode c.bits false false false true false false false true rn 0#4 rs false shift.bit1 shift.bit0 true rm
  | .teqRegReg c rn rs shift rm =>
    armCode c.bits false false false true false false true true rn 0#4 rs false shift.bit1 shift.bit0 true rm
  | .cmpRegReg c rn rs shift rm =>
    armCode c.bits false false false true false true false true rn 0#4 rs false shift.bit1 shift.bit0 true rm
  | .cmnRegReg c rn rs shift rm =>
    armCode c.bits false false false true false true true true rn 0#4 rs false shift.bit1 shift.bit0 true rm
  | .smlaXY c rd rn rs y x rm =>
    armCode c.bits false false false true false false false false rd rn rs true y x false rm
  | .smlalXY c rdHi rdLo rs y x rm =>
    armCode c.bits false false false true false true false false rdHi rdLo rs true y x false rm
  | .smulXY c rd rs y x rm =>
    armCode c.bits false false false true false true true false rd 0#4 rs true y x false rm
  | .flds c u rn fd offset8 =>
    armCode c.bits true true false true u (fd.getLsbD 0) false true rn (fd.extractLsb' 1 4) 10#4
        (offset8.getLsbD 7) (offset8.getLsbD 6) (offset8.getLsbD 5) (offset8.getLsbD 4) (offset8.extractLsb' 0
        4)
  | .fldd c u rn fd offset8 =>
    armCode c.bits true true false true u false false true rn fd 11#4 (offset8.getLsbD 7) (offset8.getLsbD 6)
        (offset8.getLsbD 5) (offset8.getLsbD 4) (offset8.extractLsb' 0 4)
  | .fsts c u rn fd offset8 =>
    armCode c.bits true true false true u (fd.getLsbD 0) false false rn (fd.extractLsb' 1 4) 10#4
        (offset8.getLsbD 7) (offset8.getLsbD 6) (offset8.getLsbD 5) (offset8.getLsbD 4) (offset8.extractLsb' 0
        4)
  | .fstd c u rn fd offset8 =>
    armCode c.bits true true false true u false false false rn fd 11#4 (offset8.getLsbD 7) (offset8.getLsbD 6)
        (offset8.getLsbD 5) (offset8.getLsbD 4) (offset8.extractLsb' 0 4)
  | .fldmias c w rn fd count =>
    armCode c.bits true true false false true (fd.getLsbD 0) w true rn (fd.extractLsb' 1 4) 10#4 (count.getLsbD
        7) (count.getLsbD 6) (count.getLsbD 5) (count.getLsbD 4) (count.extractLsb' 0 4)
  | .fstmias c w rn fd count =>
    armCode c.bits true true false false true (fd.getLsbD 0) w false rn (fd.extractLsb' 1 4) 10#4
        (count.getLsbD 7) (count.getLsbD 6) (count.getLsbD 5) (count.getLsbD 4) (count.extractLsb' 0 4)
  | .andRegReg c setFlags rn rd rs shift rm =>
    armCode c.bits false false false false false false false setFlags rn rd rs false shift.bit1 shift.bit0 true
        rm
  | .eorRegReg c setFlags rn rd rs shift rm =>
    armCode c.bits false false false false false false true setFlags rn rd rs false shift.bit1 shift.bit0 true
        rm
  | .subRegReg c setFlags rn rd rs shift rm =>
    armCode c.bits false false false false false true false setFlags rn rd rs false shift.bit1 shift.bit0 true
        rm
  | .rsbRegReg c setFlags rn rd rs shift rm =>
    armCode c.bits false false false false false true true setFlags rn rd rs false shift.bit1 shift.bit0 true rm
  | .addRegReg c setFlags rn rd rs shift rm =>
    armCode c.bits false false false false true false false setFlags rn rd rs false shift.bit1 shift.bit0 true
        rm
  | .adcRegReg c setFlags rn rd rs shift rm =>
    armCode c.bits false false false false true false true setFlags rn rd rs false shift.bit1 shift.bit0 true rm
  | .sbcRegReg c setFlags rn rd rs shift rm =>
    armCode c.bits false false false false true true false setFlags rn rd rs false shift.bit1 shift.bit0 true rm
  | .rscRegReg c setFlags rn rd rs shift rm =>
    armCode c.bits false false false false true true true setFlags rn rd rs false shift.bit1 shift.bit0 true rm
  | .tstRegImm c rn shiftImm shift rm =>
    armCode c.bits false false false true false false false true rn 0#4 (shiftImm.extractLsb' 1 4)
        (shiftImm.getLsbD 0) shift.bit1 shift.bit0 false rm
  | .teqRegImm c rn shiftImm shift rm =>
    armCode c.bits false false false true false false true true rn 0#4 (shiftImm.extractLsb' 1 4)
        (shiftImm.getLsbD 0) shift.bit1 shift.bit0 false rm
  | .cmpRegImm c rn shiftImm shift rm =>
    armCode c.bits false false false true false true false true rn 0#4 (shiftImm.extractLsb' 1 4)
        (shiftImm.getLsbD 0) shift.bit1 shift.bit0 false rm
  | .cmnRegImm c rn shiftImm shift rm =>
    armCode c.bits false false false true false true true true rn 0#4 (shiftImm.extractLsb' 1 4)
        (shiftImm.getLsbD 0) shift.bit1 shift.bit0 false rm
  | .orrRegReg c setFlags rn rd rs shift rm =>
    armCode c.bits false false false true true false false setFlags rn rd rs false shift.bit1 shift.bit0 true rm
  | .movRegReg c setFlags rd rs shift rm =>
    armCode c.bits false false false true true false true setFlags 0#4 rd rs false shift.bit1 shift.bit0 true rm
  | .bicRegReg c setFlags rn rd rs shift rm =>
    armCode c.bits false false false true true true false setFlags rn rd rs false shift.bit1 shift.bit0 true rm
  | .mvnRegReg c setFlags rd rs shift rm =>
    armCode c.bits false false false true true true true setFlags 0#4 rd rs false shift.bit1 shift.bit0 true rm
  | .strhImm c p u w rn rd immH immL =>
    armCode c.bits false false false p u true w false rn rd immH true false true true immL
  | .strhReg c p u w rn rd rm =>
    armCode c.bits false false false p u false w false rn rd 0#4 true false true true rm
  | .ldrhImm c p u w rn rd immH immL =>
    armCode c.bits false false false p u true w true rn rd immH true false true true immL
  | .ldrhReg c p u w rn rd rm =>
    armCode c.bits false false false p u false w true rn rd 0#4 true false true true rm
  | .ldrsbImm c p u w rn rd immH immL =>
    armCode c.bits false false false p u true w true rn rd immH true true false true immL
  | .ldrsbReg c p u w rn rd rm =>
    armCode c.bits false false false p u false w true rn rd 0#4 true true false true rm
  | .ldrshImm c p u w rn rd immH immL =>
    armCode c.bits false false false p u true w true rn rd immH true true true true immL
  | .ldrshReg c p u w rn rd rm =>
    armCode c.bits false false false p u false w true rn rd 0#4 true true true true rm
  | .ldrdImm c p u w rn rd immH immL =>
    armCode c.bits false false false p u true w false rn rd immH true true false true immL
  | .ldrdReg c p u w rn rd rm =>
    armCode c.bits false false false p u false w false rn rd 0#4 true true false true rm
  | .strdImm c p u w rn rd immH immL =>
    armCode c.bits false false false p u true w false rn rd immH true true true true immL
  | .strdReg c p u w rn rd rm =>
    armCode c.bits false false false p u false w false rn rd 0#4 true true true true rm
  | .andRegImm c setFlags rn rd shiftImm shift rm =>
    armCode c.bits false false false false false false false setFlags rn rd (shiftImm.extractLsb' 1 4)
        (shiftImm.getLsbD 0) shift.bit1 shift.bit0 false rm
  | .eorRegImm c setFlags rn rd shiftImm shift rm =>
    armCode c.bits false false false false false false true setFlags rn rd (shiftImm.extractLsb' 1 4)
        (shiftImm.getLsbD 0) shift.bit1 shift.bit0 false rm
  | .subRegImm c setFlags rn rd shiftImm shift rm =>
    armCode c.bits false false false false false true false setFlags rn rd (shiftImm.extractLsb' 1 4)
        (shiftImm.getLsbD 0) shift.bit1 shift.bit0 false rm
  | .rsbRegImm c setFlags rn rd shiftImm shift rm =>
    armCode c.bits false false false false false true true setFlags rn rd (shiftImm.extractLsb' 1 4)
        (shiftImm.getLsbD 0) shift.bit1 shift.bit0 false rm
  | .addRegImm c setFlags rn rd shiftImm shift rm =>
    armCode c.bits false false false false true false false setFlags rn rd (shiftImm.extractLsb' 1 4)
        (shiftImm.getLsbD 0) shift.bit1 shift.bit0 false rm
  | .adcRegImm c setFlags rn rd shiftImm shift rm =>
    armCode c.bits false false false false true false true setFlags rn rd (shiftImm.extractLsb' 1 4)
        (shiftImm.getLsbD 0) shift.bit1 shift.bit0 false rm
  | .sbcRegImm c setFlags rn rd shiftImm shift rm =>
    armCode c.bits false false false false true true false setFlags rn rd (shiftImm.extractLsb' 1 4)
        (shiftImm.getLsbD 0) shift.bit1 shift.bit0 false rm
  | .rscRegImm c setFlags rn rd shiftImm shift rm =>
    armCode c.bits false false false false true true true setFlags rn rd (shiftImm.extractLsb' 1 4)
        (shiftImm.getLsbD 0) shift.bit1 shift.bit0 false rm
  | .tstImm c rn rot imm8 =>
    armCode c.bits false false true true false false false true rn 0#4 rot (imm8.getLsbD 7) (imm8.getLsbD 6)
        (imm8.getLsbD 5) (imm8.getLsbD 4) (imm8.extractLsb' 0 4)
  | .teqImm c rn rot imm8 =>
    armCode c.bits false false true true false false true true rn 0#4 rot (imm8.getLsbD 7) (imm8.getLsbD 6)
        (imm8.getLsbD 5) (imm8.getLsbD 4) (imm8.extractLsb' 0 4)
  | .cmpImm c rn rot imm8 =>
    armCode c.bits false false true true false true false true rn 0#4 rot (imm8.getLsbD 7) (imm8.getLsbD 6)
        (imm8.getLsbD 5) (imm8.getLsbD 4) (imm8.extractLsb' 0 4)
  | .cmnImm c rn rot imm8 =>
    armCode c.bits false false true true false true true true rn 0#4 rot (imm8.getLsbD 7) (imm8.getLsbD 6)
        (imm8.getLsbD 5) (imm8.getLsbD 4) (imm8.extractLsb' 0 4)
  | .orrRegImm c setFlags rn rd shiftImm shift rm =>
    armCode c.bits false false false true true false false setFlags rn rd (shiftImm.extractLsb' 1 4)
        (shiftImm.getLsbD 0) shift.bit1 shift.bit0 false rm
  | .movRegImm c setFlags rd shiftImm shift rm =>
    armCode c.bits false false false true true false true setFlags 0#4 rd (shiftImm.extractLsb' 1 4)
        (shiftImm.getLsbD 0) shift.bit1 shift.bit0 false rm
  | .bicRegImm c setFlags rn rd shiftImm shift rm =>
    armCode c.bits false false false true true true false setFlags rn rd (shiftImm.extractLsb' 1 4)
        (shiftImm.getLsbD 0) shift.bit1 shift.bit0 false rm
  | .mvnRegImm c setFlags rd shiftImm shift rm =>
    armCode c.bits false false false true true true true setFlags 0#4 rd (shiftImm.extractLsb' 1 4)
        (shiftImm.getLsbD 0) shift.bit1 shift.bit0 false rm
  | .ldrtReg c u rn rd shiftImm shift rm =>
    armCode c.bits false true true false u false true true rn rd (shiftImm.extractLsb' 1 4) (shiftImm.getLsbD
        0) shift.bit1 shift.bit0 false rm
  | .strtReg c u rn rd shiftImm shift rm =>
    armCode c.bits false true true false u false true false rn rd (shiftImm.extractLsb' 1 4) (shiftImm.getLsbD
        0) shift.bit1 shift.bit0 false rm
  | .ldrbtReg c u rn rd shiftImm shift rm =>
    armCode c.bits false true true false u true true true rn rd (shiftImm.extractLsb' 1 4) (shiftImm.getLsbD 0)
        shift.bit1 shift.bit0 false rm
  | .strbtReg c u rn rd shiftImm shift rm =>
    armCode c.bits false true true false u true true false rn rd (shiftImm.extractLsb' 1 4) (shiftImm.getLsbD
        0) shift.bit1 shift.bit0 false rm
  | .mcrr c rn rd cp opc crm =>
    armCode c.bits true true false false false true false false rn rd cp (opc.getLsbD 3) (opc.getLsbD 2)
        (opc.getLsbD 1) (opc.getLsbD 0) crm
  | .mrrc c rn rd cp opc crm =>
    armCode c.bits true true false false false true false true rn rd cp (opc.getLsbD 3) (opc.getLsbD 2)
        (opc.getLsbD 1) (opc.getLsbD 0) crm
  | .andImm c setFlags rn rd rot imm8 =>
    armCode c.bits false false true false false false false setFlags rn rd rot (imm8.getLsbD 7) (imm8.getLsbD
        6) (imm8.getLsbD 5) (imm8.getLsbD 4) (imm8.extractLsb' 0 4)
  | .eorImm c setFlags rn rd rot imm8 =>
    armCode c.bits false false true false false false true setFlags rn rd rot (imm8.getLsbD 7) (imm8.getLsbD 6)
        (imm8.getLsbD 5) (imm8.getLsbD 4) (imm8.extractLsb' 0 4)
  | .subImm c setFlags rn rd rot imm8 =>
    armCode c.bits false false true false false true false setFlags rn rd rot (imm8.getLsbD 7) (imm8.getLsbD 6)
        (imm8.getLsbD 5) (imm8.getLsbD 4) (imm8.extractLsb' 0 4)
  | .rsbImm c setFlags rn rd rot imm8 =>
    armCode c.bits false false true false false true true setFlags rn rd rot (imm8.getLsbD 7) (imm8.getLsbD 6)
        (imm8.getLsbD 5) (imm8.getLsbD 4) (imm8.extractLsb' 0 4)
  | .addImm c setFlags rn rd rot imm8 =>
    armCode c.bits false false true false true false false setFlags rn rd rot (imm8.getLsbD 7) (imm8.getLsbD 6)
        (imm8.getLsbD 5) (imm8.getLsbD 4) (imm8.extractLsb' 0 4)
  | .adcImm c setFlags rn rd rot imm8 =>
    armCode c.bits false false true false true false true setFlags rn rd rot (imm8.getLsbD 7) (imm8.getLsbD 6)
        (imm8.getLsbD 5) (imm8.getLsbD 4) (imm8.extractLsb' 0 4)
  | .sbcImm c setFlags rn rd rot imm8 =>
    armCode c.bits false false true false true true false setFlags rn rd rot (imm8.getLsbD 7) (imm8.getLsbD 6)
        (imm8.getLsbD 5) (imm8.getLsbD 4) (imm8.extractLsb' 0 4)
  | .rscImm c setFlags rn rd rot imm8 =>
    armCode c.bits false false true false true true true setFlags rn rd rot (imm8.getLsbD 7) (imm8.getLsbD 6)
        (imm8.getLsbD 5) (imm8.getLsbD 4) (imm8.extractLsb' 0 4)
  | .orrImm c setFlags rn rd rot imm8 =>
    armCode c.bits false false true true true false false setFlags rn rd rot (imm8.getLsbD 7) (imm8.getLsbD 6)
        (imm8.getLsbD 5) (imm8.getLsbD 4) (imm8.extractLsb' 0 4)
  | .movImm c setFlags rd rot imm8 =>
    armCode c.bits false false true true true false true setFlags 0#4 rd rot (imm8.getLsbD 7) (imm8.getLsbD 6)
        (imm8.getLsbD 5) (imm8.getLsbD 4) (imm8.extractLsb' 0 4)
  | .bicImm c setFlags rn rd rot imm8 =>
    armCode c.bits false false true true true true false setFlags rn rd rot (imm8.getLsbD 7) (imm8.getLsbD 6)
        (imm8.getLsbD 5) (imm8.getLsbD 4) (imm8.extractLsb' 0 4)
  | .mvnImm c setFlags rd rot imm8 =>
    armCode c.bits false false true true true true true setFlags 0#4 rd rot (imm8.getLsbD 7) (imm8.getLsbD 6)
        (imm8.getLsbD 5) (imm8.getLsbD 4) (imm8.extractLsb' 0 4)
  | .msrImm c r fields rot imm8 =>
    armCode c.bits false false true true false r true false fields 15#4 rot (imm8.getLsbD 7) (imm8.getLsbD 6)
        (imm8.getLsbD 5) (imm8.getLsbD 4) (imm8.extractLsb' 0 4)
  | .ldrtImm c u rn rd imm12 =>
    armCode c.bits false true false false u false true true rn rd (imm12.extractLsb' 8 4) (imm12.getLsbD 7)
        (imm12.getLsbD 6) (imm12.getLsbD 5) (imm12.getLsbD 4) (imm12.extractLsb' 0 4)
  | .strtImm c u rn rd imm12 =>
    armCode c.bits false true false false u false true false rn rd (imm12.extractLsb' 8 4) (imm12.getLsbD 7)
        (imm12.getLsbD 6) (imm12.getLsbD 5) (imm12.getLsbD 4) (imm12.extractLsb' 0 4)
  | .ldrbtImm c u rn rd imm12 =>
    armCode c.bits false true false false u true true true rn rd (imm12.extractLsb' 8 4) (imm12.getLsbD 7)
        (imm12.getLsbD 6) (imm12.getLsbD 5) (imm12.getLsbD 4) (imm12.extractLsb' 0 4)
  | .strbtImm c u rn rd imm12 =>
    armCode c.bits false true false false u true true false rn rd (imm12.extractLsb' 8 4) (imm12.getLsbD 7)
        (imm12.getLsbD 6) (imm12.getLsbD 5) (imm12.getLsbD 4) (imm12.extractLsb' 0 4)
  | .ldrReg c p u w rn rd shiftImm shift rm =>
    armCode c.bits false true true p u false w true rn rd (shiftImm.extractLsb' 1 4) (shiftImm.getLsbD 0)
        shift.bit1 shift.bit0 false rm
  | .strReg c p u w rn rd shiftImm shift rm =>
    armCode c.bits false true true p u false w false rn rd (shiftImm.extractLsb' 1 4) (shiftImm.getLsbD 0)
        shift.bit1 shift.bit0 false rm
  | .ldrbReg c p u w rn rd shiftImm shift rm =>
    armCode c.bits false true true p u true w true rn rd (shiftImm.extractLsb' 1 4) (shiftImm.getLsbD 0)
        shift.bit1 shift.bit0 false rm
  | .strbReg c p u w rn rd shiftImm shift rm =>
    armCode c.bits false true true p u true w false rn rd (shiftImm.extractLsb' 1 4) (shiftImm.getLsbD 0)
        shift.bit1 shift.bit0 false rm
  | .ldmUser c p u w rn regs =>
    armCode c.bits true false false p u true w true rn (bit4 false (regs.getLsbD 14) (regs.getLsbD 13)
        (regs.getLsbD 12)) (regs.extractLsb' 8 4) (regs.getLsbD 7) (regs.getLsbD 6) (regs.getLsbD 5)
        (regs.getLsbD 4) (regs.extractLsb' 0 4)
  | .ldmReturn c p u w rn regs =>
    armCode c.bits true false false p u true w true rn (bit4 true (regs.getLsbD 14) (regs.getLsbD 13)
        (regs.getLsbD 12)) (regs.extractLsb' 8 4) (regs.getLsbD 7) (regs.getLsbD 6) (regs.getLsbD 5)
        (regs.getLsbD 4) (regs.extractLsb' 0 4)
  | .mcr c opc1 crn rd cp opc2 crm =>
    armCode c.bits true true true false (opc1.getLsbD 2) (opc1.getLsbD 1) (opc1.getLsbD 0) false crn rd cp
        (opc2.getLsbD 2) (opc2.getLsbD 1) (opc2.getLsbD 0) true crm
  | .mrc c opc1 crn rd cp opc2 crm =>
    armCode c.bits true true true false (opc1.getLsbD 2) (opc1.getLsbD 1) (opc1.getLsbD 0) true crn rd cp
        (opc2.getLsbD 2) (opc2.getLsbD 1) (opc2.getLsbD 0) true crm
  | .ldcPost c u long rn crd cp offset8 =>
    armCode c.bits true true false false u long true true rn crd cp (offset8.getLsbD 7) (offset8.getLsbD 6)
        (offset8.getLsbD 5) (offset8.getLsbD 4) (offset8.extractLsb' 0 4)
  | .stcPost c u long rn crd cp offset8 =>
    armCode c.bits true true false false u long true false rn crd cp (offset8.getLsbD 7) (offset8.getLsbD 6)
        (offset8.getLsbD 5) (offset8.getLsbD 4) (offset8.extractLsb' 0 4)
  | .ldrImm c p u w rn rd imm12 =>
    armCode c.bits false true false p u false w true rn rd (imm12.extractLsb' 8 4) (imm12.getLsbD 7)
        (imm12.getLsbD 6) (imm12.getLsbD 5) (imm12.getLsbD 4) (imm12.extractLsb' 0 4)
  | .strImm c p u w rn rd imm12 =>
    armCode c.bits false true false p u false w false rn rd (imm12.extractLsb' 8 4) (imm12.getLsbD 7)
        (imm12.getLsbD 6) (imm12.getLsbD 5) (imm12.getLsbD 4) (imm12.extractLsb' 0 4)
  | .ldrbImm c p u w rn rd imm12 =>
    armCode c.bits false true false p u true w true rn rd (imm12.extractLsb' 8 4) (imm12.getLsbD 7)
        (imm12.getLsbD 6) (imm12.getLsbD 5) (imm12.getLsbD 4) (imm12.extractLsb' 0 4)
  | .strbImm c p u w rn rd imm12 =>
    armCode c.bits false true false p u true w false rn rd (imm12.extractLsb' 8 4) (imm12.getLsbD 7)
        (imm12.getLsbD 6) (imm12.getLsbD 5) (imm12.getLsbD 4) (imm12.extractLsb' 0 4)
  | .ldm c p u w rn regs =>
    armCode c.bits true false false p u false w true rn (regs.extractLsb' 12 4) (regs.extractLsb' 8 4)
        (regs.getLsbD 7) (regs.getLsbD 6) (regs.getLsbD 5) (regs.getLsbD 4) (regs.extractLsb' 0 4)
  | .stm c p u w rn regs =>
    armCode c.bits true false false p u false w false rn (regs.extractLsb' 12 4) (regs.extractLsb' 8 4)
        (regs.getLsbD 7) (regs.getLsbD 6) (regs.getLsbD 5) (regs.getLsbD 4) (regs.extractLsb' 0 4)
  | .stmUser c p u w rn regs =>
    armCode c.bits true false false p u true w false rn (regs.extractLsb' 12 4) (regs.extractLsb' 8 4)
        (regs.getLsbD 7) (regs.getLsbD 6) (regs.getLsbD 5) (regs.getLsbD 4) (regs.extractLsb' 0 4)
  | .cdp c opc1 crn crd cp opc2 crm =>
    armCode c.bits true true true false (opc1.getLsbD 3) (opc1.getLsbD 2) (opc1.getLsbD 1) (opc1.getLsbD 0) crn
        crd cp (opc2.getLsbD 2) (opc2.getLsbD 1) (opc2.getLsbD 0) false crm
  | .ldcPre c u long w rn crd cp offset8 =>
    armCode c.bits true true false true u long w true rn crd cp (offset8.getLsbD 7) (offset8.getLsbD 6)
        (offset8.getLsbD 5) (offset8.getLsbD 4) (offset8.extractLsb' 0 4)
  | .stcPre c u long w rn crd cp offset8 =>
    armCode c.bits true true false true u long w false rn crd cp (offset8.getLsbD 7) (offset8.getLsbD 6)
        (offset8.getLsbD 5) (offset8.getLsbD 4) (offset8.extractLsb' 0 4)
  | .b c imm24 =>
    armCode c.bits true false true false (imm24.getLsbD 23) (imm24.getLsbD 22) (imm24.getLsbD 21)
        (imm24.getLsbD 20) (imm24.extractLsb' 16 4) (imm24.extractLsb' 12 4) (imm24.extractLsb' 8 4)
        (imm24.getLsbD 7) (imm24.getLsbD 6) (imm24.getLsbD 5) (imm24.getLsbD 4) (imm24.extractLsb' 0 4)
  | .bl c imm24 =>
    armCode c.bits true false true true (imm24.getLsbD 23) (imm24.getLsbD 22) (imm24.getLsbD 21) (imm24.getLsbD
        20) (imm24.extractLsb' 16 4) (imm24.extractLsb' 12 4) (imm24.extractLsb' 8 4) (imm24.getLsbD 7)
        (imm24.getLsbD 6) (imm24.getLsbD 5) (imm24.getLsbD 4) (imm24.extractLsb' 0 4)
  | .swi c imm24 =>
    armCode c.bits true true true true (imm24.getLsbD 23) (imm24.getLsbD 22) (imm24.getLsbD 21) (imm24.getLsbD
        20) (imm24.extractLsb' 16 4) (imm24.extractLsb' 12 4) (imm24.extractLsb' 8 4) (imm24.getLsbD 7)
        (imm24.getLsbD 6) (imm24.getLsbD 5) (imm24.getLsbD 4) (imm24.extractLsb' 0 4)
  | .tAnd rm rd =>
    thumbCode false true false false false false false false false false rm rd
  | .tEor rm rd =>
    thumbCode false true false false false false false false false true rm rd
  | .tLslReg rm rd =>
    thumbCode false true false false false false false false true false rm rd
  | .tLsrReg rm rd =>
    thumbCode false true false false false false false false true true rm rd
  | .tAsrReg rm rd =>
    thumbCode false true false false false false false true false false rm rd
  | .tAdc rm rd =>
    thumbCode false true false false false false false true false true rm rd
  | .tSbc rm rd =>
    thumbCode false true false false false false false true true false rm rd
  | .tRor rm rd =>
    thumbCode false true false false false false false true true true rm rd
  | .tTst rm rd =>
    thumbCode false true false false false false true false false false rm rd
  | .tNeg rm rd =>
    thumbCode false true false false false false true false false true rm rd
  | .tCmpLow rm rd =>
    thumbCode false true false false false false true false true false rm rd
  | .tCmn rm rd =>
    thumbCode false true false false false false true false true true rm rd
  | .tOrr rm rd =>
    thumbCode false true false false false false true true false false rm rd
  | .tMul rm rd =>
    thumbCode false true false false false false true true false true rm rd
  | .tBic rm rd =>
    thumbCode false true false false false false true true true false rm rd
  | .tMvn rm rd =>
    thumbCode false true false false false false true true true true rm rd
  | .tBx h2 rm =>
    thumbCode false true false false false true true true false h2 rm 0#3
  | .tBlxReg h2 rm =>
    thumbCode false true false false false true true true true h2 rm 0#3
  | .tAddSp imm7 =>
    thumbCode true false true true false false false false false (imm7.getLsbD 6) (imm7.extractLsb' 3 3)
        (imm7.extractLsb' 0 3)
  | .tSubSp imm7 =>
    thumbCode true false true true false false false false true (imm7.getLsbD 6) (imm7.extractLsb' 3 3)
        (imm7.extractLsb' 0 3)
  | .tAddHigh h1 h2 rm rd =>
    thumbCode false true false false false true false false h1 h2 rm rd
  | .tCmpHigh h1 h2 rm rd =>
    thumbCode false true false false false true false true h1 h2 rm rd
  | .tMovHigh h1 h2 rm rd =>
    thumbCode false true false false false true true false h1 h2 rm rd
  | .tBkpt imm8 =>
    thumbCode true false true true true true true false (imm8.getLsbD 7) (imm8.getLsbD 6) (imm8.extractLsb' 3
        3) (imm8.extractLsb' 0 3)
  | .tSwi imm8 =>
    thumbCode true true false true true true true true (imm8.getLsbD 7) (imm8.getLsbD 6) (imm8.extractLsb' 3 3)
        (imm8.extractLsb' 0 3)
  | .tUnallocated imm8 =>
    thumbCode true true false true true true true false (imm8.getLsbD 7) (imm8.getLsbD 6) (imm8.extractLsb' 3
        3) (imm8.extractLsb' 0 3)
  | .tAddReg3 rm rn rd =>
    thumbCode false false false true true false false (rm.getLsbD 2) (rm.getLsbD 1) (rm.getLsbD 0) rn rd
  | .tSubReg3 rm rn rd =>
    thumbCode false false false true true false true (rm.getLsbD 2) (rm.getLsbD 1) (rm.getLsbD 0) rn rd
  | .tAddImm3 imm3 rn rd =>
    thumbCode false false false true true true false (imm3.getLsbD 2) (imm3.getLsbD 1) (imm3.getLsbD 0) rn rd
  | .tSubImm3 imm3 rn rd =>
    thumbCode false false false true true true true (imm3.getLsbD 2) (imm3.getLsbD 1) (imm3.getLsbD 0) rn rd
  | .tStrReg rm rn rd =>
    thumbCode false true false true false false false (rm.getLsbD 2) (rm.getLsbD 1) (rm.getLsbD 0) rn rd
  | .tStrhReg rm rn rd =>
    thumbCode false true false true false false true (rm.getLsbD 2) (rm.getLsbD 1) (rm.getLsbD 0) rn rd
  | .tStrbReg rm rn rd =>
    thumbCode false true false true false true false (rm.getLsbD 2) (rm.getLsbD 1) (rm.getLsbD 0) rn rd
  | .tLdrsbReg rm rn rd =>
    thumbCode false true false true false true true (rm.getLsbD 2) (rm.getLsbD 1) (rm.getLsbD 0) rn rd
  | .tLdrReg rm rn rd =>
    thumbCode false true false true true false false (rm.getLsbD 2) (rm.getLsbD 1) (rm.getLsbD 0) rn rd
  | .tLdrhReg rm rn rd =>
    thumbCode false true false true true false true (rm.getLsbD 2) (rm.getLsbD 1) (rm.getLsbD 0) rn rd
  | .tLdrbReg rm rn rd =>
    thumbCode false true false true true true false (rm.getLsbD 2) (rm.getLsbD 1) (rm.getLsbD 0) rn rd
  | .tLdrshReg rm rn rd =>
    thumbCode false true false true true true true (rm.getLsbD 2) (rm.getLsbD 1) (rm.getLsbD 0) rn rd
  | .tPush r regs =>
    thumbCode true false true true false true false r (regs.getLsbD 7) (regs.getLsbD 6) (regs.extractLsb' 3 3)
        (regs.extractLsb' 0 3)
  | .tPop r regs =>
    thumbCode true false true true true true false r (regs.getLsbD 7) (regs.getLsbD 6) (regs.extractLsb' 3 3)
        (regs.extractLsb' 0 3)
  | .tBlxSecond lo10 =>
    thumbCode true true true false true (lo10.getLsbD 9) (lo10.getLsbD 8) (lo10.getLsbD 7) (lo10.getLsbD 6)
        (lo10.getLsbD 5) (lo10.extractLsb' 2 3) (bit3 (lo10.getLsbD 1) (lo10.getLsbD 0) false)
  | .tLslImm imm5 rm rd =>
    thumbCode false false false false false (imm5.getLsbD 4) (imm5.getLsbD 3) (imm5.getLsbD 2) (imm5.getLsbD 1)
        (imm5.getLsbD 0) rm rd
  | .tLsrImm imm5 rm rd =>
    thumbCode false false false false true (imm5.getLsbD 4) (imm5.getLsbD 3) (imm5.getLsbD 2) (imm5.getLsbD 1)
        (imm5.getLsbD 0) rm rd
  | .tAsrImm imm5 rm rd =>
    thumbCode false false false true false (imm5.getLsbD 4) (imm5.getLsbD 3) (imm5.getLsbD 2) (imm5.getLsbD 1)
        (imm5.getLsbD 0) rm rd
  | .tMovImm8 rd imm8 =>
    thumbCode false false true false false (rd.getLsbD 2) (rd.getLsbD 1) (rd.getLsbD 0) (imm8.getLsbD 7)
        (imm8.getLsbD 6) (imm8.extractLsb' 3 3) (imm8.extractLsb' 0 3)
  | .tCmpImm8 rn imm8 =>
    thumbCode false false true false true (rn.getLsbD 2) (rn.getLsbD 1) (rn.getLsbD 0) (imm8.getLsbD 7)
        (imm8.getLsbD 6) (imm8.extractLsb' 3 3) (imm8.extractLsb' 0 3)
  | .tAddImm8 rd imm8 =>
    thumbCode false false true true false (rd.getLsbD 2) (rd.getLsbD 1) (rd.getLsbD 0) (imm8.getLsbD 7)
        (imm8.getLsbD 6) (imm8.extractLsb' 3 3) (imm8.extractLsb' 0 3)
  | .tSubImm8 rd imm8 =>
    thumbCode false false true true true (rd.getLsbD 2) (rd.getLsbD 1) (rd.getLsbD 0) (imm8.getLsbD 7)
        (imm8.getLsbD 6) (imm8.extractLsb' 3 3) (imm8.extractLsb' 0 3)
  | .tLdrPc rd imm8 =>
    thumbCode false true false false true (rd.getLsbD 2) (rd.getLsbD 1) (rd.getLsbD 0) (imm8.getLsbD 7)
        (imm8.getLsbD 6) (imm8.extractLsb' 3 3) (imm8.extractLsb' 0 3)
  | .tStrImm imm5 rn rd =>
    thumbCode false true true false false (imm5.getLsbD 4) (imm5.getLsbD 3) (imm5.getLsbD 2) (imm5.getLsbD 1)
        (imm5.getLsbD 0) rn rd
  | .tLdrImm imm5 rn rd =>
    thumbCode false true true false true (imm5.getLsbD 4) (imm5.getLsbD 3) (imm5.getLsbD 2) (imm5.getLsbD 1)
        (imm5.getLsbD 0) rn rd
  | .tStrbImm imm5 rn rd =>
    thumbCode false true true true false (imm5.getLsbD 4) (imm5.getLsbD 3) (imm5.getLsbD 2) (imm5.getLsbD 1)
        (imm5.getLsbD 0) rn rd
  | .tLdrbImm imm5 rn rd =>
    thumbCode false true true true true (imm5.getLsbD 4) (imm5.getLsbD 3) (imm5.getLsbD 2) (imm5.getLsbD 1)
        (imm5.getLsbD 0) rn rd
  | .tStrhImm imm5 rn rd =>
    thumbCode true false false false false (imm5.getLsbD 4) (imm5.getLsbD 3) (imm5.getLsbD 2) (imm5.getLsbD 1)
        (imm5.getLsbD 0) rn rd
  | .tLdrhImm imm5 rn rd =>
    thumbCode true false false false true (imm5.getLsbD 4) (imm5.getLsbD 3) (imm5.getLsbD 2) (imm5.getLsbD 1)
        (imm5.getLsbD 0) rn rd
  | .tStrSpRel rd imm8 =>
    thumbCode true false false true false (rd.getLsbD 2) (rd.getLsbD 1) (rd.getLsbD 0) (imm8.getLsbD 7)
        (imm8.getLsbD 6) (imm8.extractLsb' 3 3) (imm8.extractLsb' 0 3)
  | .tLdrSpRel rd imm8 =>
    thumbCode true false false true true (rd.getLsbD 2) (rd.getLsbD 1) (rd.getLsbD 0) (imm8.getLsbD 7)
        (imm8.getLsbD 6) (imm8.extractLsb' 3 3) (imm8.extractLsb' 0 3)
  | .tAddPcImm rd imm8 =>
    thumbCode true false true false false (rd.getLsbD 2) (rd.getLsbD 1) (rd.getLsbD 0) (imm8.getLsbD 7)
        (imm8.getLsbD 6) (imm8.extractLsb' 3 3) (imm8.extractLsb' 0 3)
  | .tAddSpImm rd imm8 =>
    thumbCode true false true false true (rd.getLsbD 2) (rd.getLsbD 1) (rd.getLsbD 0) (imm8.getLsbD 7)
        (imm8.getLsbD 6) (imm8.extractLsb' 3 3) (imm8.extractLsb' 0 3)
  | .tStmia rn regs =>
    thumbCode true true false false false (rn.getLsbD 2) (rn.getLsbD 1) (rn.getLsbD 0) (regs.getLsbD 7)
        (regs.getLsbD 6) (regs.extractLsb' 3 3) (regs.extractLsb' 0 3)
  | .tLdmia rn regs =>
    thumbCode true true false false true (rn.getLsbD 2) (rn.getLsbD 1) (rn.getLsbD 0) (regs.getLsbD 7)
        (regs.getLsbD 6) (regs.extractLsb' 3 3) (regs.extractLsb' 0 3)
  | .tB imm11 =>
    thumbCode true true true false false (imm11.getLsbD 10) (imm11.getLsbD 9) (imm11.getLsbD 8) (imm11.getLsbD
        7) (imm11.getLsbD 6) (imm11.extractLsb' 3 3) (imm11.extractLsb' 0 3)
  | .tBlFirst hi11 =>
    thumbCode true true true true false (hi11.getLsbD 10) (hi11.getLsbD 9) (hi11.getLsbD 8) (hi11.getLsbD 7)
        (hi11.getLsbD 6) (hi11.extractLsb' 3 3) (hi11.extractLsb' 0 3)
  | .tBlSecond lo11 =>
    thumbCode true true true true true (lo11.getLsbD 10) (lo11.getLsbD 9) (lo11.getLsbD 8) (lo11.getLsbD 7)
        (lo11.getLsbD 6) (lo11.extractLsb' 3 3) (lo11.extractLsb' 0 3)
  | .tBCond cond imm8 =>
    thumbCode true true false true (cond.bits.getLsbD 3) (cond.bits.getLsbD 2) (cond.bits.getLsbD 1)
        (cond.bits.getLsbD 0) (imm8.getLsbD 7) (imm8.getLsbD 6) (imm8.extractLsb' 3 3) (imm8.extractLsb' 0 3)

end Sys2Proof
end

