-- ==== Sys2Proof/Machine/State.lean ====
section
/-! DEFINITION. The state of the machine as plain data (spec 10_state.md), the reasons a step can stop, and the state
after reset (R50, 70_reset_and_hazards.md R701). -/

namespace Sys2Proof.Machine

/-- Memory (R70): the bytes that have been written or placed, addresses strictly rising. An address that is not listed
has no value (R51, R860). -/
abbrev Memory := List Host.Cell

/-- A program status register as the record of its named fields (R31, R38, D26): the flags N, Z, C, V and Q, the
interrupt masks I and F, the state bit T and the mode number M. Reserved bits do not exist: they read as 0. -/
structure Psr where
  n : Bool
  z : Bool
  c : Bool
  v : Bool
  q : Bool
  i : Bool
  f : Bool
  t : Bool
  m : BitVec 5
  deriving DecidableEq, Repr

/-- The three input lines that the environment drives (R611, R613), at one step boundary. -/
structure Lines where
  reset : Bool
  fiq : Bool
  irq : Bool
  deriving DecidableEq, Repr

/-- All lines low. -/
def Lines.low : Lines := { reset := false, fiq := false, irq := false }

/-- What the environment gives one step: the input lines before it (R611), and what the coprocessors answer during it
(R340). -/
structure Input where
  lines : Lines
  answer : CoprocAnswer
  deriving DecidableEq, Repr

/-- The input of a step to which the environment gives none: all lines low, no command accepted. -/
def Input.none : Input := { lines := Lines.low, answer := CoprocAnswer.none }

/-- Why the machine stops with a fault: the behaviours that the spec calls UNPREDICTABLE and treats as a fault
(00_scope.md R11, R16; 92_eei_decisions.md D9). Each is safe: the model stops where hardware goes on somehow. -/
inductive Fault where
  /-- Decoding: an allocated pattern with a wrong should-be bit (R102). Safe. -/
  | shouldBeBits
  /-- An instruction that names r15 where it must not (R230, R242, R257, R268, R290, R300, R343, ...). Safe. -/
  | forbiddenPc
  /-- An instruction that names one register twice where it must not (R230, R257, R300, R348, ...). Safe. -/
  | sameRegister
  /-- A halfword or double word transfer with P = 0 and W = 1 (R109, R242). Safe. -/
  | forbiddenIndexing
  /-- LDRD or STRD with an odd first register or r14 (R247, R248). Safe. -/
  | forbiddenPair
  /-- A value written to the pc with low bits that the write forbids (R28, R232). Safe. -/
  | pcTarget
  /-- A change to Thumb state on a processor without Thumb (R28, R332, R614). Safe. -/
  | noThumb
  /-- A misaligned data access where the spec defines none and alignment checking is off (R75). Safe. -/
  | misaligned
  /-- Sequential execution past the top of the address space (R29). Safe. -/
  | pcWrap
  /-- A read of memory that nothing has written, by an instruction or by its fetch (R51, R860). Safe. -/
  | unwritten
  /-- A multi-word transfer whose addresses pass 0xFFFFFFFC (R78). Safe. -/
  | transferWrap
  /-- An empty register list (R110, R132, R249, R398 to R401). Safe. -/
  | emptyList
  /-- A load or store multiple whose base is r15, or is in the list where it must not be (R249, R255, R401). Safe. -/
  | baseInList
  /-- A user-bank transfer in User or System mode, or with writeback (R252, R254). Safe. -/
  | userBank
  /-- An access to the SPSR, or an exception return, in User or System mode (R33, R272, R361, R362, R614). Safe. -/
  | noSpsr
  /-- A number that is no mode, written to the mode field (R32, R362, R614). Safe. -/
  | illegalMode
  /-- MSR changing the T bit (R24, R362). Safe. -/
  | msrState
  /-- A Thumb high-register form with two low registers (R125, R417, R438, R441). Safe. -/
  | lowRegisters
  /-- BKPT under a condition other than always (R365). Safe. -/
  | conditionalBreakpoint
  /-- BKPT with `BKPT_TREATMENT = debug_stop`: the run stops here, the state unchanged (R365, R458, R608). Safe. -/
  | breakpoint (imm : BitVec 16)
  /-- A VFP vector operation with an illegal LEN and STRIDE, or with overlapping vectors (R502, R503). Safe. -/
  | vfpVector
  /-- A VFP register list that is empty or runs past the last register (R534). Safe. -/
  | vfpList
  /-- FMRX or FMXR of a system register other than FPSID, FPSCR and FPEXC (R146, R542). Safe. -/
  | vfpSystemRegister
  deriving DecidableEq, Repr

/-- Why the machine gives no meaning: features that the spec leaves out of scope (00_scope.md R6, R16). -/
inductive Refusal where
  /-- The instruction has no meaning yet (no arm answers so any more). Safe. -/
  | notModelled (mnemonic : String)
  /-- A VFP arithmetic instruction while a trap enable bit of FPSCR is 1 (R42, R504, D14). Safe. -/
  | vfpTrapEnabled
  deriving DecidableEq, Repr

/-- The machine's state. -/
structure State where
  /-- The 30 general registers of R22: r0 to r7; r8_usr to r12_usr; r8_fiq to r12_fiq; then r13 and r14 of the User,
  FIQ, IRQ, Supervisor, Abort and Undefined banks. -/
  gpr : Vector Word 30
  /-- `cur`, the address of the instruction being executed (R26). -/
  pc : Word
  /-- The current program status register (R30, R31). -/
  cpsr : Psr
  /-- The five saved program status registers (R33). -/
  spsrFiq : Psr
  spsrIrq : Psr
  spsrSvc : Psr
  spsrAbt : Psr
  spsrUnd : Psr
  /-- The VFP registers s0 to s31; d<n> is s<2n> (low word) and s<2n+1> (R40). -/
  vfp : Vector Word 32
  /-- FPSCR (R42). -/
  fpscr : Word
  /-- FPEXC (R43). -/
  fpexc : Word
  /-- FPSID, read-only (R44). -/
  fpsid : Word
  /-- The XScale accumulator acc0 (R46). -/
  acc0 : BitVec 40
  /-- Memory (R70). -/
  mem : Memory
  /-- The parameters of R9, fixed for a run. -/
  cfg : Config
  /-- The model's own: how many values have been drawn from `Config.freeBit` and `Config.freeWord` (D25). -/
  draws : Nat
  /-- The state of the coprocessors that `cfg.coprocs` has (R47): the commands they have accepted, latest first. -/
  coproc : List CoprocEvent
  /-- The model's own: what the coprocessors answer during the present step (R340). -/
  answer : CoprocAnswer
  /-- The model's own: what the environment gives to the coming steps, nearest first; `Input.none` after the last. -/
  inputs : List Input
  /-- The model's own: the exit reason when the run has ended by the semihosting call (R15). -/
  exited : Option Word
  deriving DecidableEq, Repr

/-- A PSR whose fields are all 0: what the model gives a PSR that reset leaves unspecified (notes/assumptions/4). -/
def Psr.zero : Psr :=
  { n := false, z := false, c := false, v := false, q := false, i := false, f := false, t := false, m := 0#5 }

/-- The CPSR after reset (R50): Supervisor mode, IRQ and FIQ disabled, ARM state; the flags are unspecified
(DESIGN CHOICE 0, notes/assumptions/4). -/
def Psr.reset : Psr := { Psr.zero with i := true, f := true, m := 0b10011#5 }

/-- The machine right after reset (R50, R701): `CPSR` as R50 states it, the pc at the reset vector, FPSCR and FPEXC 0.
Everything that R50 leaves unspecified is 0 (DESIGN CHOICE, notes/assumptions/4), and memory lists nothing. -/
def State.reset : State :=
  { gpr := Vector.replicate 30 0#32
    pc := Config.default.vectorBase
    cpsr := Psr.reset
    spsrFiq := Psr.zero, spsrIrq := Psr.zero, spsrSvc := Psr.zero, spsrAbt := Psr.zero, spsrUnd := Psr.zero
    vfp := Vector.replicate 32 0#32
    fpscr := 0#32
    fpexc := 0#32
    fpsid := 0#32
    acc0 := 0#40
    mem := []
    cfg := Config.default
    draws := 0
    coproc := []
    answer := CoprocAnswer.none
    inputs := []
    exited := none }

end Sys2Proof.Machine
end

