-- ==== Sys2Proof/Machine/Flags.lean ====
section
/-! DEFINITION. The flag computations (spec 00_scope.md R11, 10_state.md R34 to R36) and the test of a condition
(R35). Exact arithmetic first, narrowed at the end. -/

namespace Sys2Proof.Machine

/-- `ConditionPassed` (R35): the flag test that each condition makes. -/
def Psr.passed (p : Psr) : Cond → Bool
  | .eq => p.z
  | .ne => !p.z
  | .cs => p.c
  | .cc => !p.c
  | .mi => p.n
  | .pl => !p.n
  | .vs => p.v
  | .vc => !p.v
  | .hi => p.c && !p.z
  | .ls => !p.c || p.z
  | .ge => p.n == p.v
  | .lt => p.n != p.v
  | .gt => !p.z && p.n == p.v
  | .le => p.z || p.n != p.v
  | .al => true

/-- A result with its carry and overflow (R11). -/
structure AddResult where
  value : Word
  carry : Bool
  overflow : Bool
  deriving DecidableEq, Repr

/-- `AddWithCarry(a, b, cin)` (R11): the low 32 bits of the exact sum; carry when the unsigned sum reaches 2^32;
overflow when the signed sum is outside -2^31 to 2^31 - 1. -/
def addWithCarry (a b : Word) (cin : Bool) : AddResult :=
  let u : Nat := a.toNat + b.toNat + cin.toNat
  let s : Int := a.toInt + b.toInt + (cin.toNat : Int)
  { value := BitVec.ofNat 32 u
    carry := decide (2 ^ 32 ≤ u)
    overflow := decide (2 ^ 31 ≤ s ∨ s < -2 ^ 31) }

/-- `SignedSat32(x)` (R11, R315): the nearest 32-bit signed value, and whether it saturated. -/
def signedSat32 (x : Int) : Word × Bool :=
  if x < -2 ^ 31 then (BitVec.ofInt 32 (-2 ^ 31), true)
  else if 2 ^ 31 - 1 < x then (BitVec.ofInt 32 (2 ^ 31 - 1), true)
  else (BitVec.ofInt 32 x, false)

/-- The flags after an instruction: all four named, so that a meaning says of each whether it changes (R34). -/
structure Nzcv where
  n : Bool
  z : Bool
  c : Bool
  v : Bool
  deriving DecidableEq, Repr

/-- The four condition flags of a PSR. -/
def Psr.nzcv (p : Psr) : Nzcv := { n := p.n, z := p.z, c := p.c, v := p.v }

/-- A PSR with other condition flags. -/
def Psr.withNzcv (p : Psr) (f : Nzcv) : Psr := { p with n := f.n, z := f.z, c := f.c, v := f.v }

/-- N, Z, C and V of an arithmetic result (R34, R273). -/
def AddResult.nzcv (r : AddResult) : Nzcv :=
  { n := r.value.msb, z := r.value == 0#32, c := r.carry, v := r.overflow }

/-- ADD (R274): `a + b`. -/
def aluAdd (a b : Word) : AddResult := addWithCarry a b false

/-- SUB (R275): `a - b`. -/
def aluSub (a b : Word) : AddResult := addWithCarry a (~~~b) true

/-- RSB (R276): `b - a`. -/
def aluRsb (a b : Word) : AddResult := addWithCarry b (~~~a) true

/-- ADC (R277): `a + b + C`. -/
def aluAdc (a b : Word) (c : Bool) : AddResult := addWithCarry a b c

/-- SBC (R278): `a - b - NOT C`. -/
def aluSbc (a b : Word) (c : Bool) : AddResult := addWithCarry a (~~~b) c

/-- RSC (R279): `b - a - NOT C`. -/
def aluRsc (a b : Word) (c : Bool) : AddResult := addWithCarry b (~~~a) c

/-- The flags of a logical result (R270, R273): N and Z of the result, C the shifter's carry, V kept. -/
def logicalNzcv (old : Psr) (result : Word) (shifterCarry : Bool) : Nzcv :=
  { n := result.msb, z := result == 0#32, c := shifterCarry, v := old.v }

end Sys2Proof.Machine
end

