-- ==== Sys2Proof/Machine/Ops.lean ====
section
/-! DEFINITION. The named operations on the state: registers (spec 10_state.md R20 to R29), the status registers (R31 to
R38), memory (20_memory.md), taking an exception and returning from one (60_exceptions.md R603, R614), writes of the
pc (R28, R29, R232), and the end of an instruction. -/

namespace Sys2Proof.Machine

/-! ## Processor modes -/

/-- The banks of the general registers (R22). -/
inductive Bank where
  | usr | fiq | irq | svc | abt | und
  deriving DecidableEq, Repr

/-- The numbers of the modes (R32). -/
def modeUser : BitVec 5 := 0b10000#5
def modeFiq : BitVec 5 := 0b10001#5
def modeIrq : BitVec 5 := 0b10010#5
def modeSupervisor : BitVec 5 := 0b10011#5
def modeAbort : BitVec 5 := 0b10111#5
def modeUndefined : BitVec 5 := 0b11011#5
def modeSystem : BitVec 5 := 0b11111#5

/-- Whether a number is a mode of the processor (R32): System exists in version 4 and above. -/
def modeLegal (a : Arch) (m : BitVec 5) : Bool :=
  m == modeUser || m == modeFiq || m == modeIrq || m == modeSupervisor || m == modeAbort || m == modeUndefined ||
    (m == modeSystem && a.atLeast4)

/-- The bank that a mode sees (R22). User and System share one; a number that is no mode never stands in the CPSR
(`Fault.illegalMode`) and is given the same. -/
def bankOf (m : BitVec 5) : Bank :=
  if m = modeFiq then .fiq
  else if m = modeIrq then .irq
  else if m = modeSupervisor then .svc
  else if m = modeAbort then .abt
  else if m = modeUndefined then .und
  else .usr

/-- All modes except User are privileged (R32). -/
def State.privileged (s : State) : Bool := s.cpsr.m != modeUser

/-- Whether the current mode has an SPSR (R33): not User, not System. -/
def State.hasSpsr (s : State) : Bool := s.cpsr.m != modeUser && s.cpsr.m != modeSystem

/-! ## General registers -/

/-- The place of r13 of a bank in `State.gpr`; r14 follows it. -/
def Bank.stackIndex : Bank → Fin 30
  | .usr => 18
  | .fiq => 20
  | .irq => 22
  | .svc => 24
  | .abt => 26
  | .und => 28

/-- The physical register that a bank shows as r0 to r14 (R22). r15 is no general register: the operations below never
ask for it. -/
def physReg (b : Bank) (r : Reg) : Fin 30 :=
  if r.toNat < 8 then Fin.ofNat 30 r.toNat
  else if r.toNat < 13 then
    if b = .fiq then Fin.ofNat 30 (r.toNat + 5) else Fin.ofNat 30 r.toNat
  else if r = 14#4 then b.stackIndex + 1
  else b.stackIndex

/-- The instruction size in the current state: 4 bytes in ARM state, 2 in Thumb state (R100). -/
def State.size (s : State) : Word := if s.cpsr.t then 2#32 else 4#32

/-- What an instruction reads as r15 (R27): `cur + 8` in ARM state, `cur + 4` in Thumb state. -/
def State.pcRead (s : State) : Word := if s.cpsr.t then s.pc + 4#32 else s.pc + 8#32

/-- `R[r]` as a bank shows it, for r0 to r14. -/
def State.bankReg (s : State) (b : Bank) (r : Reg) : Word := s.gpr.get (physReg b r)

/-- `R[r] <- v` in a bank, for r0 to r14. -/
def State.setBankReg (s : State) (b : Bank) (r : Reg) (v : Word) : State :=
  { s with gpr := s.gpr.set (physReg b r) v }

/-- `R[r]` as the instruction sees it (R11, R22, R27). -/
def State.reg (s : State) (r : Reg) : Word :=
  if r = 15#4 then s.pcRead else s.bankReg (bankOf s.cpsr.m) r

/-- `R[r] <- v` in the current mode. A write of r15 is a branch and never comes here (R11): it would change nothing. -/
def State.setReg (s : State) (r : Reg) (v : Word) : State :=
  if r = 15#4 then s else s.setBankReg (bankOf s.cpsr.m) r v

/-- `R_usr[r]` (R11, R22). -/
def State.userReg (s : State) (r : Reg) : Word := s.bankReg .usr r

/-- `R_usr[r] <- v` (R11, R22). -/
def State.setUserReg (s : State) (r : Reg) (v : Word) : State :=
  if r = 15#4 then s else s.setBankReg .usr r v

/-- A low register number as a register number (R23). -/
def lowReg (r : LowReg) : Reg := r.zeroExtend 4

/-! ## Small updates -/

/-- Set the address of the next instruction. -/
def State.setPc (s : State) (a : Word) : State := { s with pc := a }

/-- Set N, Z, C and V. -/
def State.setNzcv (s : State) (f : Nzcv) : State := { s with cpsr := s.cpsr.withNzcv f }

/-- Set N, Z, C and V only if the instruction's S suffix is there (R273). -/
def State.setNzcvIf (s : State) (b : Bool) (f : Nzcv) : State := if b then s.setNzcv f else s

/-- Set the sticky Q flag when `b` holds; nothing clears it here (R36). -/
def State.setQIf (s : State) (b : Bool) : State := { s with cpsr := { s.cpsr with q := s.cpsr.q || b } }

/-- Set the state bit T (R24). -/
def State.setThumb (s : State) (b : Bool) : State := { s with cpsr := { s.cpsr with t := b } }

/-- Replace the whole CPSR. -/
def State.setCpsr (s : State) (p : Psr) : State := { s with cpsr := p }

/-- Set the XScale accumulator (R46). -/
def State.setAcc (s : State) (v : BitVec 40) : State := { s with acc0 := v }

/-- The next bit drawn from `NONDET` (R9, D25). -/
def State.drawBit (s : State) (k : Nat) : Bool := Config.freeBit (s.draws + k)

/-- The state after `k` draws. -/
def State.drawn (s : State) (k : Nat) : State := { s with draws := s.draws + k }

/-! ## Status registers -/

/-- A PSR as a word (R31): every reserved bit reads as 0 (R38). -/
def Psr.toWord (p : Psr) : Word :=
  bit4 p.n p.z p.c p.v ++ bit1 p.q ++ (0#19 : BitVec 19) ++ bit3 p.i p.f p.t ++ p.m

/-- The fields of a word as a PSR (R31). Q exists only in E variants and T only in T variants; elsewhere they are
reserved bits, whose written values are dropped (R38). -/
def Psr.ofWord (a : Arch) (w : Word) : Psr :=
  { n := w.getLsbD 31, z := w.getLsbD 30, c := w.getLsbD 29, v := w.getLsbD 28
    q := w.getLsbD 27 && a.enhanced
    i := w.getLsbD 7, f := w.getLsbD 6, t := w.getLsbD 5 && a.thumb
    m := w.extractLsb' 0 5 }

/-- The SPSR of a bank; the User bank has none and shows the CPSR, which no instruction asks for (R33). -/
def State.spsrOf (s : State) : Bank → Psr
  | .usr => s.cpsr
  | .fiq => s.spsrFiq
  | .irq => s.spsrIrq
  | .svc => s.spsrSvc
  | .abt => s.spsrAbt
  | .und => s.spsrUnd

/-- Write the SPSR of a bank; the User bank has none (R33). -/
def State.setSpsrOf (s : State) (b : Bank) (p : Psr) : State :=
  match b with
  | .usr => s
  | .fiq => { s with spsrFiq := p }
  | .irq => { s with spsrIrq := p }
  | .svc => { s with spsrSvc := p }
  | .abt => { s with spsrAbt := p }
  | .und => { s with spsrUnd := p }

/-- The SPSR of the current mode (R33). -/
def State.spsr (s : State) : Psr := s.spsrOf (bankOf s.cpsr.m)

/-- Write the SPSR of the current mode (R33). -/
def State.setSpsr (s : State) (p : Psr) : State := s.setSpsrOf (bankOf s.cpsr.m) p

/-! ## How an instruction can end early -/

/-- The seven exceptions (R601). -/
inductive Exc where
  | reset | undefined | swi | prefetchAbort | dataAbort | irq | fiq
  deriving DecidableEq, Repr

/-- What makes an instruction end without its effect: an exception to be taken, a fault, a refusal (R11, R16, R620). -/
inductive Trap where
  | exc (e : Exc)
  | fault (f : Fault)
  | refused (r : Refusal)
  deriving DecidableEq, Repr

/-- `raise e` (R11). -/
def raise {α : Type} (e : Exc) : Except Trap α := .error (.exc e)

/-- `UNPREDICTABLE`, treated as a fault (R11, D9). -/
def stop {α : Type} (f : Fault) : Except Trap α := .error (.fault f)

/-- Go on only if `b` does not hold. -/
def forbid (b : Bool) (f : Fault) : Except Trap Unit := if b then stop f else .ok ()

/-! ## Memory -/

/-- The byte at an address; one that nothing has written has no value (R51, R860, notes/assumptions/3). -/
def Memory.read : Memory → Nat → Option Byte
  | [], _ => none
  | (a, b) :: m, k => if k = a then some b else Memory.read m k

/-- Write a byte, keeping the canonical form. -/
def Memory.write : Memory → Nat → Byte → Memory
  | [], k, v => [(k, v)]
  | (a, b) :: m, k, v =>
    if k < a then (k, v) :: (a, b) :: m
    else if k = a then (k, v) :: m
    else (a, b) :: Memory.write m k v

/-- The addresses are at least `lo`, strictly rising and inside the address space. -/
def Memory.wfFrom : Nat → Memory → Bool
  | _, [] => true
  | lo, (a, _) :: m => decide (lo ≤ a) && decide (a < 2 ^ 32) && Memory.wfFrom (a + 1) m

/-- The canonical form of a memory. -/
def Memory.wf (m : Memory) : Bool := Memory.wfFrom 0 m

/-- `Mem[a]` (R70): the model's read of one byte; none where nothing has written it. -/
def State.byte (s : State) (a : Word) : Option Byte := s.mem.read a.toNat

/-- `Mem[a] <- v` (R70). -/
def State.setByte (s : State) (a : Word) (v : Byte) : State := { s with mem := s.mem.write a.toNat v }

/-- `MemRead(a, 2)` (R72) in the configured byte order; none where a byte of it has no value. -/
def State.half (s : State) (a : Word) : Option Half := do
  let b0 ← s.byte a
  let b1 ← s.byte (a + 1#32)
  pure (if s.cfg.bigEndian then b0 ++ b1 else b1 ++ b0)

/-- `MemRead(a, 4)` (R72) in the configured byte order; none where a byte of it has no value. -/
def State.word (s : State) (a : Word) : Option Word := do
  let b0 ← s.byte a
  let b1 ← s.byte (a + 1#32)
  let b2 ← s.byte (a + 2#32)
  let b3 ← s.byte (a + 3#32)
  pure (if s.cfg.bigEndian then b0 ++ b1 ++ b2 ++ b3 else b3 ++ b2 ++ b1 ++ b0)

/-- The `n` words from `a` in ascending address order; none where one of them has no value. -/
def State.words (s : State) : Nat → Word → Option (List Word)
  | 0, _ => some []
  | n + 1, a => do
    let v ← s.word a
    let vs ← s.words n (a + 4#32)
    pure (v :: vs)

/-- `MemWrite(a, 2, v)` (R72). -/
def State.setHalf (s : State) (a : Word) (v : Half) : State :=
  if s.cfg.bigEndian then (s.setByte a (v.extractLsb' 8 8)).setByte (a + 1#32) (v.extractLsb' 0 8)
  else (s.setByte a (v.extractLsb' 0 8)).setByte (a + 1#32) (v.extractLsb' 8 8)

/-- `MemWrite(a, 4, v)` (R72). -/
def State.setWord (s : State) (a : Word) (v : Word) : State :=
  if s.cfg.bigEndian then
    (((s.setByte a (v.extractLsb' 24 8)).setByte (a + 1#32) (v.extractLsb' 16 8)).setByte (a + 2#32)
      (v.extractLsb' 8 8)).setByte (a + 3#32) (v.extractLsb' 0 8)
  else
    (((s.setByte a (v.extractLsb' 0 8)).setByte (a + 1#32) (v.extractLsb' 8 8)).setByte (a + 2#32)
      (v.extractLsb' 16 8)).setByte (a + 3#32) (v.extractLsb' 24 8)

/-- The kinds of access that `MemAllowed` is asked about (R80). -/
inductive Access where
  | read | write | fetch
  deriving DecidableEq, Repr

/-- Whether an entry names the size of an access. -/
def Region.hasSize (r : Region) (size : Nat) : Bool :=
  match size with
  | 1 => r.bytes
  | 2 => r.halves
  | 4 => r.words
  | _ => false

/-- Whether an entry names the kind of an access. -/
def Region.hasKind (r : Region) (k : Access) : Bool :=
  match k with
  | .read => r.reads
  | .write => r.writes
  | .fetch => r.fetches

/-- Whether an entry denies an access of `size` bytes at `a` (R80). -/
def Region.denies (r : Region) (a : Word) (size : Nat) (k : Access) (privileged : Bool) : Bool :=
  Region.hasSize r size && Region.hasKind r k && (if privileged then r.privileged else r.user) &&
    decide (r.lo.toNat ≤ a.toNat) && decide (a.toNat ≤ r.hi.toNat)

/-- `MemAllowed(a, size, kind, privileged)` (R80): no entry of the configuration denies the access. -/
def State.allowed (s : State) (a : Word) (size : Nat) (k : Access) (privileged : Bool) : Bool :=
  s.cfg.denied.all fun r => !Region.denies r a size k privileged

/-- What memory holds, for an instruction that reads it: what nothing has written faults (R51, R860). -/
def orUnwritten {α : Type} : Option α → Except Trap α
  | some v => .ok v
  | none => stop .unwritten

/-- An access that the memory system refuses raises a Data Abort (R80). -/
def State.checkAllowed (s : State) (a : Word) (size : Nat) (k : Access) (privileged : Bool) : Except Trap Unit :=
  if s.allowed a size k privileged then .ok () else raise .dataAbort

/-- A byte read (R80, R51). -/
def State.readByte (s : State) (a : Word) (privileged : Bool) : Except Trap Byte := do
  s.checkAllowed a 1 .read privileged
  orUnwritten (s.byte a)

/-- A halfword read (R80, R51). -/
def State.readHalf (s : State) (a : Word) (privileged : Bool) : Except Trap Half := do
  s.checkAllowed a 2 .read privileged
  orUnwritten (s.half a)

/-- A word read (R80, R51). -/
def State.readWord (s : State) (a : Word) (privileged : Bool) : Except Trap Word := do
  s.checkAllowed a 4 .read privileged
  orUnwritten (s.word a)

/-- Every one of the `n` words from `a` may be read (R80). -/
def State.checkReads (s : State) (privileged : Bool) : Nat → Word → Except Trap Unit
  | 0, _ => .ok ()
  | n + 1, a => do
    s.checkAllowed a 4 .read privileged
    s.checkReads privileged n (a + 4#32)

/-- A byte write that may raise a Data Abort (R80). -/
def State.writeByte (s : State) (a : Word) (v : Byte) (privileged : Bool) : Except Trap State :=
  if s.allowed a 1 .write privileged then .ok (s.setByte a v) else raise .dataAbort

/-- A halfword write that may raise a Data Abort (R80). -/
def State.writeHalf (s : State) (a : Word) (v : Half) (privileged : Bool) : Except Trap State :=
  if s.allowed a 2 .write privileged then .ok (s.setHalf a v) else raise .dataAbort

/-- A word write that may raise a Data Abort (R80). -/
def State.writeWord (s : State) (a : Word) (v : Word) (privileged : Bool) : Except Trap State :=
  if s.allowed a 4 .write privileged then .ok (s.setWord a v) else raise .dataAbort

/-- `n` words read in ascending address order from `a` (R71, R83); a refused one comes before one that has no value
(R607, notes/assumptions/10). -/
def State.readWords (s : State) (privileged : Bool) (n : Nat) (a : Word) : Except Trap (List Word) := do
  s.checkReads privileged n a
  orUnwritten (s.words n a)

/-- A double word read as its two words (R71), in the order of `State.readWords`. -/
def State.readPair (s : State) (privileged : Bool) (a : Word) : Except Trap (Word × Word) := do
  s.checkReads privileged 2 a
  let v ← orUnwritten (s.word a)
  let w ← orUnwritten (s.word (a + 4#32))
  pure (v, w)

/-- Words written in ascending address order from `a` (R71, R83). -/
def State.writeWords (s : State) (privileged : Bool) : List Word → Word → Except Trap State
  | [], _ => .ok s
  | v :: vs, a => do
    let t ← s.writeWord a v privileged
    t.writeWords privileged vs (a + 4#32)

/-- A transfer of `n` words from `a` (a multiple of 4) must not pass 0xFFFFFFFC (R78). -/
def checkTransfer (a : Word) (n : Nat) : Except Trap Unit :=
  forbid (decide (2 ^ 32 < a.toNat + 4 * n)) .transferWrap

/-- An access that must be aligned to `mask + 1` bytes and has no meaning otherwise (R75): a Data Abort with alignment
checking, else a fault. -/
def State.checkAligned (s : State) (a mask : Word) : Except Trap Unit :=
  if a &&& mask = 0#32 then .ok () else if s.cfg.alignCheck then raise .dataAbort else stop .misaligned

/-- An access that has a meaning at every address unless alignment checking is on (R75). -/
def State.checkWordAligned (s : State) (a : Word) : Except Trap Unit :=
  if s.cfg.alignCheck && a &&& 3#32 != 0#32 then raise .dataAbort else .ok ()

/-- An address rounded down to a multiple of four (R75). -/
def wordAddress (a : Word) : Word := a &&& 0xFFFFFFFC#32

/-- The rotation of a misaligned ARM word load (R75). -/
def rotateLoaded (a data : Word) : Word := data.rotateRight (8 * (a &&& 3#32).toNat)

/-! ## The program counter -/

/-- `next` (R11, R26). -/
def State.next (s : State) : Word := s.pc + s.size

/-- `pc <- next`, which faults when execution would run off the top of the address space (R29). -/
def State.advance (s : State) : Except Trap State :=
  if s.pc = 0#32 - s.size then stop .pcWrap else .ok (s.setPc s.next)

/-- An interworking branch (R28(b), R332): bit 0 selects the state. -/
def State.branchExchange (s : State) (v : Word) : Except Trap State :=
  if v.getLsbD 0 then
    if s.cfg.arch.thumb then .ok ((s.setThumb true).setPc (v &&& 0xFFFFFFFE#32)) else stop .noThumb
  else if v.getLsbD 1 then stop .pcTarget
  else .ok ((s.setThumb false).setPc v)

/-- A write of r15 by an ARM data-processing instruction without S (R28(c), R272(a)). -/
def State.writePc (s : State) (v : Word) : Except Trap State :=
  if s.cfg.arch.atLeast4 then
    if v &&& 3#32 = 0#32 then .ok (s.setPc v) else stop .pcTarget
  else .ok (s.setPc (v &&& 0xFFFFFFFC#32))

/-- A load of r15 (R232). -/
def State.loadPc (s : State) (v : Word) : Except Trap State :=
  if s.cfg.arch.hasT5 then
    if v &&& 3#32 = 2#32 then stop .pcTarget
    else .ok ((s.setThumb (v.getLsbD 0)).setPc (v &&& 0xFFFFFFFE#32))
  else s.writePc v

/-- The value that `STR pc` and `STM {.., pc}` store (R233). -/
def State.pcStored (s : State) : Word :=
  match s.cfg.pcStoreOffset with
  | .eight => s.pc + 8#32
  | .twelve => s.pc + 12#32

/-- The value of a register as a word store stores it (R233). -/
def State.regStored (s : State) (r : Reg) : Word := if r = 15#4 then s.pcStored else s.reg r

/-! ## Exceptions -/

/-- The mode that an exception enters (R601, R603). -/
def Exc.mode : Exc → BitVec 5
  | .reset => modeSupervisor
  | .undefined => modeUndefined
  | .swi => modeSupervisor
  | .prefetchAbort => modeAbort
  | .dataAbort => modeAbort
  | .irq => modeIrq
  | .fiq => modeFiq

/-- The offset of an exception's vector (R601, R603). -/
def Exc.offset : Exc → Word
  | .reset => 0x00#32
  | .undefined => 0x04#32
  | .swi => 0x08#32
  | .prefetchAbort => 0x0C#32
  | .dataAbort => 0x10#32
  | .irq => 0x18#32
  | .fiq => 0x1C#32

/-- Whether an exception also disables FIQ (R601, R603). -/
def Exc.masksFiq : Exc → Bool
  | .reset => true
  | .undefined => false
  | .swi => false
  | .prefetchAbort => false
  | .dataAbort => false
  | .irq => false
  | .fiq => true

/-- The link value (R601), `s` being the state before the instruction; Reset has none. -/
def State.link (s : State) : Exc → Word
  | .reset => 0#32
  | .undefined => s.next
  | .swi => s.next
  | .prefetchAbort => s.pc + 4#32
  | .dataAbort => s.pc + 8#32
  | .irq => s.pc + 4#32
  | .fiq => s.pc + 4#32

/-- `TakeException(kind, ret)` (R603) for the six exceptions that save a link: the old CPSR goes to the SPSR of the mode
entered, `ret` to its r14; then T is cleared, I set, F set by FIQ, and the pc is the vector's address. -/
def State.enter (s : State) (e : Exc) (ret : Word) : State :=
  let b := bankOf e.mode
  let s1 := (s.setBankReg b 14#4 ret).setSpsrOf b s.cpsr
  { s1 with
    cpsr := { s.cpsr with m := e.mode, t := false, i := true, f := s.cpsr.f || e.masksFiq }
    pc := s.cfg.vectorBase + e.offset }

/-- Reset (R613(c), R701): every item as R50 has it; memory and what belongs to the platform or the model stay. The items
that R50 leaves unspecified get the values of `State.reset` (notes/assumptions/4). R50 and R701 say nothing of the generic
coprocessors' own state: the record of their commands stays, by the model's choice (notes/assumptions/8). -/
def State.resetEntry (s : State) : State :=
  { State.reset with
    pc := s.cfg.vectorBase
    fpsid := s.fpsid, mem := s.mem, cfg := s.cfg, draws := s.draws, coproc := s.coproc, answer := s.answer
    inputs := s.inputs, exited := s.exited }

/-- Take an exception at an instruction whose effects are discarded (R603, R620). -/
def State.takeException (s : State) (e : Exc) : State :=
  match e with
  | .reset => s.resetEntry
  | e => s.enter e (s.link e)

/-- An exception return (R272(b), R253, R614): `CPSR <- SPSR` of the mode that `s` is in, then the pc, aligned by the
restored state. `t` is the state whose registers the instruction has written; its mode is that of `s`. -/
def State.exceptionReturn (t : State) (v : Word) : Except Trap State := do
  forbid (!t.hasSpsr) .noSpsr
  let p := t.spsr
  forbid (!modeLegal t.cfg.arch p.m) .illegalMode
  forbid (p.t && !t.cfg.arch.thumb) .noThumb
  pure ((t.setCpsr p).setPc (if p.t then v &&& 0xFFFFFFFE#32 else v &&& 0xFFFFFFFC#32))

/-! ## The end of an instruction -/

/-- From what an instruction's rule answers to the outcome of the step (R16, R620): an exception discards the rule's
effects and is taken from the state before the instruction. -/
def State.finish (s : State) (r : Except Trap State) : Host.Outcome State Fault Refusal :=
  match r with
  | .ok t => .next t
  | .error (.exc e) => .next (s.takeException e)
  | .error (.fault f) => .fault f
  | .error (.refused q) => .refused q

/-- A conditional ARM instruction (R11, R35): a failed condition makes it a no-operation. -/
def State.ifPassed (s : State) (c : Cond) (rule : State → Except Trap State) : Host.Outcome State Fault Refusal :=
  s.finish (if s.cpsr.passed c then rule s else s.advance)

/-- An instruction without a condition. -/
def State.always (s : State) (rule : State → Except Trap State) : Host.Outcome State Fault Refusal :=
  s.finish (rule s)

end Sys2Proof.Machine
end

