-- ==== Sys2Proof/Machine/Operands.lean ====
section
/-! DEFINITION. The operand forms: the flexible second operand (spec 41_arm_data_processing.md R262 to R269), the address
forms of the single transfers (40_arm_memory_access.md R230, R231, R242), the register lists and addresses of the
multiple transfers (R249), and what the data-processing templates do with a result (R272, R273). -/

namespace Sys2Proof.Machine

/-! ## Operand2 -/

/-- A shifter operand and its carry-out (R262). -/
structure Shifted where
  value : Word
  carry : Bool
  deriving DecidableEq, Repr

/-- LSL by `n >= 1` (R263, R268). -/
def shiftLsl (v : Word) (n : Nat) : Shifted := { value := v <<< n, carry := decide (n ≤ 32) && v.getLsbD (32 - n) }

/-- LSR by `n >= 1` (R264, R268). -/
def shiftLsr (v : Word) (n : Nat) : Shifted := { value := v >>> n, carry := v.getLsbD (n - 1) }

/-- ASR by `n >= 1` (R265, R268). -/
def shiftAsr (v : Word) (n : Nat) : Shifted :=
  { value := v.sshiftRight n, carry := if n ≤ 32 then v.getLsbD (n - 1) else v.msb }

/-- ROR by `n >= 1` (R266, R268): a multiple of 32 leaves the value and carries out bit 31. -/
def shiftRor (v : Word) (n : Nat) : Shifted :=
  if n % 32 = 0 then { value := v, carry := v.msb }
  else { value := v.rotateRight (n % 32), carry := v.getLsbD (n % 32 - 1) }

/-- RRX (R267). -/
def shiftRrx (v : Word) (c : Bool) : Shifted := { value := bit1 c ++ v.extractLsb' 1 31, carry := v.getLsbD 0 }

/-- A shift by an amount from a register (R268): an amount of 0 leaves the value and the carry. -/
def shiftBy (t : ShiftType) (v : Word) (n : Nat) (c : Bool) : Shifted :=
  if n = 0 then { value := v, carry := c }
  else
    match t with
    | .lsl => shiftLsl v n
    | .lsr => shiftLsr v n
    | .asr => shiftAsr v n
    | .ror => shiftRor v n

/-- A shift by a constant (R105, R263 to R267): a field of 0 is LSL #0, LSR #32, ASR #32 and RRX. -/
def shiftConst (t : ShiftType) (v : Word) (imm : BitVec 5) (c : Bool) : Shifted :=
  if imm = 0#5 then
    match t with
    | .lsl => { value := v, carry := c }
    | .lsr => shiftLsr v 32
    | .asr => shiftAsr v 32
    | .ror => shiftRrx v c
  else shiftBy t v imm.toNat c

/-- `#immed_8r` (R104, R269). -/
def rotatedImm (rot : BitVec 4) (imm8 : BitVec 8) : Word := (imm8.zeroExtend 32).rotateRight (2 * rot.toNat)

/-- Operand2 `#immed_8r` (R262, R269). -/
def State.op2Imm (s : State) (rot : BitVec 4) (imm8 : BitVec 8) : Shifted :=
  { value := rotatedImm rot imm8, carry := if rot = 0#4 then s.cpsr.c else (rotatedImm rot imm8).msb }

/-- Operand2 `Rm, shift #n` (R262 to R267). -/
def State.op2Const (s : State) (imm : BitVec 5) (t : ShiftType) (rm : Reg) : Shifted :=
  shiftConst t (s.reg rm) imm s.cpsr.c

/-- Operand2 `Rm, type Rs` (R262, R268): only the least significant byte of Rs counts. -/
def State.op2Reg (s : State) (rs : Reg) (t : ShiftType) (rm : Reg) : Shifted :=
  shiftBy t (s.reg rm) ((s.reg rs).extractLsb' 0 8).toNat s.cpsr.c

/-! ## The data-processing template (R273) -/

/-- Write a result to Rd with the flags `f` under S; Rd = r15 is a branch, and an exception return with S (R272). -/
def State.writeResult (s : State) (setFlags : Bool) (rd : Reg) (result : Word) (f : Nzcv) : Except Trap State :=
  if rd = 15#4 then
    if setFlags then s.exceptionReturn result else s.writePc result
  else ((s.setReg rd result).setNzcvIf setFlags f).advance

/-- An arithmetic result (R273). -/
def State.writeSum (s : State) (setFlags : Bool) (rd : Reg) (r : AddResult) : Except Trap State :=
  s.writeResult setFlags rd r.value r.nzcv

/-- A logical result with the shifter's carry (R270, R273). -/
def State.writeLogical (s : State) (setFlags : Bool) (rd : Reg) (v : Word) (carry : Bool) : Except Trap State :=
  s.writeResult setFlags rd v (logicalNzcv s.cpsr v carry)

/-- A comparison: only the flags are written (R286, R287). -/
def State.compareSum (s : State) (r : AddResult) : Except Trap State := (s.setNzcv r.nzcv).advance

/-- A test: only the flags are written (R288, R289). -/
def State.testLogical (s : State) (v : Word) (carry : Bool) : Except Trap State :=
  (s.setNzcv (logicalNzcv s.cpsr v carry)).advance

/-- Whether a register number is r15. -/
def isPc (r : Reg) : Bool := r == 15#4

/-! ## Addresses of the single transfers -/

/-- An address form (R230): the address used and, with writeback, what the base register becomes. -/
structure Address where
  addr : Word
  target : Word
  writeback : Bool
  deriving DecidableEq, Repr

/-- `base + off` or `base - off` (R230). -/
def offsetBy (u : Bool) (base off : Word) : Word := if u then base + off else base - off

/-- The four address forms (R230): P = 0 is post-indexed, W = 1 pre-indexed with writeback. -/
def State.addressForm (s : State) (p u w : Bool) (rn : Reg) (off : Word) : Address :=
  let target := offsetBy u (s.reg rn) off
  { addr := if p then target else s.reg rn, target := target, writeback := !p || w }

/-- Write the base register back if the form says so (R230). -/
def State.writeBack (s : State) (a : Address) (rn : Reg) : State :=
  if a.writeback then s.setReg rn a.target else s

/-- FlexOffset `Rm, shift` (R231). -/
def State.flexOffset (s : State) (imm : BitVec 5) (t : ShiftType) (rm : Reg) : Word := (s.op2Const imm t rm).value

/-- The 8-bit immediate offset of the halfword and double word transfers (R109, R242). -/
def splitOffset (immH immL : BitVec 4) : Word := (immH ++ immL).zeroExtend 32

/-! ## Register lists and the addresses of the multiple transfers -/

/-- The registers of a list in ascending order (R110, R249). -/
def regList {n : Nat} (regs : BitVec n) : List Reg :=
  ((List.range n).filter fun i => regs.getLsbD i).map fun i => BitVec.ofNat 4 i

/-- The lowest address of a multiple transfer of `n` words (R249): P U = 01 IA, 11 IB, 00 DA, 10 DB. -/
def blockStart (p u : Bool) (base : Word) (n : Nat) : Word :=
  let size := BitVec.ofNat 32 (4 * n)
  match p, u with
  | false, true => base
  | true, true => base + 4#32
  | false, false => base - size + 4#32
  | true, false => base - size

/-- What the base register becomes after a multiple transfer of `n` words (R249). -/
def blockEnd (u : Bool) (base : Word) (n : Nat) : Word := offsetBy u base (BitVec.ofNat 32 (4 * n))

/-- Write loaded words to the registers of a list, r15 left out (R250). -/
def State.setRegs (s : State) : List Reg → List Word → State
  | r :: rs, v :: vs => (s.setReg r v).setRegs rs vs
  | [], _ => s
  | _ :: _, [] => s

/-- Write loaded words to the User-mode registers of a list (R252). -/
def State.setUserRegs (s : State) : List Reg → List Word → State
  | r :: rs, v :: vs => (s.setUserReg r v).setUserRegs rs vs
  | [], _ => s
  | _ :: _, [] => s

end Sys2Proof.Machine
end

