-- ==== Sys2Proof/Machine/ArmBranch.lean ====
section
/-! DEFINITION. The ARM branches (spec 43_arm_branch.md). -/

namespace Sys2Proof.Machine

/-- The target of B and BL (R330): the word offset from `cur + 8`. -/
def State.branchTarget (s : State) (imm24 : BitVec 24) : Word := s.pc + 8#32 + ((imm24.signExtend 32) <<< 2)

/-- B (R330). -/
def execB (cond : Cond) (imm24 : BitVec 24) (s : State) : Host.Outcome State Fault Refusal :=
  s.ifPassed cond fun s => .ok (s.setPc (s.branchTarget imm24))

/-- BL (R331). -/
def execBl (cond : Cond) (imm24 : BitVec 24) (s : State) : Host.Outcome State Fault Refusal :=
  s.ifPassed cond fun s => .ok ((s.setReg 14#4 (s.pc + 4#32)).setPc (s.branchTarget imm24))

/-- BX (R332). -/
def execBx (cond : Cond) (rm : Reg) (s : State) : Host.Outcome State Fault Refusal :=
  s.ifPassed cond fun s => s.branchExchange (s.reg rm)

/-- BLX, register form (R333): Rm is read before r14 is written. -/
def execBlxReg (cond : Cond) (rm : Reg) (s : State) : Host.Outcome State Fault Refusal :=
  s.ifPassed cond fun s => do
    forbid (isPc rm) .forbiddenPc
    (s.setReg 14#4 (s.pc + 4#32)).branchExchange (s.reg rm)

/-- BLX, label form (R334): always to Thumb state; H makes the target halfword-aligned. -/
def execBlxLabel (h : Bool) (imm24 : BitVec 24) (s : State) : Host.Outcome State Fault Refusal :=
  s.always fun s =>
    .ok (((s.setReg 14#4 (s.pc + 4#32)).setThumb true).setPc
      (s.branchTarget imm24 + (bit2 h false).zeroExtend 32))

end Sys2Proof.Machine
end

