-- ==== Sys2Proof/Machine/ArmCoprocessor.lean ====
section
/-! DEFINITION. The generic coprocessor instructions (spec 44_arm_coprocessor.md). Which coprocessors are present is a
parameter; what a present one answers comes with the inputs of the step, and the commands it has accepted are recorded
(R340, R47, notes/assumptions/8). -/

namespace Sys2Proof.Machine

/-- Whether `COPROC` has an entry for a number (R340): never for 10 and 11, which are the VFP's, and with no VFP no
coprocessor at all (R152, R500(a)); not for 0, the accumulator's, on XScale. -/
def State.coprocPresent (s : State) (cp : BitVec 4) : Bool :=
  s.cfg.coprocs.getLsbD cp.toNat && cp != 10#4 && cp != 11#4 && !(cp == 0#4 && s.cfg.arch.xscale)

/-- A command as a coprocessor sees it: it is told the mode (R616). -/
def State.coprocEvent (s : State) (cp : BitVec 4) (c : CoprocCommand) : CoprocEvent :=
  { cp := cp, mode := s.cpsr.m, command := c }

/-- An absent coprocessor, or one that does not accept the command, raises Undefined Instruction (R340, D10). -/
def State.coprocCheck (s : State) (cp : BitVec 4) : Except Trap Unit :=
  if s.coprocPresent cp && s.answer.accept then .ok () else raise .undefined

/-- The coprocessor has carried out a command. -/
def State.coprocDone (s : State) (cp : BitVec 4) (c : CoprocCommand) : State :=
  { s with coproc := s.coprocEvent cp c :: s.coproc }

/-- CDP and CDP2 (R341, R342): no ARM state changes. -/
def State.coprocDataOp (s : State) (cp : BitVec 4) (c : CoprocCommand) : Except Trap State := do
  s.coprocCheck cp
  (s.coprocDone cp c).advance

/-- MCR and MCR2 (R343, R344). -/
def State.coprocSend (s : State) (cp : BitVec 4) (rd : Reg) (c : CoprocCommand) : Except Trap State := do
  s.coprocCheck cp
  forbid (isPc rd) .forbiddenPc
  (s.coprocDone cp c).advance

/-- Bits 31 to 28 of a word as the flags (R346). -/
def topFlags (v : Word) : Nzcv := { n := v.getLsbD 31, z := v.getLsbD 30, c := v.getLsbD 29, v := v.getLsbD 28 }

/-- MRC and MRC2 (R346, R347): into r15 only the flags are written. -/
def State.coprocReceive (s : State) (cp : BitVec 4) (rd : Reg) (c : CoprocCommand) : Except Trap State := do
  s.coprocCheck cp
  let v := s.answer.first
  let t := s.coprocDone cp c
  (if rd = 15#4 then t.setNzcv (topFlags v) else t.setReg rd v).advance

/-- LDC and LDC2 (R349, R351). -/
def State.coprocLoad (s : State) (two long : Bool) (cp crd : BitVec 4) (rn : Reg) (a : Address) :
    Except Trap State := do
  s.coprocCheck cp
  forbid (a.writeback && isPc rn) .forbiddenPc
  s.checkAligned a.addr 3#32
  let n := s.answer.count
  checkTransfer a.addr n
  let words ← s.readWords s.privileged n a.addr
  ((s.coprocDone cp (.load two long crd words)).writeBack a rn).advance

/-- STC and STC2 (R350, R352). -/
def State.coprocStore (s : State) (two long : Bool) (cp crd : BitVec 4) (rn : Reg) (a : Address) :
    Except Trap State := do
  s.coprocCheck cp
  forbid (a.writeback && isPc rn) .forbiddenPc
  s.checkAligned a.addr 3#32
  checkTransfer a.addr s.answer.words.length
  let t ← s.writeWords s.privileged s.answer.words a.addr
  ((t.coprocDone cp (.store two long crd s.answer.words)).writeBack a rn).advance

/-- The byte offset of LDC and STC (R349). -/
def coprocOffset (offset8 : BitVec 8) : Word := (offset8 ++ 0#2).zeroExtend 32

/-- CDP (R341). -/
def execCdp (cond : Cond) (opc1 crn crd cp : BitVec 4) (opc2 : BitVec 3) (crm : BitVec 4) (s : State) :
    Host.Outcome State Fault Refusal :=
  s.ifPassed cond fun s => s.coprocDataOp cp (.dataOp false opc1 crn crd opc2 crm)

/-- CDP2 (R342). -/
def execCdp2 (opc1 crn crd cp : BitVec 4) (opc2 : BitVec 3) (crm : BitVec 4) (s : State) :
    Host.Outcome State Fault Refusal :=
  s.always fun s => s.coprocDataOp cp (.dataOp true opc1 crn crd opc2 crm)

/-- MCR (R343). -/
def execMcr (cond : Cond) (opc1 : BitVec 3) (crn : BitVec 4) (rd : Reg) (cp : BitVec 4) (opc2 : BitVec 3)
    (crm : BitVec 4) (s : State) : Host.Outcome State Fault Refusal :=
  s.ifPassed cond fun s => s.coprocSend cp rd (.toCp false opc1 crn opc2 crm (s.reg rd))

/-- MCR2 (R344). -/
def execMcr2 (opc1 : BitVec 3) (crn : BitVec 4) (rd : Reg) (cp : BitVec 4) (opc2 : BitVec 3) (crm : BitVec 4)
    (s : State) : Host.Outcome State Fault Refusal :=
  s.always fun s => s.coprocSend cp rd (.toCp true opc1 crn opc2 crm (s.reg rd))

/-- MRC (R346). -/
def execMrc (cond : Cond) (opc1 : BitVec 3) (crn : BitVec 4) (rd : Reg) (cp : BitVec 4) (opc2 : BitVec 3)
    (crm : BitVec 4) (s : State) : Host.Outcome State Fault Refusal :=
  s.ifPassed cond fun s => s.coprocReceive cp rd (.fromCp false opc1 crn opc2 crm)

/-- MRC2 (R347). -/
def execMrc2 (opc1 : BitVec 3) (crn : BitVec 4) (rd : Reg) (cp : BitVec 4) (opc2 : BitVec 3) (crm : BitVec 4)
    (s : State) : Host.Outcome State Fault Refusal :=
  s.always fun s => s.coprocReceive cp rd (.fromCp true opc1 crn opc2 crm)

/-- MCRR (R345). -/
def execMcrr (cond : Cond) (rn rd : Reg) (cp opc crm : BitVec 4) (s : State) : Host.Outcome State Fault Refusal :=
  s.ifPassed cond fun s => do
    let c := CoprocCommand.toCp2 opc crm (s.reg rd) (s.reg rn)
    s.coprocCheck cp
    forbid (isPc rd || isPc rn) .forbiddenPc
    (s.coprocDone cp c).advance

/-- MRRC (R348). -/
def execMrrc (cond : Cond) (rn rd : Reg) (cp opc crm : BitVec 4) (s : State) : Host.Outcome State Fault Refusal :=
  s.ifPassed cond fun s => do
    let c := CoprocCommand.fromCp2 opc crm
    s.coprocCheck cp
    forbid (isPc rd || isPc rn) .forbiddenPc
    forbid (rd == rn) .sameRegister
    (((s.coprocDone cp c).setReg rd s.answer.first).setReg rn s.answer.second).advance

/-- LDC, offset or pre-indexed (R349). -/
def execLdcPre (cond : Cond) (u long w : Bool) (rn : Reg) (crd cp : BitVec 4) (offset8 : BitVec 8) (s : State) :
    Host.Outcome State Fault Refusal :=
  s.ifPassed cond fun s => s.coprocLoad false long cp crd rn (s.addressForm true u w rn (coprocOffset offset8))

/-- LDC, post-indexed (R349). -/
def execLdcPost (cond : Cond) (u long : Bool) (rn : Reg) (crd cp : BitVec 4) (offset8 : BitVec 8) (s : State) :
    Host.Outcome State Fault Refusal :=
  s.ifPassed cond fun s => s.coprocLoad false long cp crd rn (s.addressForm false u true rn (coprocOffset offset8))

/-- STC, offset or pre-indexed (R350). -/
def execStcPre (cond : Cond) (u long w : Bool) (rn : Reg) (crd cp : BitVec 4) (offset8 : BitVec 8) (s : State) :
    Host.Outcome State Fault Refusal :=
  s.ifPassed cond fun s => s.coprocStore false long cp crd rn (s.addressForm true u w rn (coprocOffset offset8))

/-- STC, post-indexed (R350). -/
def execStcPost (cond : Cond) (u long : Bool) (rn : Reg) (crd cp : BitVec 4) (offset8 : BitVec 8) (s : State) :
    Host.Outcome State Fault Refusal :=
  s.ifPassed cond fun s => s.coprocStore false long cp crd rn (s.addressForm false u true rn (coprocOffset offset8))

/-- LDC2, offset or pre-indexed (R351). -/
def execLdc2Pre (u long w : Bool) (rn : Reg) (crd cp : BitVec 4) (offset8 : BitVec 8) (s : State) :
    Host.Outcome State Fault Refusal :=
  s.always fun s => s.coprocLoad true long cp crd rn (s.addressForm true u w rn (coprocOffset offset8))

/-- LDC2, post-indexed (R351). -/
def execLdc2Post (u long : Bool) (rn : Reg) (crd cp : BitVec 4) (offset8 : BitVec 8) (s : State) :
    Host.Outcome State Fault Refusal :=
  s.always fun s => s.coprocLoad true long cp crd rn (s.addressForm false u true rn (coprocOffset offset8))

/-- STC2, offset or pre-indexed (R352). -/
def execStc2Pre (u long w : Bool) (rn : Reg) (crd cp : BitVec 4) (offset8 : BitVec 8) (s : State) :
    Host.Outcome State Fault Refusal :=
  s.always fun s => s.coprocStore true long cp crd rn (s.addressForm true u w rn (coprocOffset offset8))

/-- STC2, post-indexed (R352). -/
def execStc2Post (u long : Bool) (rn : Reg) (crd cp : BitVec 4) (offset8 : BitVec 8) (s : State) :
    Host.Outcome State Fault Refusal :=
  s.always fun s => s.coprocStore true long cp crd rn (s.addressForm false u true rn (coprocOffset offset8))

end Sys2Proof.Machine
end

