-- ==== Sys2Proof/Machine/ArmData.lean ====
section
/-! DEFINITION. The ARM general data-processing instructions (spec 41_arm_data_processing.md): the sixteen operations in
their three operand forms, and CLZ. -/

namespace Sys2Proof.Machine

/-! ## AND -/

/-- AND, shift by register (R280, R273, R262). -/
def execAndRegReg (cond : Cond) (setFlags : Bool) (rn rd : Reg) (rs : Reg) (shift : ShiftType) (rm : Reg) (s : State) :
    Host.Outcome State Fault Refusal :=
  s.ifPassed cond fun s => do
    forbid (isPc rn || isPc rd || isPc rs || isPc rm) .forbiddenPc
    let o := s.op2Reg rs shift rm
    s.writeLogical setFlags rd (s.reg rn &&& o.value) o.carry

/-- AND, shift by constant (R280, R273). -/
def execAndRegImm (cond : Cond) (setFlags : Bool) (rn rd : Reg) (shiftImm : BitVec 5) (shift : ShiftType) (rm : Reg)
    (s : State) :
    Host.Outcome State Fault Refusal :=
  s.ifPassed cond fun s => do
    let o := s.op2Const shiftImm shift rm
    s.writeLogical setFlags rd (s.reg rn &&& o.value) o.carry

/-- AND, immediate (R280, R273). -/
def execAndImm (cond : Cond) (setFlags : Bool) (rn rd : Reg) (rot : BitVec 4) (imm8 : BitVec 8) (s : State) :
    Host.Outcome State Fault Refusal :=
  s.ifPassed cond fun s => do
    let o := s.op2Imm rot imm8
    s.writeLogical setFlags rd (s.reg rn &&& o.value) o.carry

/-! ## EOR -/

/-- EOR, shift by register (R282, R273, R262). -/
def execEorRegReg (cond : Cond) (setFlags : Bool) (rn rd : Reg) (rs : Reg) (shift : ShiftType) (rm : Reg) (s : State) :
    Host.Outcome State Fault Refusal :=
  s.ifPassed cond fun s => do
    forbid (isPc rn || isPc rd || isPc rs || isPc rm) .forbiddenPc
    let o := s.op2Reg rs shift rm
    s.writeLogical setFlags rd (s.reg rn ^^^ o.value) o.carry

/-- EOR, shift by constant (R282, R273). -/
def execEorRegImm (cond : Cond) (setFlags : Bool) (rn rd : Reg) (shiftImm : BitVec 5) (shift : ShiftType) (rm : Reg)
    (s : State) :
    Host.Outcome State Fault Refusal :=
  s.ifPassed cond fun s => do
    let o := s.op2Const shiftImm shift rm
    s.writeLogical setFlags rd (s.reg rn ^^^ o.value) o.carry

/-- EOR, immediate (R282, R273). -/
def execEorImm (cond : Cond) (setFlags : Bool) (rn rd : Reg) (rot : BitVec 4) (imm8 : BitVec 8) (s : State) :
    Host.Outcome State Fault Refusal :=
  s.ifPassed cond fun s => do
    let o := s.op2Imm rot imm8
    s.writeLogical setFlags rd (s.reg rn ^^^ o.value) o.carry

/-! ## SUB -/

/-- SUB, shift by register (R275, R273, R262). -/
def execSubRegReg (cond : Cond) (setFlags : Bool) (rn rd : Reg) (rs : Reg) (shift : ShiftType) (rm : Reg) (s : State) :
    Host.Outcome State Fault Refusal :=
  s.ifPassed cond fun s => do
    forbid (isPc rn || isPc rd || isPc rs || isPc rm) .forbiddenPc
    let o := s.op2Reg rs shift rm
    s.writeSum setFlags rd (aluSub (s.reg rn) o.value)

/-- SUB, shift by constant (R275, R273). -/
def execSubRegImm (cond : Cond) (setFlags : Bool) (rn rd : Reg) (shiftImm : BitVec 5) (shift : ShiftType) (rm : Reg)
    (s : State) :
    Host.Outcome State Fault Refusal :=
  s.ifPassed cond fun s => do
    let o := s.op2Const shiftImm shift rm
    s.writeSum setFlags rd (aluSub (s.reg rn) o.value)

/-- SUB, immediate (R275, R273). -/
def execSubImm (cond : Cond) (setFlags : Bool) (rn rd : Reg) (rot : BitVec 4) (imm8 : BitVec 8) (s : State) :
    Host.Outcome State Fault Refusal :=
  s.ifPassed cond fun s => do
    let o := s.op2Imm rot imm8
    s.writeSum setFlags rd (aluSub (s.reg rn) o.value)

/-! ## RSB -/

/-- RSB, shift by register (R276, R273, R262). -/
def execRsbRegReg (cond : Cond) (setFlags : Bool) (rn rd : Reg) (rs : Reg) (shift : ShiftType) (rm : Reg) (s : State) :
    Host.Outcome State Fault Refusal :=
  s.ifPassed cond fun s => do
    forbid (isPc rn || isPc rd || isPc rs || isPc rm) .forbiddenPc
    let o := s.op2Reg rs shift rm
    s.writeSum setFlags rd (aluRsb (s.reg rn) o.value)

/-- RSB, shift by constant (R276, R273). -/
def execRsbRegImm (cond : Cond) (setFlags : Bool) (rn rd : Reg) (shiftImm : BitVec 5) (shift : ShiftType) (rm : Reg)
    (s : State) :
    Host.Outcome State Fault Refusal :=
  s.ifPassed cond fun s => do
    let o := s.op2Const shiftImm shift rm
    s.writeSum setFlags rd (aluRsb (s.reg rn) o.value)

/-- RSB, immediate (R276, R273). -/
def execRsbImm (cond : Cond) (setFlags : Bool) (rn rd : Reg) (rot : BitVec 4) (imm8 : BitVec 8) (s : State) :
    Host.Outcome State Fault Refusal :=
  s.ifPassed cond fun s => do
    let o := s.op2Imm rot imm8
    s.writeSum setFlags rd (aluRsb (s.reg rn) o.value)

/-! ## ADD -/

/-- ADD, shift by register (R274, R273, R262). -/
def execAddRegReg (cond : Cond) (setFlags : Bool) (rn rd : Reg) (rs : Reg) (shift : ShiftType) (rm : Reg) (s : State) :
    Host.Outcome State Fault Refusal :=
  s.ifPassed cond fun s => do
    forbid (isPc rn || isPc rd || isPc rs || isPc rm) .forbiddenPc
    let o := s.op2Reg rs shift rm
    s.writeSum setFlags rd (aluAdd (s.reg rn) o.value)

/-- ADD, shift by constant (R274, R273). -/
def execAddRegImm (cond : Cond) (setFlags : Bool) (rn rd : Reg) (shiftImm : BitVec 5) (shift : ShiftType) (rm : Reg)
    (s : State) :
    Host.Outcome State Fault Refusal :=
  s.ifPassed cond fun s => do
    let o := s.op2Const shiftImm shift rm
    s.writeSum setFlags rd (aluAdd (s.reg rn) o.value)

/-- ADD, immediate (R274, R273). -/
def execAddImm (cond : Cond) (setFlags : Bool) (rn rd : Reg) (rot : BitVec 4) (imm8 : BitVec 8) (s : State) :
    Host.Outcome State Fault Refusal :=
  s.ifPassed cond fun s => do
    let o := s.op2Imm rot imm8
    s.writeSum setFlags rd (aluAdd (s.reg rn) o.value)

/-! ## ADC -/

/-- ADC, shift by register (R277, R273, R262). -/
def execAdcRegReg (cond : Cond) (setFlags : Bool) (rn rd : Reg) (rs : Reg) (shift : ShiftType) (rm : Reg) (s : State) :
    Host.Outcome State Fault Refusal :=
  s.ifPassed cond fun s => do
    forbid (isPc rn || isPc rd || isPc rs || isPc rm) .forbiddenPc
    let o := s.op2Reg rs shift rm
    s.writeSum setFlags rd (aluAdc (s.reg rn) o.value s.cpsr.c)

/-- ADC, shift by constant (R277, R273). -/
def execAdcRegImm (cond : Cond) (setFlags : Bool) (rn rd : Reg) (shiftImm : BitVec 5) (shift : ShiftType) (rm : Reg)
    (s : State) :
    Host.Outcome State Fault Refusal :=
  s.ifPassed cond fun s => do
    let o := s.op2Const shiftImm shift rm
    s.writeSum setFlags rd (aluAdc (s.reg rn) o.value s.cpsr.c)

/-- ADC, immediate (R277, R273). -/
def execAdcImm (cond : Cond) (setFlags : Bool) (rn rd : Reg) (rot : BitVec 4) (imm8 : BitVec 8) (s : State) :
    Host.Outcome State Fault Refusal :=
  s.ifPassed cond fun s => do
    let o := s.op2Imm rot imm8
    s.writeSum setFlags rd (aluAdc (s.reg rn) o.value s.cpsr.c)

/-! ## SBC -/

/-- SBC, shift by register (R278, R273, R262). -/
def execSbcRegReg (cond : Cond) (setFlags : Bool) (rn rd : Reg) (rs : Reg) (shift : ShiftType) (rm : Reg) (s : State) :
    Host.Outcome State Fault Refusal :=
  s.ifPassed cond fun s => do
    forbid (isPc rn || isPc rd || isPc rs || isPc rm) .forbiddenPc
    let o := s.op2Reg rs shift rm
    s.writeSum setFlags rd (aluSbc (s.reg rn) o.value s.cpsr.c)

/-- SBC, shift by constant (R278, R273). -/
def execSbcRegImm (cond : Cond) (setFlags : Bool) (rn rd : Reg) (shiftImm : BitVec 5) (shift : ShiftType) (rm : Reg)
    (s : State) :
    Host.Outcome State Fault Refusal :=
  s.ifPassed cond fun s => do
    let o := s.op2Const shiftImm shift rm
    s.writeSum setFlags rd (aluSbc (s.reg rn) o.value s.cpsr.c)

/-- SBC, immediate (R278, R273). -/
def execSbcImm (cond : Cond) (setFlags : Bool) (rn rd : Reg) (rot : BitVec 4) (imm8 : BitVec 8) (s : State) :
    Host.Outcome State Fault Refusal :=
  s.ifPassed cond fun s => do
    let o := s.op2Imm rot imm8
    s.writeSum setFlags rd (aluSbc (s.reg rn) o.value s.cpsr.c)

/-! ## RSC -/

/-- RSC, shift by register (R279, R273, R262). -/
def execRscRegReg (cond : Cond) (setFlags : Bool) (rn rd : Reg) (rs : Reg) (shift : ShiftType) (rm : Reg) (s : State) :
    Host.Outcome State Fault Refusal :=
  s.ifPassed cond fun s => do
    forbid (isPc rn || isPc rd || isPc rs || isPc rm) .forbiddenPc
    let o := s.op2Reg rs shift rm
    s.writeSum setFlags rd (aluRsc (s.reg rn) o.value s.cpsr.c)

/-- RSC, shift by constant (R279, R273). -/
def execRscRegImm (cond : Cond) (setFlags : Bool) (rn rd : Reg) (shiftImm : BitVec 5) (shift : ShiftType) (rm : Reg)
    (s : State) :
    Host.Outcome State Fault Refusal :=
  s.ifPassed cond fun s => do
    let o := s.op2Const shiftImm shift rm
    s.writeSum setFlags rd (aluRsc (s.reg rn) o.value s.cpsr.c)

/-- RSC, immediate (R279, R273). -/
def execRscImm (cond : Cond) (setFlags : Bool) (rn rd : Reg) (rot : BitVec 4) (imm8 : BitVec 8) (s : State) :
    Host.Outcome State Fault Refusal :=
  s.ifPassed cond fun s => do
    let o := s.op2Imm rot imm8
    s.writeSum setFlags rd (aluRsc (s.reg rn) o.value s.cpsr.c)

/-! ## TST -/

/-- TST, shift by register (R288, R273, R262). -/
def execTstRegReg (cond : Cond) (rn : Reg) (rs : Reg) (shift : ShiftType) (rm : Reg) (s : State) :
    Host.Outcome State Fault Refusal :=
  s.ifPassed cond fun s => do
    forbid (isPc rn || isPc rs || isPc rm) .forbiddenPc
    let o := s.op2Reg rs shift rm
    s.testLogical (s.reg rn &&& o.value) o.carry

/-- TST, shift by constant (R288, R273). -/
def execTstRegImm (cond : Cond) (rn : Reg) (shiftImm : BitVec 5) (shift : ShiftType) (rm : Reg) (s : State) :
    Host.Outcome State Fault Refusal :=
  s.ifPassed cond fun s => do
    let o := s.op2Const shiftImm shift rm
    s.testLogical (s.reg rn &&& o.value) o.carry

/-- TST, immediate (R288, R273). -/
def execTstImm (cond : Cond) (rn : Reg) (rot : BitVec 4) (imm8 : BitVec 8) (s : State) :
    Host.Outcome State Fault Refusal :=
  s.ifPassed cond fun s => do
    let o := s.op2Imm rot imm8
    s.testLogical (s.reg rn &&& o.value) o.carry

/-! ## TEQ -/

/-- TEQ, shift by register (R289, R273, R262). -/
def execTeqRegReg (cond : Cond) (rn : Reg) (rs : Reg) (shift : ShiftType) (rm : Reg) (s : State) :
    Host.Outcome State Fault Refusal :=
  s.ifPassed cond fun s => do
    forbid (isPc rn || isPc rs || isPc rm) .forbiddenPc
    let o := s.op2Reg rs shift rm
    s.testLogical (s.reg rn ^^^ o.value) o.carry

/-- TEQ, shift by constant (R289, R273). -/
def execTeqRegImm (cond : Cond) (rn : Reg) (shiftImm : BitVec 5) (shift : ShiftType) (rm : Reg) (s : State) :
    Host.Outcome State Fault Refusal :=
  s.ifPassed cond fun s => do
    let o := s.op2Const shiftImm shift rm
    s.testLogical (s.reg rn ^^^ o.value) o.carry

/-- TEQ, immediate (R289, R273). -/
def execTeqImm (cond : Cond) (rn : Reg) (rot : BitVec 4) (imm8 : BitVec 8) (s : State) :
    Host.Outcome State Fault Refusal :=
  s.ifPassed cond fun s => do
    let o := s.op2Imm rot imm8
    s.testLogical (s.reg rn ^^^ o.value) o.carry

/-! ## CMP -/

/-- CMP, shift by register (R286, R273, R262). -/
def execCmpRegReg (cond : Cond) (rn : Reg) (rs : Reg) (shift : ShiftType) (rm : Reg) (s : State) :
    Host.Outcome State Fault Refusal :=
  s.ifPassed cond fun s => do
    forbid (isPc rn || isPc rs || isPc rm) .forbiddenPc
    let o := s.op2Reg rs shift rm
    s.compareSum (aluSub (s.reg rn) o.value)

/-- CMP, shift by constant (R286, R273). -/
def execCmpRegImm (cond : Cond) (rn : Reg) (shiftImm : BitVec 5) (shift : ShiftType) (rm : Reg) (s : State) :
    Host.Outcome State Fault Refusal :=
  s.ifPassed cond fun s => do
    let o := s.op2Const shiftImm shift rm
    s.compareSum (aluSub (s.reg rn) o.value)

/-- CMP, immediate (R286, R273). -/
def execCmpImm (cond : Cond) (rn : Reg) (rot : BitVec 4) (imm8 : BitVec 8) (s : State) :
    Host.Outcome State Fault Refusal :=
  s.ifPassed cond fun s => do
    let o := s.op2Imm rot imm8
    s.compareSum (aluSub (s.reg rn) o.value)

/-! ## CMN -/

/-- CMN, shift by register (R287, R273, R262). -/
def execCmnRegReg (cond : Cond) (rn : Reg) (rs : Reg) (shift : ShiftType) (rm : Reg) (s : State) :
    Host.Outcome State Fault Refusal :=
  s.ifPassed cond fun s => do
    forbid (isPc rn || isPc rs || isPc rm) .forbiddenPc
    let o := s.op2Reg rs shift rm
    s.compareSum (aluAdd (s.reg rn) o.value)

/-- CMN, shift by constant (R287, R273). -/
def execCmnRegImm (cond : Cond) (rn : Reg) (shiftImm : BitVec 5) (shift : ShiftType) (rm : Reg) (s : State) :
    Host.Outcome State Fault Refusal :=
  s.ifPassed cond fun s => do
    let o := s.op2Const shiftImm shift rm
    s.compareSum (aluAdd (s.reg rn) o.value)

/-- CMN, immediate (R287, R273). -/
def execCmnImm (cond : Cond) (rn : Reg) (rot : BitVec 4) (imm8 : BitVec 8) (s : State) :
    Host.Outcome State Fault Refusal :=
  s.ifPassed cond fun s => do
    let o := s.op2Imm rot imm8
    s.compareSum (aluAdd (s.reg rn) o.value)

/-! ## ORR -/

/-- ORR, shift by register (R281, R273, R262). -/
def execOrrRegReg (cond : Cond) (setFlags : Bool) (rn rd : Reg) (rs : Reg) (shift : ShiftType) (rm : Reg) (s : State) :
    Host.Outcome State Fault Refusal :=
  s.ifPassed cond fun s => do
    forbid (isPc rn || isPc rd || isPc rs || isPc rm) .forbiddenPc
    let o := s.op2Reg rs shift rm
    s.writeLogical setFlags rd (s.reg rn ||| o.value) o.carry

/-- ORR, shift by constant (R281, R273). -/
def execOrrRegImm (cond : Cond) (setFlags : Bool) (rn rd : Reg) (shiftImm : BitVec 5) (shift : ShiftType) (rm : Reg)
    (s : State) :
    Host.Outcome State Fault Refusal :=
  s.ifPassed cond fun s => do
    let o := s.op2Const shiftImm shift rm
    s.writeLogical setFlags rd (s.reg rn ||| o.value) o.carry

/-- ORR, immediate (R281, R273). -/
def execOrrImm (cond : Cond) (setFlags : Bool) (rn rd : Reg) (rot : BitVec 4) (imm8 : BitVec 8) (s : State) :
    Host.Outcome State Fault Refusal :=
  s.ifPassed cond fun s => do
    let o := s.op2Imm rot imm8
    s.writeLogical setFlags rd (s.reg rn ||| o.value) o.carry

/-! ## MOV -/

/-- MOV, shift by register (R284, R273, R262). -/
def execMovRegReg (cond : Cond) (setFlags : Bool) (rd : Reg) (rs : Reg) (shift : ShiftType) (rm : Reg) (s : State) :
    Host.Outcome State Fault Refusal :=
  s.ifPassed cond fun s => do
    forbid (isPc rd || isPc rs || isPc rm) .forbiddenPc
    let o := s.op2Reg rs shift rm
    s.writeLogical setFlags rd o.value o.carry

/-- MOV, shift by constant (R284, R273). -/
def execMovRegImm (cond : Cond) (setFlags : Bool) (rd : Reg) (shiftImm : BitVec 5) (shift : ShiftType) (rm : Reg)
    (s : State) :
    Host.Outcome State Fault Refusal :=
  s.ifPassed cond fun s => do
    let o := s.op2Const shiftImm shift rm
    s.writeLogical setFlags rd o.value o.carry

/-- MOV, immediate (R284, R273). -/
def execMovImm (cond : Cond) (setFlags : Bool) (rd : Reg) (rot : BitVec 4) (imm8 : BitVec 8) (s : State) :
    Host.Outcome State Fault Refusal :=
  s.ifPassed cond fun s => do
    let o := s.op2Imm rot imm8
    s.writeLogical setFlags rd o.value o.carry

/-! ## BIC -/

/-- BIC, shift by register (R283, R273, R262). -/
def execBicRegReg (cond : Cond) (setFlags : Bool) (rn rd : Reg) (rs : Reg) (shift : ShiftType) (rm : Reg) (s : State) :
    Host.Outcome State Fault Refusal :=
  s.ifPassed cond fun s => do
    forbid (isPc rn || isPc rd || isPc rs || isPc rm) .forbiddenPc
    let o := s.op2Reg rs shift rm
    s.writeLogical setFlags rd (s.reg rn &&& ~~~o.value) o.carry

/-- BIC, shift by constant (R283, R273). -/
def execBicRegImm (cond : Cond) (setFlags : Bool) (rn rd : Reg) (shiftImm : BitVec 5) (shift : ShiftType) (rm : Reg)
    (s : State) :
    Host.Outcome State Fault Refusal :=
  s.ifPassed cond fun s => do
    let o := s.op2Const shiftImm shift rm
    s.writeLogical setFlags rd (s.reg rn &&& ~~~o.value) o.carry

/-- BIC, immediate (R283, R273). -/
def execBicImm (cond : Cond) (setFlags : Bool) (rn rd : Reg) (rot : BitVec 4) (imm8 : BitVec 8) (s : State) :
    Host.Outcome State Fault Refusal :=
  s.ifPassed cond fun s => do
    let o := s.op2Imm rot imm8
    s.writeLogical setFlags rd (s.reg rn &&& ~~~o.value) o.carry

/-! ## MVN -/

/-- MVN, shift by register (R285, R273, R262). -/
def execMvnRegReg (cond : Cond) (setFlags : Bool) (rd : Reg) (rs : Reg) (shift : ShiftType) (rm : Reg) (s : State) :
    Host.Outcome State Fault Refusal :=
  s.ifPassed cond fun s => do
    forbid (isPc rd || isPc rs || isPc rm) .forbiddenPc
    let o := s.op2Reg rs shift rm
    s.writeLogical setFlags rd (~~~o.value) o.carry

/-- MVN, shift by constant (R285, R273). -/
def execMvnRegImm (cond : Cond) (setFlags : Bool) (rd : Reg) (shiftImm : BitVec 5) (shift : ShiftType) (rm : Reg)
    (s : State) :
    Host.Outcome State Fault Refusal :=
  s.ifPassed cond fun s => do
    let o := s.op2Const shiftImm shift rm
    s.writeLogical setFlags rd (~~~o.value) o.carry

/-- MVN, immediate (R285, R273). -/
def execMvnImm (cond : Cond) (setFlags : Bool) (rd : Reg) (rot : BitVec 4) (imm8 : BitVec 8) (s : State) :
    Host.Outcome State Fault Refusal :=
  s.ifPassed cond fun s => do
    let o := s.op2Imm rot imm8
    s.writeLogical setFlags rd (~~~o.value) o.carry

/-! ## CLZ -/

/-- The number of leading zeros of the low `n` bits of a word. -/
def leadingZeros (v : Word) : Nat → Nat
  | 0 => 0
  | n + 1 => if v.getLsbD n then 0 else leadingZeros v n + 1

/-- CLZ (R290). -/
def execClz (cond : Cond) (rd rm : Reg) (s : State) : Host.Outcome State Fault Refusal :=
  s.ifPassed cond fun s => do
    forbid (isPc rd || isPc rm) .forbiddenPc
    (s.setReg rd (BitVec.ofNat 32 (leadingZeros (s.reg rm) 32))).advance

end Sys2Proof.Machine
end

