-- ==== Sys2Proof/Machine/ArmMemory.lean ====
section
/-! DEFINITION. The ARM single-register transfers, PLD and the swaps (spec 40_arm_memory_access.md R230 to R248, R256
to R258). -/

namespace Sys2Proof.Machine

/-! ## Common parts (R230) -/

/-- The register restrictions of the word and byte transfers (R230): with writeback or post-indexing Rn is neither r15
nor Rd. -/
def checkBase (writeback : Bool) (rn rd : Reg) : Except Trap Unit := do
  forbid (writeback && isPc rn) .forbiddenPc
  forbid (writeback && rn == rd) .sameRegister

/-- LDR (R234): a misaligned address rotates the loaded word; Rn is written before Rd; r15 is a branch. -/
def State.loadWordTo (s : State) (a : Address) (rn rd : Reg) (privileged : Bool) : Except Trap State := do
  s.checkWordAligned a.addr
  let v ← s.readWord (wordAddress a.addr) privileged
  let data := rotateLoaded a.addr v
  let s := s.writeBack a rn
  if rd = 15#4 then s.loadPc data else (s.setReg rd data).advance

/-- STR (R235): a misaligned address is rounded down. -/
def State.storeWordFrom (s : State) (a : Address) (rn rd : Reg) (privileged : Bool) : Except Trap State := do
  s.checkWordAligned a.addr
  let t ← s.writeWord (wordAddress a.addr) (s.regStored rd) privileged
  (t.writeBack a rn).advance

/-- LDRB (R236): the byte is zero-extended. -/
def State.loadByteTo (s : State) (a : Address) (rn rd : Reg) (privileged : Bool) : Except Trap State := do
  let v ← s.readByte a.addr privileged
  ((s.writeBack a rn).setReg rd (v.zeroExtend 32)).advance

/-- STRB (R237). -/
def State.storeByteFrom (s : State) (a : Address) (rn rd : Reg) (privileged : Bool) : Except Trap State := do
  let t ← s.writeByte a.addr ((s.reg rd).extractLsb' 0 8) privileged
  (t.writeBack a rn).advance

/-! ## Words and unsigned bytes -/

/-- LDR, immediate offset (R234). -/
def execLdrImm (cond : Cond) (p u w : Bool) (rn rd : Reg) (imm12 : BitVec 12) (s : State) :
    Host.Outcome State Fault Refusal :=
  s.ifPassed cond fun s => do
    checkBase (!p || w) rn rd
    s.loadWordTo (s.addressForm p u w rn (imm12.zeroExtend 32)) rn rd s.privileged

/-- LDR, register offset (R234). -/
def execLdrReg (cond : Cond) (p u w : Bool) (rn rd : Reg) (shiftImm : BitVec 5) (shift : ShiftType) (rm : Reg)
    (s : State) : Host.Outcome State Fault Refusal :=
  s.ifPassed cond fun s => do
    forbid (isPc rm) .forbiddenPc
    checkBase (!p || w) rn rd
    s.loadWordTo (s.addressForm p u w rn (s.flexOffset shiftImm shift rm)) rn rd s.privileged

/-- STR, immediate offset (R235). -/
def execStrImm (cond : Cond) (p u w : Bool) (rn rd : Reg) (imm12 : BitVec 12) (s : State) :
    Host.Outcome State Fault Refusal :=
  s.ifPassed cond fun s => do
    checkBase (!p || w) rn rd
    s.storeWordFrom (s.addressForm p u w rn (imm12.zeroExtend 32)) rn rd s.privileged

/-- STR, register offset (R235). -/
def execStrReg (cond : Cond) (p u w : Bool) (rn rd : Reg) (shiftImm : BitVec 5) (shift : ShiftType) (rm : Reg)
    (s : State) : Host.Outcome State Fault Refusal :=
  s.ifPassed cond fun s => do
    forbid (isPc rm) .forbiddenPc
    checkBase (!p || w) rn rd
    s.storeWordFrom (s.addressForm p u w rn (s.flexOffset shiftImm shift rm)) rn rd s.privileged

/-- LDRB, immediate offset (R236). -/
def execLdrbImm (cond : Cond) (p u w : Bool) (rn rd : Reg) (imm12 : BitVec 12) (s : State) :
    Host.Outcome State Fault Refusal :=
  s.ifPassed cond fun s => do
    forbid (isPc rd) .forbiddenPc
    checkBase (!p || w) rn rd
    s.loadByteTo (s.addressForm p u w rn (imm12.zeroExtend 32)) rn rd s.privileged

/-- LDRB, register offset (R236). -/
def execLdrbReg (cond : Cond) (p u w : Bool) (rn rd : Reg) (shiftImm : BitVec 5) (shift : ShiftType) (rm : Reg)
    (s : State) : Host.Outcome State Fault Refusal :=
  s.ifPassed cond fun s => do
    forbid (isPc rd || isPc rm) .forbiddenPc
    checkBase (!p || w) rn rd
    s.loadByteTo (s.addressForm p u w rn (s.flexOffset shiftImm shift rm)) rn rd s.privileged

/-- STRB, immediate offset (R237). -/
def execStrbImm (cond : Cond) (p u w : Bool) (rn rd : Reg) (imm12 : BitVec 12) (s : State) :
    Host.Outcome State Fault Refusal :=
  s.ifPassed cond fun s => do
    forbid (isPc rd) .forbiddenPc
    checkBase (!p || w) rn rd
    s.storeByteFrom (s.addressForm p u w rn (imm12.zeroExtend 32)) rn rd s.privileged

/-- STRB, register offset (R237). -/
def execStrbReg (cond : Cond) (p u w : Bool) (rn rd : Reg) (shiftImm : BitVec 5) (shift : ShiftType) (rm : Reg)
    (s : State) : Host.Outcome State Fault Refusal :=
  s.ifPassed cond fun s => do
    forbid (isPc rd || isPc rm) .forbiddenPc
    checkBase (!p || w) rn rd
    s.storeByteFrom (s.addressForm p u w rn (s.flexOffset shiftImm shift rm)) rn rd s.privileged

/-! ## The T forms: always post-indexed, the access made as User (R238 to R241, D23) -/

/-- The register restrictions of the T forms (R238): Rd is not r15, Rn is neither r15 nor Rd. -/
def checkT (rn rd : Reg) : Except Trap Unit := do
  forbid (isPc rd) .forbiddenPc
  checkBase true rn rd

/-- LDRT, immediate offset (R238). -/
def execLdrtImm (cond : Cond) (u : Bool) (rn rd : Reg) (imm12 : BitVec 12) (s : State) :
    Host.Outcome State Fault Refusal :=
  s.ifPassed cond fun s => do
    checkT rn rd
    s.loadWordTo (s.addressForm false u true rn (imm12.zeroExtend 32)) rn rd false

/-- LDRT, register offset (R238). -/
def execLdrtReg (cond : Cond) (u : Bool) (rn rd : Reg) (shiftImm : BitVec 5) (shift : ShiftType) (rm : Reg)
    (s : State) : Host.Outcome State Fault Refusal :=
  s.ifPassed cond fun s => do
    forbid (isPc rm) .forbiddenPc
    checkT rn rd
    s.loadWordTo (s.addressForm false u true rn (s.flexOffset shiftImm shift rm)) rn rd false

/-- STRT, immediate offset (R239). -/
def execStrtImm (cond : Cond) (u : Bool) (rn rd : Reg) (imm12 : BitVec 12) (s : State) :
    Host.Outcome State Fault Refusal :=
  s.ifPassed cond fun s => do
    checkT rn rd
    s.storeWordFrom (s.addressForm false u true rn (imm12.zeroExtend 32)) rn rd false

/-- STRT, register offset (R239). -/
def execStrtReg (cond : Cond) (u : Bool) (rn rd : Reg) (shiftImm : BitVec 5) (shift : ShiftType) (rm : Reg)
    (s : State) : Host.Outcome State Fault Refusal :=
  s.ifPassed cond fun s => do
    forbid (isPc rm) .forbiddenPc
    checkT rn rd
    s.storeWordFrom (s.addressForm false u true rn (s.flexOffset shiftImm shift rm)) rn rd false

/-- LDRBT, immediate offset (R240). -/
def execLdrbtImm (cond : Cond) (u : Bool) (rn rd : Reg) (imm12 : BitVec 12) (s : State) :
    Host.Outcome State Fault Refusal :=
  s.ifPassed cond fun s => do
    checkT rn rd
    s.loadByteTo (s.addressForm false u true rn (imm12.zeroExtend 32)) rn rd false

/-- LDRBT, register offset (R240). -/
def execLdrbtReg (cond : Cond) (u : Bool) (rn rd : Reg) (shiftImm : BitVec 5) (shift : ShiftType) (rm : Reg)
    (s : State) : Host.Outcome State Fault Refusal :=
  s.ifPassed cond fun s => do
    forbid (isPc rm) .forbiddenPc
    checkT rn rd
    s.loadByteTo (s.addressForm false u true rn (s.flexOffset shiftImm shift rm)) rn rd false

/-- STRBT, immediate offset (R241). -/
def execStrbtImm (cond : Cond) (u : Bool) (rn rd : Reg) (imm12 : BitVec 12) (s : State) :
    Host.Outcome State Fault Refusal :=
  s.ifPassed cond fun s => do
    checkT rn rd
    s.storeByteFrom (s.addressForm false u true rn (imm12.zeroExtend 32)) rn rd false

/-- STRBT, register offset (R241). -/
def execStrbtReg (cond : Cond) (u : Bool) (rn rd : Reg) (shiftImm : BitVec 5) (shift : ShiftType) (rm : Reg)
    (s : State) : Host.Outcome State Fault Refusal :=
  s.ifPassed cond fun s => do
    forbid (isPc rm) .forbiddenPc
    checkT rn rd
    s.storeByteFrom (s.addressForm false u true rn (s.flexOffset shiftImm shift rm)) rn rd false

/-! ## Halfwords and signed bytes (R242) -/

/-- The restrictions of the halfword and signed-byte transfers (R109, R230, R242). -/
def checkHalf (p w : Bool) (rn rd : Reg) : Except Trap Unit := do
  forbid (!p && w) .forbiddenIndexing
  forbid (isPc rd) .forbiddenPc
  checkBase (!p || w) rn rd

/-- LDRH (R243): zero-extended; an odd address is a Data Abort or a fault (R75). -/
def State.loadHalfTo (s : State) (a : Address) (rn rd : Reg) : Except Trap State := do
  s.checkAligned a.addr 1#32
  let v ← s.readHalf a.addr s.privileged
  ((s.writeBack a rn).setReg rd (v.zeroExtend 32)).advance

/-- LDRSH (R245): sign-extended. -/
def State.loadSignedHalfTo (s : State) (a : Address) (rn rd : Reg) : Except Trap State := do
  s.checkAligned a.addr 1#32
  let v ← s.readHalf a.addr s.privileged
  ((s.writeBack a rn).setReg rd (v.signExtend 32)).advance

/-- LDRSB (R246): sign-extended, no alignment requirement. -/
def State.loadSignedByteTo (s : State) (a : Address) (rn rd : Reg) : Except Trap State := do
  let v ← s.readByte a.addr s.privileged
  ((s.writeBack a rn).setReg rd (v.signExtend 32)).advance

/-- STRH (R244). -/
def State.storeHalfFrom (s : State) (a : Address) (rn rd : Reg) : Except Trap State := do
  s.checkAligned a.addr 1#32
  let t ← s.writeHalf a.addr ((s.reg rd).extractLsb' 0 16) s.privileged
  (t.writeBack a rn).advance

/-- LDRH, immediate offset (R243). -/
def execLdrhImm (cond : Cond) (p u w : Bool) (rn rd : Reg) (immH immL : BitVec 4) (s : State) :
    Host.Outcome State Fault Refusal :=
  s.ifPassed cond fun s => do
    checkHalf p w rn rd
    s.loadHalfTo (s.addressForm p u w rn (splitOffset immH immL)) rn rd

/-- LDRH, register offset (R243). -/
def execLdrhReg (cond : Cond) (p u w : Bool) (rn rd rm : Reg) (s : State) : Host.Outcome State Fault Refusal :=
  s.ifPassed cond fun s => do
    forbid (isPc rm) .forbiddenPc
    checkHalf p w rn rd
    s.loadHalfTo (s.addressForm p u w rn (s.reg rm)) rn rd

/-- STRH, immediate offset (R244). -/
def execStrhImm (cond : Cond) (p u w : Bool) (rn rd : Reg) (immH immL : BitVec 4) (s : State) :
    Host.Outcome State Fault Refusal :=
  s.ifPassed cond fun s => do
    checkHalf p w rn rd
    s.storeHalfFrom (s.addressForm p u w rn (splitOffset immH immL)) rn rd

/-- STRH, register offset (R244). -/
def execStrhReg (cond : Cond) (p u w : Bool) (rn rd rm : Reg) (s : State) : Host.Outcome State Fault Refusal :=
  s.ifPassed cond fun s => do
    forbid (isPc rm) .forbiddenPc
    checkHalf p w rn rd
    s.storeHalfFrom (s.addressForm p u w rn (s.reg rm)) rn rd

/-- LDRSH, immediate offset (R245). -/
def execLdrshImm (cond : Cond) (p u w : Bool) (rn rd : Reg) (immH immL : BitVec 4) (s : State) :
    Host.Outcome State Fault Refusal :=
  s.ifPassed cond fun s => do
    checkHalf p w rn rd
    s.loadSignedHalfTo (s.addressForm p u w rn (splitOffset immH immL)) rn rd

/-- LDRSH, register offset (R245). -/
def execLdrshReg (cond : Cond) (p u w : Bool) (rn rd rm : Reg) (s : State) : Host.Outcome State Fault Refusal :=
  s.ifPassed cond fun s => do
    forbid (isPc rm) .forbiddenPc
    checkHalf p w rn rd
    s.loadSignedHalfTo (s.addressForm p u w rn (s.reg rm)) rn rd

/-- LDRSB, immediate offset (R246). -/
def execLdrsbImm (cond : Cond) (p u w : Bool) (rn rd : Reg) (immH immL : BitVec 4) (s : State) :
    Host.Outcome State Fault Refusal :=
  s.ifPassed cond fun s => do
    checkHalf p w rn rd
    s.loadSignedByteTo (s.addressForm p u w rn (splitOffset immH immL)) rn rd

/-- LDRSB, register offset (R246). -/
def execLdrsbReg (cond : Cond) (p u w : Bool) (rn rd rm : Reg) (s : State) : Host.Outcome State Fault Refusal :=
  s.ifPassed cond fun s => do
    forbid (isPc rm) .forbiddenPc
    checkHalf p w rn rd
    s.loadSignedByteTo (s.addressForm p u w rn (s.reg rm)) rn rd

/-! ## Double words (R247, R248) -/

/-- The register restrictions of LDRD and STRD (R247): Rd even and not r14; with writeback Rn is neither r15 nor one of
the pair. -/
def checkDouble (p w : Bool) (rn rd : Reg) : Except Trap Unit := do
  forbid (!p && w) .forbiddenIndexing
  forbid (rd.getLsbD 0 || rd == 14#4) .forbiddenPair
  forbid ((!p || w) && isPc rn) .forbiddenPc
  forbid ((!p || w) && (rn == rd || rn == rd + 1#4)) .sameRegister

/-- LDRD (R247): Rd from the lower address, R(d+1) from the next word. -/
def State.loadDoubleTo (s : State) (a : Address) (rn rd : Reg) : Except Trap State := do
  s.checkAligned a.addr 7#32
  let (lo, hi) ← s.readPair s.privileged a.addr
  (((s.writeBack a rn).setReg rd lo).setReg (rd + 1#4) hi).advance

/-- STRD (R248). -/
def State.storeDoubleFrom (s : State) (a : Address) (rn rd : Reg) : Except Trap State := do
  s.checkAligned a.addr 7#32
  let t ← s.writeWord a.addr (s.reg rd) s.privileged
  let t ← t.writeWord (a.addr + 4#32) (s.reg (rd + 1#4)) s.privileged
  (t.writeBack a rn).advance

/-- LDRD, immediate offset (R247). -/
def execLdrdImm (cond : Cond) (p u w : Bool) (rn rd : Reg) (immH immL : BitVec 4) (s : State) :
    Host.Outcome State Fault Refusal :=
  s.ifPassed cond fun s => do
    checkDouble p w rn rd
    s.loadDoubleTo (s.addressForm p u w rn (splitOffset immH immL)) rn rd

/-- LDRD, register offset (R247): Rm is not one of the pair. -/
def execLdrdReg (cond : Cond) (p u w : Bool) (rn rd rm : Reg) (s : State) : Host.Outcome State Fault Refusal :=
  s.ifPassed cond fun s => do
    forbid (isPc rm) .forbiddenPc
    checkDouble p w rn rd
    forbid (rm == rd || rm == rd + 1#4) .sameRegister
    s.loadDoubleTo (s.addressForm p u w rn (s.reg rm)) rn rd

/-- STRD, immediate offset (R248). -/
def execStrdImm (cond : Cond) (p u w : Bool) (rn rd : Reg) (immH immL : BitVec 4) (s : State) :
    Host.Outcome State Fault Refusal :=
  s.ifPassed cond fun s => do
    checkDouble p w rn rd
    s.storeDoubleFrom (s.addressForm p u w rn (splitOffset immH immL)) rn rd

/-- STRD, register offset (R248). -/
def execStrdReg (cond : Cond) (p u w : Bool) (rn rd rm : Reg) (s : State) : Host.Outcome State Fault Refusal :=
  s.ifPassed cond fun s => do
    forbid (isPc rm) .forbiddenPc
    checkDouble p w rn rd
    s.storeDoubleFrom (s.addressForm p u w rn (s.reg rm)) rn rd

/-! ## PLD and the swaps -/

/-- PLD, immediate offset (R256): a hint without effect. -/
def execPldImm (_u : Bool) (_rn : Reg) (_imm12 : BitVec 12) (s : State) : Host.Outcome State Fault Refusal :=
  s.always State.advance

/-- PLD, register offset (R256, R231): a hint without effect; Rm is not r15. -/
def execPldReg (_u : Bool) (_rn : Reg) (_shiftImm : BitVec 5) (_shift : ShiftType) (rm : Reg) (s : State) :
    Host.Outcome State Fault Refusal :=
  s.always fun s => do
    forbid (isPc rm) .forbiddenPc
    s.advance

/-- The register restrictions of SWP and SWPB (R257). -/
def checkSwap (rn rd rm : Reg) : Except Trap Unit := do
  forbid (isPc rn || isPc rd || isPc rm) .forbiddenPc
  forbid (rn == rd || rn == rm) .sameRegister

/-- SWP (R257): load as LDR, store as STR, in one step; a refused access of either kind comes first (R607). -/
def execSwp (cond : Cond) (rn rd rm : Reg) (s : State) : Host.Outcome State Fault Refusal :=
  s.ifPassed cond fun s => do
    checkSwap rn rd rm
    let addr := s.reg rn
    s.checkWordAligned addr
    s.checkAllowed (wordAddress addr) 4 .write s.privileged
    let old ← s.readWord (wordAddress addr) s.privileged
    let t ← s.writeWord (wordAddress addr) (s.reg rm) s.privileged
    (t.setReg rd (rotateLoaded addr old)).advance

/-- SWPB (R258). -/
def execSwpb (cond : Cond) (rn rd rm : Reg) (s : State) : Host.Outcome State Fault Refusal :=
  s.ifPassed cond fun s => do
    checkSwap rn rd rm
    s.checkAllowed (s.reg rn) 1 .write s.privileged
    let old ← s.readByte (s.reg rn) s.privileged
    let t ← s.writeByte (s.reg rn) ((s.reg rm).extractLsb' 0 8) s.privileged
    (t.setReg rd (old.zeroExtend 32)).advance

end Sys2Proof.Machine
end

