-- ==== Sys2Proof/Machine/ArmMisc.lean ====
section
/-! DEFINITION. SWI, MRS, MSR, BKPT (spec 45_arm_misc_and_pseudo.md) and the unallocated part of the unconditional
space (30_encoding.md R117). -/

namespace Sys2Proof.Machine

/-- A SWI (R15, R360, R457, R606): the semihosting call that ends the run, or the SWI exception. -/
def State.softwareInterrupt (s : State) (isSemihosting : Bool) : Except Trap State :=
  if s.cfg.semihosting && isSemihosting && s.reg 0#4 == 0x18#32 then .ok { s with exited := some (s.reg 1#4) }
  else raise .swi

/-- SWI (R360). -/
def execSwi (cond : Cond) (imm24 : BitVec 24) (s : State) : Host.Outcome State Fault Refusal :=
  s.ifPassed cond fun s => s.softwareInterrupt (imm24 == 0x123456#24)

/-- MRS (R361): `r` selects the SPSR. -/
def execMrs (cond : Cond) (r : Bool) (rd : Reg) (s : State) : Host.Outcome State Fault Refusal :=
  s.ifPassed cond fun s => do
    forbid (isPc rd) .forbiddenPc
    forbid (r && !s.hasSpsr) .noSpsr
    (s.setReg rd (if r then s.spsr else s.cpsr).toWord).advance

/-- The byte mask of MSR (R362): bit 3 = f, 2 = s, 1 = x, 0 = c. -/
def psrMask (fields : BitVec 4) : Word :=
  (if fields.getLsbD 3 then 0xFF000000#32 else 0#32) ||| (if fields.getLsbD 2 then 0x00FF0000#32 else 0#32) |||
    (if fields.getLsbD 1 then 0x0000FF00#32 else 0#32) ||| (if fields.getLsbD 0 then 0x000000FF#32 else 0#32)

/-- The bits of `operand` under the mask, the others of `old` (R362). -/
def mergeBits (old operand mask : Word) : Word := (old &&& ~~~mask) ||| (operand &&& mask)

/-- MSR (R362), both forms. In User mode only the flags byte of the CPSR is written (D27); T is never changed; the mode
written must be a mode. Without Thumb bit 5 is not T but a reserved bit, and what is written to it is dropped (R31, R38,
D26; notes/assumptions/21). -/
def State.writePsr (s : State) (r : Bool) (fields : BitVec 4) (operand : Word) : Except Trap State :=
  if r then do
    forbid (!s.hasSpsr) .noSpsr
    (s.setSpsr (Psr.ofWord s.cfg.arch (mergeBits s.spsr.toWord operand (psrMask fields)))).advance
  else do
    let mask := if s.privileged then psrMask fields else psrMask fields &&& 0xFF000000#32
    let new := mergeBits s.cpsr.toWord operand mask
    forbid (fields.getLsbD 0 && s.privileged && s.cfg.arch.thumb && new.getLsbD 5 != s.cpsr.t) .msrState
    forbid (fields.getLsbD 0 && s.privileged && !modeLegal s.cfg.arch (new.extractLsb' 0 5)) .illegalMode
    (s.setCpsr (Psr.ofWord s.cfg.arch new)).advance

/-- MSR, register form (R364). -/
def execMsrReg (cond : Cond) (r : Bool) (fields : BitVec 4) (rm : Reg) (s : State) :
    Host.Outcome State Fault Refusal :=
  s.ifPassed cond fun s => do
    forbid (isPc rm) .forbiddenPc
    s.writePsr r fields (s.reg rm)

/-- MSR, immediate form (R363). -/
def execMsrImm (cond : Cond) (r : Bool) (fields : BitVec 4) (rot : BitVec 4) (imm8 : BitVec 8) (s : State) :
    Host.Outcome State Fault Refusal :=
  s.ifPassed cond fun s => s.writePsr r fields (rotatedImm rot imm8)

/-- What a breakpoint does (R365, R458, R608, D20): the run stops, or the Prefetch Abort exception. -/
def State.breakpoint (s : State) (imm : BitVec 16) : Except Trap State :=
  match s.cfg.bkpt with
  | .debugStop => stop (.breakpoint imm)
  | .prefetchAbort => raise .prefetchAbort

/-- BKPT (R365): a condition other than always is a fault. -/
def execBkpt (cond : Cond) (immHi : BitVec 12) (immLo : BitVec 4) (s : State) : Host.Outcome State Fault Refusal :=
  s.ifPassed cond fun s => do
    forbid (cond != .al) .conditionalBreakpoint
    s.breakpoint (immHi ++ immLo)

/-- Any other value of the unconditional space (R117): the Undefined Instruction exception. -/
def execUnallocatedUncond (_bits : BitVec 28) (s : State) : Host.Outcome State Fault Refusal :=
  s.always fun _ => raise .undefined

end Sys2Proof.Machine
end

