-- ==== Sys2Proof/Machine/ArmMultiple.lean ====
section
/-! DEFINITION. The ARM multiple transfers (spec 40_arm_memory_access.md R249 to R255). -/

namespace Sys2Proof.Machine

/-- The restrictions common to LDM and STM (R249): a base other than r15 and at least one register. -/
def checkBlock (rn : Reg) (list : List Reg) : Except Trap Unit := do
  forbid list.isEmpty .emptyList
  forbid (isPc rn) .forbiddenPc

/-- The words of a multiple load (R249, R250): bits[1:0] of the addresses are ignored, or checked. -/
def State.loadBlock (s : State) (p u : Bool) (base : Word) (n : Nat) : Except Trap (List Word) := do
  s.checkWordAligned base
  let start := wordAddress (blockStart p u base n)
  checkTransfer start n
  s.readWords s.privileged n start

/-- The words of a multiple store (R249, R251). -/
def State.storeBlock (s : State) (p u : Bool) (base : Word) (words : List Word) : Except Trap State := do
  s.checkWordAligned base
  let start := wordAddress (blockStart p u base words.length)
  checkTransfer start words.length
  s.writeWords s.privileged words start

/-- The base after a multiple transfer: written with `!` only (R249). -/
def State.writeBase (s : State) (w : Bool) (rn : Reg) (v : Word) : State := if w then s.setReg rn v else s

/-- LDM without `^` (R250, R255). -/
def execLdm (cond : Cond) (p u w : Bool) (rn : Reg) (regs : BitVec 16) (s : State) :
    Host.Outcome State Fault Refusal :=
  s.ifPassed cond fun s => do
    let list := regList regs
    checkBlock rn list
    forbid (w && list.contains rn) .baseInList
    let base := s.reg rn
    let words ← s.loadBlock p u base list.length
    let t := (s.writeBase w rn (blockEnd u base list.length)).setRegs list words
    if regs.getLsbD 15 then t.loadPc (words.getLastD 0#32) else t.advance

/-- STM without `^` (R251, R255): the base in the list with `!` must be the lowest register. -/
def execStm (cond : Cond) (p u w : Bool) (rn : Reg) (regs : BitVec 16) (s : State) :
    Host.Outcome State Fault Refusal :=
  s.ifPassed cond fun s => do
    let list := regList regs
    checkBlock rn list
    forbid (w && list.contains rn && list.head? != some rn) .baseInList
    let base := s.reg rn
    let t ← s.storeBlock p u base (list.map s.regStored)
    (t.writeBase w rn (blockEnd u base list.length)).advance

/-- LDM with `^` and r15 not in the list: the User-mode registers (R252). -/
def execLdmUser (cond : Cond) (p u w : Bool) (rn : Reg) (regs : BitVec 15) (s : State) :
    Host.Outcome State Fault Refusal :=
  s.ifPassed cond fun s => do
    let list := regList regs
    checkBlock rn list
    forbid (w || !s.hasSpsr) .userBank
    let words ← s.loadBlock p u (s.reg rn) list.length
    (s.setUserRegs list words).advance

/-- The value that STM with `^` stores for a register (R254). -/
def State.userRegStored (s : State) (r : Reg) : Word := if r = 15#4 then s.pcStored else s.userReg r

/-- STM with `^`: the User-mode registers (R254). -/
def execStmUser (cond : Cond) (p u w : Bool) (rn : Reg) (regs : BitVec 16) (s : State) :
    Host.Outcome State Fault Refusal :=
  s.ifPassed cond fun s => do
    let list := regList regs
    checkBlock rn list
    forbid (w || !s.hasSpsr) .userBank
    let t ← s.storeBlock p u (s.reg rn) (list.map s.userRegStored)
    t.advance

/-- LDM with `^` and r15 in the list: the exception return (R253, R614). `regs` are the registers below r15. -/
def execLdmReturn (cond : Cond) (p u w : Bool) (rn : Reg) (regs : BitVec 15) (s : State) :
    Host.Outcome State Fault Refusal :=
  s.ifPassed cond fun s => do
    let list := regList regs
    forbid (isPc rn) .forbiddenPc
    forbid (!s.hasSpsr) .noSpsr
    forbid (w && list.contains rn) .baseInList
    let base := s.reg rn
    let words ← s.loadBlock p u base (list.length + 1)
    ((s.writeBase w rn (blockEnd u base (list.length + 1))).setRegs list words).exceptionReturn
      (words.getLastD 0#32)

end Sys2Proof.Machine
end

