-- ==== Sys2Proof/Machine/ArmMultiply.lean ====
section
/-! DEFINITION. The ARM multiplies and saturating arithmetic, and the XScale multiply-accumulates (spec
42_arm_multiply_and_saturating.md). Products and sums are exact integers, narrowed at the end. -/

namespace Sys2Proof.Machine

/-! ## Common parts (R300) -/

/-- The half of a register that `<x>` or `<y>` selects: bottom for 0, top for 1 (R107, R307). -/
def halfOf (v : Word) (top : Bool) : Half := if top then v.extractLsb' 16 16 else v.extractLsb' 0 16

/-- The flags after a 32-bit multiply with S (R301): N and Z of the result, V kept, C kept from version 5 and drawn
before it (R300(e), D25). -/
def State.mulNzcv (s : State) (result : Word) : Nzcv :=
  { n := result.msb, z := result == 0#32
    c := if s.cfg.arch.atLeast5 then s.cpsr.c else s.drawBit 0
    v := s.cpsr.v }

/-- The flags after a long multiply with S (R303): N and Z of all 64 bits, C and V kept from version 5 and drawn before
it (R300(e), D25). -/
def State.longMulNzcv (s : State) (result : DWord) : Nzcv :=
  { n := result.msb, z := result == 0#64
    c := if s.cfg.arch.atLeast5 then s.cpsr.c else s.drawBit 0
    v := if s.cfg.arch.atLeast5 then s.cpsr.v else s.drawBit 1 }

/-- Count `k` draws if a flag-setting multiply below version 5 makes them (D25). -/
def State.drawnIf (s : State) (setFlags : Bool) (k : Nat) : State :=
  if setFlags && !s.cfg.arch.atLeast5 then s.drawn k else s

/-- The end of MUL and MLA (R301, R302). -/
def State.writeProduct (s : State) (setFlags : Bool) (rd : Reg) (result : Word) : Except Trap State :=
  (((s.setReg rd result).setNzcvIf setFlags (s.mulNzcv result)).drawnIf setFlags 1).advance

/-- The end of the long multiplies (R303 to R306). -/
def State.writeLongProduct (s : State) (setFlags : Bool) (rdHi rdLo : Reg) (result : DWord) : Except Trap State :=
  ((((s.setReg rdLo (result.extractLsb' 0 32)).setReg rdHi (result.extractLsb' 32 32)).setNzcvIf setFlags
    (s.longMulNzcv result)).drawnIf setFlags 2).advance

/-- The register restrictions of the long multiplies (R303): no r15; RdLo, RdHi and Rm all different. -/
def checkLongMul (rdHi rdLo rs rm : Reg) : Except Trap Unit := do
  forbid (isPc rdHi || isPc rdLo || isPc rs || isPc rm) .forbiddenPc
  forbid (rdLo == rdHi || rdLo == rm || rdHi == rm) .sameRegister

/-- The 64-bit value of a register pair. -/
def State.pair (s : State) (hi lo : Reg) : DWord := s.reg hi ++ s.reg lo

/-- The end of an accumulating multiply that sets Q on signed overflow of its addition (R308, R310): the sum wraps. -/
def State.writeAccumulated (s : State) (rd : Reg) (sum : Int) : Except Trap State :=
  ((s.setReg rd (BitVec.ofInt 32 sum)).setQIf ((BitVec.ofInt 32 sum).toInt != sum)).advance

/-! ## 32-bit by 32-bit multiplies -/

/-- MUL (R301). -/
def execMul (cond : Cond) (setFlags : Bool) (rd rs rm : Reg) (s : State) : Host.Outcome State Fault Refusal :=
  s.ifPassed cond fun s => do
    forbid (isPc rd || isPc rs || isPc rm) .forbiddenPc
    forbid (rd == rm) .sameRegister
    s.writeProduct setFlags rd (s.reg rm * s.reg rs)

/-- MLA (R302). -/
def execMla (cond : Cond) (setFlags : Bool) (rd rn rs rm : Reg) (s : State) : Host.Outcome State Fault Refusal :=
  s.ifPassed cond fun s => do
    forbid (isPc rd || isPc rn || isPc rs || isPc rm) .forbiddenPc
    forbid (rd == rm) .sameRegister
    s.writeProduct setFlags rd (s.reg rm * s.reg rs + s.reg rn)

/-- UMULL (R303). -/
def execUmull (cond : Cond) (setFlags : Bool) (rdHi rdLo rs rm : Reg) (s : State) :
    Host.Outcome State Fault Refusal :=
  s.ifPassed cond fun s => do
    checkLongMul rdHi rdLo rs rm
    s.writeLongProduct setFlags rdHi rdLo (BitVec.ofNat 64 ((s.reg rm).toNat * (s.reg rs).toNat))

/-- UMLAL (R304). -/
def execUmlal (cond : Cond) (setFlags : Bool) (rdHi rdLo rs rm : Reg) (s : State) :
    Host.Outcome State Fault Refusal :=
  s.ifPassed cond fun s => do
    checkLongMul rdHi rdLo rs rm
    s.writeLongProduct setFlags rdHi rdLo
      (BitVec.ofNat 64 ((s.pair rdHi rdLo).toNat + (s.reg rm).toNat * (s.reg rs).toNat))

/-- SMULL (R305). -/
def execSmull (cond : Cond) (setFlags : Bool) (rdHi rdLo rs rm : Reg) (s : State) :
    Host.Outcome State Fault Refusal :=
  s.ifPassed cond fun s => do
    checkLongMul rdHi rdLo rs rm
    s.writeLongProduct setFlags rdHi rdLo (BitVec.ofInt 64 ((s.reg rm).toInt * (s.reg rs).toInt))

/-- SMLAL (R306). -/
def execSmlal (cond : Cond) (setFlags : Bool) (rdHi rdLo rs rm : Reg) (s : State) :
    Host.Outcome State Fault Refusal :=
  s.ifPassed cond fun s => do
    checkLongMul rdHi rdLo rs rm
    s.writeLongProduct setFlags rdHi rdLo
      (BitVec.ofInt 64 ((s.pair rdHi rdLo).toInt + (s.reg rm).toInt * (s.reg rs).toInt))

/-! ## Halfword multiplies (E variants) -/

/-- SMULxy (R307). -/
def execSmulXY (cond : Cond) (rd rs : Reg) (y x : Bool) (rm : Reg) (s : State) : Host.Outcome State Fault Refusal :=
  s.ifPassed cond fun s => do
    forbid (isPc rd || isPc rs || isPc rm) .forbiddenPc
    (s.setReg rd (BitVec.ofInt 32 ((halfOf (s.reg rm) x).toInt * (halfOf (s.reg rs) y).toInt))).advance

/-- SMLAxy (R308). -/
def execSmlaXY (cond : Cond) (rd rn rs : Reg) (y x : Bool) (rm : Reg) (s : State) :
    Host.Outcome State Fault Refusal :=
  s.ifPassed cond fun s => do
    forbid (isPc rd || isPc rn || isPc rs || isPc rm) .forbiddenPc
    s.writeAccumulated rd ((halfOf (s.reg rm) x).toInt * (halfOf (s.reg rs) y).toInt + (s.reg rn).toInt)

/-- The top 32 bits of a 48-bit product (R309): its floor after division by 2^16. -/
def wideProduct (m : Word) (h : Half) : Int := m.toInt * h.toInt / 2 ^ 16

/-- SMULWy (R309). -/
def execSmulwY (cond : Cond) (rd rs : Reg) (y : Bool) (rm : Reg) (s : State) : Host.Outcome State Fault Refusal :=
  s.ifPassed cond fun s => do
    forbid (isPc rd || isPc rs || isPc rm) .forbiddenPc
    (s.setReg rd (BitVec.ofInt 32 (wideProduct (s.reg rm) (halfOf (s.reg rs) y)))).advance

/-- SMLAWy (R310). -/
def execSmlawY (cond : Cond) (rd rn rs : Reg) (y : Bool) (rm : Reg) (s : State) :
    Host.Outcome State Fault Refusal :=
  s.ifPassed cond fun s => do
    forbid (isPc rd || isPc rn || isPc rs || isPc rm) .forbiddenPc
    s.writeAccumulated rd (wideProduct (s.reg rm) (halfOf (s.reg rs) y) + (s.reg rn).toInt)

/-- SMLALxy (R311). -/
def execSmlalXY (cond : Cond) (rdHi rdLo rs : Reg) (y x : Bool) (rm : Reg) (s : State) :
    Host.Outcome State Fault Refusal :=
  s.ifPassed cond fun s => do
    forbid (isPc rdHi || isPc rdLo || isPc rs || isPc rm) .forbiddenPc
    forbid (rdHi == rdLo) .sameRegister
    s.writeLongProduct false rdHi rdLo
      (BitVec.ofInt 64 ((s.pair rdHi rdLo).toInt + (halfOf (s.reg rm) x).toInt * (halfOf (s.reg rs) y).toInt))

/-! ## XScale multiply with internal accumulate -/

/-- Add to the 40-bit accumulator, wrapping (R312 to R314). -/
def State.accumulate (s : State) (x : Int) : Except Trap State :=
  (s.setAcc (BitVec.ofInt 40 (s.acc0.toInt + x))).advance

/-- MIA (R312). -/
def execMia (cond : Cond) (rs rm : Reg) (s : State) : Host.Outcome State Fault Refusal :=
  s.ifPassed cond fun s => do
    forbid (isPc rs || isPc rm) .forbiddenPc
    s.accumulate ((s.reg rm).toInt * (s.reg rs).toInt)

/-- MIAPH (R313). -/
def execMiaph (cond : Cond) (rs rm : Reg) (s : State) : Host.Outcome State Fault Refusal :=
  s.ifPassed cond fun s => do
    forbid (isPc rs || isPc rm) .forbiddenPc
    s.accumulate ((halfOf (s.reg rm) false).toInt * (halfOf (s.reg rs) false).toInt +
      (halfOf (s.reg rm) true).toInt * (halfOf (s.reg rs) true).toInt)

/-- MIAxy (R314). -/
def execMiaXY (cond : Cond) (x y : Bool) (rs rm : Reg) (s : State) : Host.Outcome State Fault Refusal :=
  s.ifPassed cond fun s => do
    forbid (isPc rs || isPc rm) .forbiddenPc
    s.accumulate ((halfOf (s.reg rm) x).toInt * (halfOf (s.reg rs) y).toInt)

/-! ## Saturating arithmetic (R315) -/

/-- The end of a saturating instruction: the result, and Q if anything saturated (R315). -/
def State.writeSaturated (s : State) (rd : Reg) (result : Word) (saturated : Bool) : Except Trap State :=
  ((s.setReg rd result).setQIf saturated).advance

/-- QADD (R316). -/
def execQadd (cond : Cond) (rn rd rm : Reg) (s : State) : Host.Outcome State Fault Refusal :=
  s.ifPassed cond fun s => do
    forbid (isPc rn || isPc rd || isPc rm) .forbiddenPc
    let r := signedSat32 ((s.reg rm).toInt + (s.reg rn).toInt)
    s.writeSaturated rd r.1 r.2

/-- QSUB (R317). -/
def execQsub (cond : Cond) (rn rd rm : Reg) (s : State) : Host.Outcome State Fault Refusal :=
  s.ifPassed cond fun s => do
    forbid (isPc rn || isPc rd || isPc rm) .forbiddenPc
    let r := signedSat32 ((s.reg rm).toInt - (s.reg rn).toInt)
    s.writeSaturated rd r.1 r.2

/-- QDADD (R318). -/
def execQdadd (cond : Cond) (rn rd rm : Reg) (s : State) : Host.Outcome State Fault Refusal :=
  s.ifPassed cond fun s => do
    forbid (isPc rn || isPc rd || isPc rm) .forbiddenPc
    let t := signedSat32 (2 * (s.reg rn).toInt)
    let r := signedSat32 ((s.reg rm).toInt + t.1.toInt)
    s.writeSaturated rd r.1 (t.2 || r.2)

/-- QDSUB (R319). -/
def execQdsub (cond : Cond) (rn rd rm : Reg) (s : State) : Host.Outcome State Fault Refusal :=
  s.ifPassed cond fun s => do
    forbid (isPc rn || isPc rd || isPc rm) .forbiddenPc
    let t := signedSat32 (2 * (s.reg rn).toInt)
    let r := signedSat32 ((s.reg rm).toInt - t.1.toInt)
    s.writeSaturated rd r.1 (t.2 || r.2)

/-- MAR (45_arm_misc_and_pseudo.md R366): the low byte of RdHi and all of RdLo go to acc0. -/
def execMar (cond : Cond) (rdHi rdLo : Reg) (s : State) : Host.Outcome State Fault Refusal :=
  s.ifPassed cond fun s => do
    forbid (isPc rdHi || isPc rdLo) .forbiddenPc
    (s.setAcc ((s.reg rdHi).extractLsb' 0 8 ++ s.reg rdLo)).advance

/-- MRA (45_arm_misc_and_pseudo.md R367): acc0, its bits 39:32 sign-extended, goes to RdLo and RdHi. -/
def execMra (cond : Cond) (rdHi rdLo : Reg) (s : State) : Host.Outcome State Fault Refusal :=
  s.ifPassed cond fun s => do
    forbid (isPc rdHi || isPc rdLo) .forbiddenPc
    forbid (rdHi == rdLo) .sameRegister
    ((s.setReg rdLo (s.acc0.extractLsb' 0 32)).setReg rdHi ((s.acc0.extractLsb' 32 8).signExtend 32)).advance

end Sys2Proof.Machine
end

