-- ==== Sys2Proof/Machine/ThumbData.lean ====
section
/-! DEFINITION. The Thumb data-processing instructions (spec 47_thumb_data_processing.md). -/

namespace Sys2Proof.Machine

/-! ## Common parts (R410) -/

/-- The value of a low register. -/
def State.low (s : State) (r : LowReg) : Word := s.reg (lowReg r)

/-- An arithmetic result in a low register, with N, Z, C and V (R411). -/
def State.writeLowSum (s : State) (rd : LowReg) (r : AddResult) : Except Trap State :=
  ((s.setReg (lowReg rd) r.value).setNzcv r.nzcv).advance

/-- A logical result in a low register, with N and Z, the carry given, and V kept (R425, R429). -/
def State.writeLowLogical (s : State) (rd : LowReg) (v : Word) (carry : Bool) : Except Trap State :=
  ((s.setReg (lowReg rd) v).setNzcv (logicalNzcv s.cpsr v carry)).advance

/-- A result in a low register that leaves the flags alone (R418 to R421). -/
def State.writeLowPlain (s : State) (r : Reg) (v : Word) : Except Trap State := (s.setReg r v).advance

/-- A shift by a register: the least significant byte of Rs counts (R429). -/
def State.shiftLow (s : State) (t : ShiftType) (rs rd : LowReg) : Except Trap State :=
  let o := shiftBy t (s.low rd) ((s.low rs).extractLsb' 0 8).toNat s.cpsr.c
  s.writeLowLogical rd o.value o.carry

/-- A shift by a constant (R434 to R436): a field of 0 is LSL #0, LSR #32 and ASR #32. -/
def State.shiftLowConst (s : State) (t : ShiftType) (imm5 : BitVec 5) (rm rd : LowReg) : Except Trap State :=
  let o := shiftConst t (s.low rm) imm5 s.cpsr.c
  s.writeLowLogical rd o.value o.carry

/-- A register number with its H bit (R125). -/
def highReg (h : Bool) (r : LowReg) : Reg := bit1 h ++ r

/-- The end of ADD and MOV with a high register (R417, R441): no flags; r15 is a branch within Thumb state (R28(d)). -/
def State.writeHigh (s : State) (rd : Reg) (v : Word) : Except Trap State :=
  if rd = 15#4 then .ok (s.setPc (v &&& 0xFFFFFFFE#32)) else (s.setReg rd v).advance

/-- The pc as the base of an address, rounded down to a word (R395, R420). -/
def State.pcBase (s : State) : Word := (s.pc + 4#32) &&& 0xFFFFFFFC#32

/-- Four times an immediate field. -/
def scaled4 {n : Nat} (imm : BitVec n) : Word := BitVec.ofNat 32 (4 * imm.toNat)

/-! ## Addition and subtraction -/

/-- ADD, three low registers (R411). -/
def execTAddReg3 (rm rn rd : LowReg) (s : State) : Host.Outcome State Fault Refusal :=
  s.always fun s => s.writeLowSum rd (aluAdd (s.low rn) (s.low rm))

/-- SUB, three low registers (R412). -/
def execTSubReg3 (rm rn rd : LowReg) (s : State) : Host.Outcome State Fault Refusal :=
  s.always fun s => s.writeLowSum rd (aluSub (s.low rn) (s.low rm))

/-- ADD, 3-bit immediate (R413). -/
def execTAddImm3 (imm3 : BitVec 3) (rn rd : LowReg) (s : State) : Host.Outcome State Fault Refusal :=
  s.always fun s => s.writeLowSum rd (aluAdd (s.low rn) (imm3.zeroExtend 32))

/-- SUB, 3-bit immediate (R414). -/
def execTSubImm3 (imm3 : BitVec 3) (rn rd : LowReg) (s : State) : Host.Outcome State Fault Refusal :=
  s.always fun s => s.writeLowSum rd (aluSub (s.low rn) (imm3.zeroExtend 32))

/-- ADD, 8-bit immediate (R415). -/
def execTAddImm8 (rd : LowReg) (imm8 : BitVec 8) (s : State) : Host.Outcome State Fault Refusal :=
  s.always fun s => s.writeLowSum rd (aluAdd (s.low rd) (imm8.zeroExtend 32))

/-- SUB, 8-bit immediate (R416). -/
def execTSubImm8 (rd : LowReg) (imm8 : BitVec 8) (s : State) : Host.Outcome State Fault Refusal :=
  s.always fun s => s.writeLowSum rd (aluSub (s.low rd) (imm8.zeroExtend 32))

/-- ADD with a high register (R417). -/
def execTAddHigh (h1 h2 : Bool) (rm rd : LowReg) (s : State) : Host.Outcome State Fault Refusal :=
  s.always fun s => do
    forbid (!h1 && !h2) .lowRegisters
    s.writeHigh (highReg h1 rd) (s.reg (highReg h1 rd) + s.reg (highReg h2 rm))

/-- ADD to sp (R418). -/
def execTAddSp (imm7 : BitVec 7) (s : State) : Host.Outcome State Fault Refusal :=
  s.always fun s => s.writeLowPlain 13#4 (s.reg 13#4 + scaled4 imm7)

/-- SUB from sp (R419). -/
def execTSubSp (imm7 : BitVec 7) (s : State) : Host.Outcome State Fault Refusal :=
  s.always fun s => s.writeLowPlain 13#4 (s.reg 13#4 - scaled4 imm7)

/-- ADD Rd, pc, immediate (R420). -/
def execTAddPcImm (rd : LowReg) (imm8 : BitVec 8) (s : State) : Host.Outcome State Fault Refusal :=
  s.always fun s => s.writeLowPlain (lowReg rd) (s.pcBase + scaled4 imm8)

/-- ADD Rd, sp, immediate (R421). -/
def execTAddSpImm (rd : LowReg) (imm8 : BitVec 8) (s : State) : Host.Outcome State Fault Refusal :=
  s.always fun s => s.writeLowPlain (lowReg rd) (s.reg 13#4 + scaled4 imm8)

/-- ADC (R422). -/
def execTAdc (rm rd : LowReg) (s : State) : Host.Outcome State Fault Refusal :=
  s.always fun s => s.writeLowSum rd (aluAdc (s.low rd) (s.low rm) s.cpsr.c)

/-- SBC (R423). -/
def execTSbc (rm rd : LowReg) (s : State) : Host.Outcome State Fault Refusal :=
  s.always fun s => s.writeLowSum rd (aluSbc (s.low rd) (s.low rm) s.cpsr.c)

/-- NEG (R443). -/
def execTNeg (rm rd : LowReg) (s : State) : Host.Outcome State Fault Refusal :=
  s.always fun s => s.writeLowSum rd (aluSub 0#32 (s.low rm))

/-- The flags after MUL (R424): N and Z of the result; C and V kept from version 5 and drawn before it (D25). -/
def State.lowMulNzcv (s : State) (result : Word) : Nzcv :=
  { n := result.msb, z := result == 0#32
    c := if s.cfg.arch.atLeast5 then s.cpsr.c else s.drawBit 0
    v := if s.cfg.arch.atLeast5 then s.cpsr.v else s.drawBit 1 }

/-- MUL (R424): one register twice is a fault. -/
def execTMul (rm rd : LowReg) (s : State) : Host.Outcome State Fault Refusal :=
  s.always fun s => do
    forbid (rm == rd) .sameRegister
    let r := s.low rd * s.low rm
    let t := (s.setReg (lowReg rd) r).setNzcv (s.lowMulNzcv r)
    (if s.cfg.arch.atLeast5 then t else t.drawn 2).advance

/-! ## Logic and moves -/

/-- AND (R425). -/
def execTAnd (rm rd : LowReg) (s : State) : Host.Outcome State Fault Refusal :=
  s.always fun s => s.writeLowLogical rd (s.low rd &&& s.low rm) s.cpsr.c

/-- ORR (R426). -/
def execTOrr (rm rd : LowReg) (s : State) : Host.Outcome State Fault Refusal :=
  s.always fun s => s.writeLowLogical rd (s.low rd ||| s.low rm) s.cpsr.c

/-- EOR (R427). -/
def execTEor (rm rd : LowReg) (s : State) : Host.Outcome State Fault Refusal :=
  s.always fun s => s.writeLowLogical rd (s.low rd ^^^ s.low rm) s.cpsr.c

/-- BIC (R428). -/
def execTBic (rm rd : LowReg) (s : State) : Host.Outcome State Fault Refusal :=
  s.always fun s => s.writeLowLogical rd (s.low rd &&& ~~~(s.low rm)) s.cpsr.c

/-- MVN (R442). -/
def execTMvn (rm rd : LowReg) (s : State) : Host.Outcome State Fault Refusal :=
  s.always fun s => s.writeLowLogical rd (~~~(s.low rm)) s.cpsr.c

/-- TST (R444): only N and Z are written. -/
def execTTst (rm rd : LowReg) (s : State) : Host.Outcome State Fault Refusal :=
  s.always fun s => s.testLogical (s.low rd &&& s.low rm) s.cpsr.c

/-- MOV, 8-bit immediate (R440). -/
def execTMovImm8 (rd : LowReg) (imm8 : BitVec 8) (s : State) : Host.Outcome State Fault Refusal :=
  s.always fun s => s.writeLowLogical rd (imm8.zeroExtend 32) s.cpsr.c

/-- MOV with a high register (R441). -/
def execTMovHigh (h1 h2 : Bool) (rm rd : LowReg) (s : State) : Host.Outcome State Fault Refusal :=
  s.always fun s => do
    forbid (!h1 && !h2) .lowRegisters
    s.writeHigh (highReg h1 rd) (s.reg (highReg h2 rm))

/-! ## Shifts -/

/-- ASR by a register (R430). -/
def execTAsrReg (rm rd : LowReg) (s : State) : Host.Outcome State Fault Refusal :=
  s.always fun s => s.shiftLow .asr rm rd

/-- LSL by a register (R431). -/
def execTLslReg (rm rd : LowReg) (s : State) : Host.Outcome State Fault Refusal :=
  s.always fun s => s.shiftLow .lsl rm rd

/-- LSR by a register (R432). -/
def execTLsrReg (rm rd : LowReg) (s : State) : Host.Outcome State Fault Refusal :=
  s.always fun s => s.shiftLow .lsr rm rd

/-- ROR by a register (R433). -/
def execTRor (rm rd : LowReg) (s : State) : Host.Outcome State Fault Refusal :=
  s.always fun s => s.shiftLow .ror rm rd

/-- ASR by a constant (R434). -/
def execTAsrImm (imm5 : BitVec 5) (rm rd : LowReg) (s : State) : Host.Outcome State Fault Refusal :=
  s.always fun s => s.shiftLowConst .asr imm5 rm rd

/-- LSL by a constant (R435). -/
def execTLslImm (imm5 : BitVec 5) (rm rd : LowReg) (s : State) : Host.Outcome State Fault Refusal :=
  s.always fun s => s.shiftLowConst .lsl imm5 rm rd

/-- LSR by a constant (R436). -/
def execTLsrImm (imm5 : BitVec 5) (rm rd : LowReg) (s : State) : Host.Outcome State Fault Refusal :=
  s.always fun s => s.shiftLowConst .lsr imm5 rm rd

/-! ## Comparisons -/

/-- CMP, 8-bit immediate (R437). -/
def execTCmpImm8 (rn : LowReg) (imm8 : BitVec 8) (s : State) : Host.Outcome State Fault Refusal :=
  s.always fun s => s.compareSum (aluSub (s.low rn) (imm8.zeroExtend 32))

/-- CMP, low registers (R438). -/
def execTCmpLow (rm rd : LowReg) (s : State) : Host.Outcome State Fault Refusal :=
  s.always fun s => s.compareSum (aluSub (s.low rd) (s.low rm))

/-- CMP with a high register (R438): it writes the flags. -/
def execTCmpHigh (h1 h2 : Bool) (rm rd : LowReg) (s : State) : Host.Outcome State Fault Refusal :=
  s.always fun s => do
    forbid (!h1 && !h2) .lowRegisters
    s.compareSum (aluSub (s.reg (highReg h1 rd)) (s.reg (highReg h2 rm)))

/-- CMN (R439). -/
def execTCmn (rm rd : LowReg) (s : State) : Host.Outcome State Fault Refusal :=
  s.always fun s => s.compareSum (aluAdd (s.low rd) (s.low rm))

end Sys2Proof.Machine
end

