-- ==== Sys2Proof/Machine/ThumbBranch.lean ====
section
/-! DEFINITION. The Thumb branches, SWI, BKPT and the undefined instruction (spec 48_thumb_branch_swi_pseudo.md, R134). -/

namespace Sys2Proof.Machine

/-- A branch target in Thumb state (R450): the halfword offset from `cur + 4`. -/
def State.thumbTarget (s : State) {n : Nat} (imm : BitVec n) : Word := s.pc + 4#32 + ((imm.signExtend 32) <<< 1)

/-- The return address that the Thumb branches with link leave in r14 (R453, R455, R456): the next halfword, bit 0
set. -/
def State.thumbReturn (s : State) : Word := (s.pc + 2#32) ||| 1#32

/-- B (R451). -/
def execTB (imm11 : BitVec 11) (s : State) : Host.Outcome State Fault Refusal :=
  s.always fun s => .ok (s.setPc (s.thumbTarget imm11))

/-- B with a condition (R452). -/
def execTBCond (cond : Cond) (imm8 : BitVec 8) (s : State) : Host.Outcome State Fault Refusal :=
  s.ifPassed cond fun s => .ok (s.setPc (s.thumbTarget imm8))

/-- The first half of BL and BLX (R453, D18). -/
def execTBlFirst (hi11 : BitVec 11) (s : State) : Host.Outcome State Fault Refusal :=
  s.always fun s => (s.setReg 14#4 (s.pc + 4#32 + ((hi11.signExtend 32) <<< 12))).advance

/-- The second half of BL (R453): Thumb state is kept. -/
def execTBlSecond (lo11 : BitVec 11) (s : State) : Host.Outcome State Fault Refusal :=
  s.always fun s =>
    .ok ((s.setReg 14#4 s.thumbReturn).setPc
      ((s.reg 14#4 + ((lo11.zeroExtend 32) <<< 1)) &&& 0xFFFFFFFE#32))

/-- The second half of BLX (R456): to ARM state. `lo10` are bits 10 to 1 of the halfword, bit 0 being 0. -/
def execTBlxSecond (lo10 : BitVec 10) (s : State) : Host.Outcome State Fault Refusal :=
  s.always fun s =>
    .ok (((s.setReg 14#4 s.thumbReturn).setThumb false).setPc
      ((s.reg 14#4 + ((lo10.zeroExtend 32) <<< 2)) &&& 0xFFFFFFFC#32))

/-- BX (R454). -/
def execTBx (h2 : Bool) (rm : LowReg) (s : State) : Host.Outcome State Fault Refusal :=
  s.always fun s => s.branchExchange (s.reg (highReg h2 rm))

/-- BLX, register form (R455): Rm is read before r14 is written. -/
def execTBlxReg (h2 : Bool) (rm : LowReg) (s : State) : Host.Outcome State Fault Refusal :=
  s.always fun s => do
    forbid (isPc (highReg h2 rm)) .forbiddenPc
    (s.setReg 14#4 s.thumbReturn).branchExchange (s.reg (highReg h2 rm))

/-- SWI (R457). -/
def execTSwi (imm8 : BitVec 8) (s : State) : Host.Outcome State Fault Refusal :=
  s.always fun s => s.softwareInterrupt (imm8 == 0xAB#8)

/-- BKPT (R458). -/
def execTBkpt (imm8 : BitVec 8) (s : State) : Host.Outcome State Fault Refusal :=
  s.always fun s => s.breakpoint (imm8.zeroExtend 16)

/-- The condition field 1110 of the conditional branch (R134, R452): the Undefined Instruction exception. -/
def execTUnallocated (_imm8 : BitVec 8) (s : State) : Host.Outcome State Fault Refusal :=
  s.always fun _ => raise .undefined

end Sys2Proof.Machine
end

