-- ==== Sys2Proof/Machine/ThumbMemory.lean ====
section
/-! DEFINITION. The Thumb loads and stores (spec 46_thumb_memory_access.md). -/

namespace Sys2Proof.Machine

/-! ## Common parts (R380): a misaligned word or halfword access is a Data Abort or a fault -/

/-- A word load to a low register (R381). -/
def State.loadLowWord (s : State) (rd : LowReg) (a : Word) : Except Trap State := do
  s.checkAligned a 3#32
  let v ← s.readWord a s.privileged
  (s.setReg (lowReg rd) v).advance

/-- A word store of a low register (R382). -/
def State.storeLowWord (s : State) (rd : LowReg) (a : Word) : Except Trap State := do
  s.checkAligned a 3#32
  let t ← s.writeWord a (s.low rd) s.privileged
  t.advance

/-- A zero-extended halfword load (R383). -/
def State.loadLowHalf (s : State) (rd : LowReg) (a : Word) : Except Trap State := do
  s.checkAligned a 1#32
  let v ← s.readHalf a s.privileged
  (s.setReg (lowReg rd) (v.zeroExtend 32)).advance

/-- A sign-extended halfword load (R390). -/
def State.loadLowSignedHalf (s : State) (rd : LowReg) (a : Word) : Except Trap State := do
  s.checkAligned a 1#32
  let v ← s.readHalf a s.privileged
  (s.setReg (lowReg rd) (v.signExtend 32)).advance

/-- A halfword store (R384). -/
def State.storeLowHalf (s : State) (rd : LowReg) (a : Word) : Except Trap State := do
  s.checkAligned a 1#32
  let t ← s.writeHalf a ((s.low rd).extractLsb' 0 16) s.privileged
  t.advance

/-- A zero-extended byte load (R385). -/
def State.loadLowByte (s : State) (rd : LowReg) (a : Word) : Except Trap State := do
  let v ← s.readByte a s.privileged
  (s.setReg (lowReg rd) (v.zeroExtend 32)).advance

/-- A sign-extended byte load (R393). -/
def State.loadLowSignedByte (s : State) (rd : LowReg) (a : Word) : Except Trap State := do
  let v ← s.readByte a s.privileged
  (s.setReg (lowReg rd) (v.signExtend 32)).advance

/-- A byte store (R386). -/
def State.storeLowByte (s : State) (rd : LowReg) (a : Word) : Except Trap State := do
  let t ← s.writeByte a ((s.low rd).extractLsb' 0 8) s.privileged
  t.advance

/-- Twice an immediate field. -/
def scaled2 {n : Nat} (imm : BitVec n) : Word := BitVec.ofNat 32 (2 * imm.toNat)

/-! ## Immediate offset -/

/-- LDR, immediate offset (R381). -/
def execTLdrImm (imm5 : BitVec 5) (rn rd : LowReg) (s : State) : Host.Outcome State Fault Refusal :=
  s.always fun s => s.loadLowWord rd (s.low rn + scaled4 imm5)

/-- STR, immediate offset (R382). -/
def execTStrImm (imm5 : BitVec 5) (rn rd : LowReg) (s : State) : Host.Outcome State Fault Refusal :=
  s.always fun s => s.storeLowWord rd (s.low rn + scaled4 imm5)

/-- LDRH, immediate offset (R383). -/
def execTLdrhImm (imm5 : BitVec 5) (rn rd : LowReg) (s : State) : Host.Outcome State Fault Refusal :=
  s.always fun s => s.loadLowHalf rd (s.low rn + scaled2 imm5)

/-- STRH, immediate offset (R384). -/
def execTStrhImm (imm5 : BitVec 5) (rn rd : LowReg) (s : State) : Host.Outcome State Fault Refusal :=
  s.always fun s => s.storeLowHalf rd (s.low rn + scaled2 imm5)

/-- LDRB, immediate offset (R385). -/
def execTLdrbImm (imm5 : BitVec 5) (rn rd : LowReg) (s : State) : Host.Outcome State Fault Refusal :=
  s.always fun s => s.loadLowByte rd (s.low rn + imm5.zeroExtend 32)

/-- STRB, immediate offset (R386). -/
def execTStrbImm (imm5 : BitVec 5) (rn rd : LowReg) (s : State) : Host.Outcome State Fault Refusal :=
  s.always fun s => s.storeLowByte rd (s.low rn + imm5.zeroExtend 32)

/-! ## Register offset -/

/-- LDR, register offset (R387). -/
def execTLdrReg (rm rn rd : LowReg) (s : State) : Host.Outcome State Fault Refusal :=
  s.always fun s => s.loadLowWord rd (s.low rn + s.low rm)

/-- STR, register offset (R388). -/
def execTStrReg (rm rn rd : LowReg) (s : State) : Host.Outcome State Fault Refusal :=
  s.always fun s => s.storeLowWord rd (s.low rn + s.low rm)

/-- LDRH, register offset (R389). -/
def execTLdrhReg (rm rn rd : LowReg) (s : State) : Host.Outcome State Fault Refusal :=
  s.always fun s => s.loadLowHalf rd (s.low rn + s.low rm)

/-- LDRSH, register offset (R390). -/
def execTLdrshReg (rm rn rd : LowReg) (s : State) : Host.Outcome State Fault Refusal :=
  s.always fun s => s.loadLowSignedHalf rd (s.low rn + s.low rm)

/-- STRH, register offset (R391). -/
def execTStrhReg (rm rn rd : LowReg) (s : State) : Host.Outcome State Fault Refusal :=
  s.always fun s => s.storeLowHalf rd (s.low rn + s.low rm)

/-- LDRB, register offset (R392). -/
def execTLdrbReg (rm rn rd : LowReg) (s : State) : Host.Outcome State Fault Refusal :=
  s.always fun s => s.loadLowByte rd (s.low rn + s.low rm)

/-- LDRSB, register offset (R393). -/
def execTLdrsbReg (rm rn rd : LowReg) (s : State) : Host.Outcome State Fault Refusal :=
  s.always fun s => s.loadLowSignedByte rd (s.low rn + s.low rm)

/-- STRB, register offset (R394). -/
def execTStrbReg (rm rn rd : LowReg) (s : State) : Host.Outcome State Fault Refusal :=
  s.always fun s => s.storeLowByte rd (s.low rn + s.low rm)

/-! ## Relative to pc and sp -/

/-- LDR, relative to the pc (R395). -/
def execTLdrPc (rd : LowReg) (imm8 : BitVec 8) (s : State) : Host.Outcome State Fault Refusal :=
  s.always fun s => s.loadLowWord rd (s.pcBase + scaled4 imm8)

/-- LDR, relative to sp (R396). -/
def execTLdrSpRel (rd : LowReg) (imm8 : BitVec 8) (s : State) : Host.Outcome State Fault Refusal :=
  s.always fun s => s.loadLowWord rd (s.reg 13#4 + scaled4 imm8)

/-- STR, relative to sp (R397). -/
def execTStrSpRel (rd : LowReg) (imm8 : BitVec 8) (s : State) : Host.Outcome State Fault Refusal :=
  s.always fun s => s.storeLowWord rd (s.reg 13#4 + scaled4 imm8)

/-! ## Multiple transfers -/

/-- The words of a multiple load from `start` (R399, R400, R75): bits[1:0] of the addresses are ignored, or checked. -/
def State.loadLowBlock (s : State) (start : Word) (n : Nat) : Except Trap (List Word) := do
  s.checkWordAligned start
  checkTransfer (wordAddress start) n
  s.readWords s.privileged n (wordAddress start)

/-- The words of a multiple store from `start` (R398, R401, R75). -/
def State.storeLowBlock (s : State) (start : Word) (words : List Word) : Except Trap State := do
  s.checkWordAligned start
  checkTransfer (wordAddress start) words.length
  s.writeWords s.privileged words (wordAddress start)

/-- The registers of PUSH (R398): those of the list, then r14. -/
def pushList (r : Bool) (regs : BitVec 8) : List Reg := regList regs ++ (if r then [14#4] else [])

/-- PUSH (R398). -/
def execTPush (r : Bool) (regs : BitVec 8) (s : State) : Host.Outcome State Fault Refusal :=
  s.always fun s => do
    let list := pushList r regs
    forbid list.isEmpty .emptyList
    let start := s.reg 13#4 - BitVec.ofNat 32 (4 * list.length)
    let t ← s.storeLowBlock start (list.map s.reg)
    (t.setReg 13#4 start).advance

/-- The branch of POP to the word taken for the pc (R399): below version 5 Thumb state is kept. -/
def State.popPc (s : State) (v : Word) : Except Trap State :=
  if s.cfg.arch.atLeast5 then
    if v &&& 3#32 = 2#32 then stop .pcTarget
    else .ok ((s.setThumb (v.getLsbD 0)).setPc (v &&& 0xFFFFFFFE#32))
  else .ok (s.setPc (v &&& 0xFFFFFFFE#32))

/-- POP (R399). -/
def execTPop (r : Bool) (regs : BitVec 8) (s : State) : Host.Outcome State Fault Refusal :=
  s.always fun s => do
    let list := regList regs
    let n := list.length + r.toNat
    forbid (n == 0) .emptyList
    let start := s.reg 13#4
    let words ← s.loadLowBlock start n
    let t := (s.setRegs list words).setReg 13#4 (start + BitVec.ofNat 32 (4 * n))
    if r then t.popPc (words.getLastD 0#32) else t.advance

/-- LDMIA (R400): a base in the list keeps the loaded value. -/
def execTLdmia (rn : LowReg) (regs : BitVec 8) (s : State) : Host.Outcome State Fault Refusal :=
  s.always fun s => do
    let list := regList regs
    forbid list.isEmpty .emptyList
    let start := s.low rn
    let words ← s.loadLowBlock start list.length
    ((s.setReg (lowReg rn) (start + BitVec.ofNat 32 (4 * list.length))).setRegs list words).advance

/-- STMIA (R401): a base in the list must be its lowest register. -/
def execTStmia (rn : LowReg) (regs : BitVec 8) (s : State) : Host.Outcome State Fault Refusal :=
  s.always fun s => do
    let list := regList regs
    forbid list.isEmpty .emptyList
    forbid (list.contains (lowReg rn) && list.head? != some (lowReg rn)) .baseInList
    let start := s.low rn
    let t ← s.storeLowBlock start (list.map s.reg)
    (t.setReg (lowReg rn) (start + BitVec.ofNat 32 (4 * list.length))).advance

end Sys2Proof.Machine
end

