-- ==== Sys2Proof/Machine/VfpFloat.lean ====
section
/-! DEFINITION. The floating-point arithmetic of the VFP (spec 49_vfp.md R501, R504, R505, D31): the IEEE 754 basic
formats, exact arithmetic on sign, significand and exponent, and one function that rounds. A bit pattern is a natural
number here; `VfpOps` takes it from the registers and puts it back. -/

namespace Sys2Proof.Machine

/-- A basic format (R501): the widths of its exponent and of its fraction. -/
structure FpFormat where
  expBits : Nat
  fracBits : Nat
  deriving DecidableEq, Repr

/-- Single precision (R501). -/
def fpSingle : FpFormat := { expBits := 8, fracBits := 23 }

/-- Double precision (R501). -/
def fpDouble : FpFormat := { expBits := 11, fracBits := 52 }

/-- The largest biased exponent: infinities and NaNs. -/
def FpFormat.expMax (f : FpFormat) : Nat := 2 ^ f.expBits - 1

/-- The exponent of the smallest normal number: -126 or -1022. -/
def FpFormat.expMin (f : FpFormat) : Int := 2 - 2 ^ (f.expBits - 1)

/-- The pattern of +infinity. -/
def FpFormat.infBits (f : FpFormat) : Nat := f.expMax * 2 ^ f.fracBits

/-- The sign bit's weight. -/
def FpFormat.signBits (f : FpFormat) (negative : Bool) : Nat := if negative then 2 ^ (f.expBits + f.fracBits) else 0

/-- The weight of the top fraction bit, which a quiet NaN has set (R504). -/
def FpFormat.quietBit (f : FpFormat) : Nat := 2 ^ (f.fracBits - 1)

/-- The default NaN (R504): 0x7FC00000, 0x7FF8000000000000. -/
def FpFormat.defaultNan (f : FpFormat) : Nat := f.infBits + f.quietBit

/-- What a bit pattern stands for: a NaN with its fraction, an infinity, or `mant * 2^exp` with a sign. -/
inductive Fp where
  | nan (negative : Bool) (frac : Nat)
  | inf (negative : Bool)
  | fin (negative : Bool) (mant : Nat) (exp : Int)
  deriving DecidableEq, Repr

/-- The cumulative exception bits that an operation raises, as FPSCR[4:0] (R42, R504). -/
abbrev FpExc := BitVec 5

def excIOC : FpExc := 0b00001#5
def excDZC : FpExc := 0b00010#5
def excOFC : FpExc := 0b00100#5
def excUFC : FpExc := 0b01000#5
def excIXC : FpExc := 0b10000#5

/-- The result of a floating-point operation: a bit pattern and the exceptions it raises. -/
structure FpResult where
  bits : Nat
  exc : FpExc
  deriving DecidableEq, Repr

/-- The rounding modes (R42, R504): FPSCR.RMODE 00, 01, 10, 11. -/
inductive Rounding where
  | nearest | plusInfinity | minusInfinity | zero
  deriving DecidableEq, Repr

/-- How an operation rounds: FPSCR.RMODE and FPSCR.FZ. -/
structure FpMode where
  rounding : Rounding
  flush : Bool
  deriving DecidableEq, Repr

/-- The sign of a pattern. -/
def FpFormat.negative (f : FpFormat) (bits : Nat) : Bool := bits / 2 ^ (f.expBits + f.fracBits) % 2 == 1

/-- The biased exponent of a pattern. -/
def FpFormat.biased (f : FpFormat) (bits : Nat) : Nat := bits / 2 ^ f.fracBits % 2 ^ f.expBits

/-- The fraction of a pattern. -/
def FpFormat.fraction (f : FpFormat) (bits : Nat) : Nat := bits % 2 ^ f.fracBits

/-- What a pattern stands for (R501). -/
def FpFormat.unpack (f : FpFormat) (bits : Nat) : Fp :=
  let neg := f.negative bits
  let e := f.biased bits
  let frac := f.fraction bits
  if e = f.expMax then if frac = 0 then .inf neg else .nan neg frac
  else if e = 0 then .fin neg frac (f.expMin - f.fracBits)
  else .fin neg (frac + 2 ^ f.fracBits) (f.expMin - f.fracBits + (e - 1 : Nat))

/-- Whether a pattern is a denormalized number. -/
def FpFormat.denormal (f : FpFormat) (bits : Nat) : Bool := f.biased bits == 0 && f.fraction bits != 0

/-- An operand as flush-to-zero mode treats it (R505): a denormalized number reads as +0. -/
def FpFormat.operand (f : FpFormat) (m : FpMode) (bits : Nat) : Nat :=
  if m.flush && f.denormal bits then 0 else bits

/-- The exception that reading an operand raises (R505). -/
def FpFormat.operandExc (f : FpFormat) (m : FpMode) (bits : Nat) : FpExc :=
  if m.flush && f.denormal bits then excIXC else 0#5

/-- Whether a pattern is a NaN. -/
def FpFormat.isNan (f : FpFormat) (bits : Nat) : Bool := f.biased bits == f.expMax && f.fraction bits != 0

/-- Whether a pattern is a signalling NaN: its top fraction bit is 0 (R504). -/
def FpFormat.signalling (f : FpFormat) (bits : Nat) : Bool :=
  f.isNan bits && decide (f.fraction bits < f.quietBit)

/-- A NaN with its top fraction bit set (R504). -/
def FpFormat.quieted (f : FpFormat) (bits : Nat) : Nat := if f.signalling bits then bits + f.quietBit else bits

/-- A sign flip (R512, R516, R519). -/
def FpFormat.flipSign (f : FpFormat) (bits : Nat) : Nat :=
  if f.negative bits then bits - 2 ^ (f.expBits + f.fracBits) else bits + 2 ^ (f.expBits + f.fracBits)

/-- A pattern with its sign bit cleared (R511). -/
def FpFormat.clearSign (f : FpFormat) (bits : Nat) : Nat :=
  if f.negative bits then bits - 2 ^ (f.expBits + f.fracBits) else bits

/-- The result when some operand is a NaN (R504): the first signalling NaN, quietened, with Invalid Operation; else the
first quiet NaN. -/
def FpFormat.nanResult (f : FpFormat) (operands : List Nat) : Option FpResult :=
  match operands.find? f.signalling with
  | some b => some { bits := f.quieted b, exc := excIOC }
  | none => (operands.find? f.isNan).map fun b => { bits := b, exc := 0#5 }

/-- The default NaN with Invalid Operation (R504). -/
def FpFormat.invalid (f : FpFormat) : FpResult := { bits := f.defaultNan, exc := excIOC }

/-- An infinity. -/
def FpFormat.infinity (f : FpFormat) (negative : Bool) : FpResult :=
  { bits := f.infBits + f.signBits negative, exc := 0#5 }

/-- A zero. -/
def FpFormat.zero (f : FpFormat) (negative : Bool) : FpResult := { bits := f.signBits negative, exc := 0#5 }

/-- A magnitude `mant * 2^exp` at the quantum `2^q`, rounded (R504; ties to even, D31), and whether that is inexact. -/
def roundQuantum (r : Rounding) (negative : Bool) (mant : Nat) (exp q : Int) : Nat × Bool :=
  if q ≤ exp then (mant * 2 ^ (exp - q).toNat, false)
  else
    let unit := 2 ^ (q - exp).toNat
    let sig := mant / unit
    let rem := mant % unit
    let up := match r with
      | .nearest => decide (unit < 2 * rem) || (decide (unit = 2 * rem) && sig % 2 == 1)
      | .plusInfinity => rem != 0 && !negative
      | .minusInfinity => rem != 0 && negative
      | .zero => false
    (if up then sig + 1 else sig, rem != 0)

/-- The result of an overflow (R504): by rounding mode and sign. -/
def FpFormat.overflowed (f : FpFormat) (r : Rounding) (negative : Bool) : Nat :=
  let toInfinity := match r with
    | .nearest => true
    | .plusInfinity => !negative
    | .minusInfinity => negative
    | .zero => false
  (if toInfinity then f.infBits else f.infBits - 1) + f.signBits negative

/-- The result of an operation whose exact value is `mant * 2^exp` with a sign, `mant` not 0 (R504, R505, D31). -/
def FpFormat.round (f : FpFormat) (m : FpMode) (negative : Bool) (mant : Nat) (exp : Int) : FpResult :=
  let top : Int := (Nat.log2 mant : Int) + exp
  let tiny := decide (top < f.expMin)
  if m.flush && tiny then { bits := 0, exc := excIXC }
  else
    let least : Int := f.expMin - f.fracBits
    let q : Int := max (top - f.fracBits) least
    let (sig, inexact) := roundQuantum m.rounding negative mant exp q
    let bits := (q - least).toNat * 2 ^ f.fracBits + sig
    if f.infBits ≤ bits then { bits := f.overflowed m.rounding negative, exc := excOFC ||| excIXC }
    else
      { bits := bits + f.signBits negative
        exc := if inexact then (if tiny then excUFC ||| excIXC else excIXC) else 0#5 }

/-- The sign of an exact zero sum (R513): that of both operands, else + except under RM. -/
def zeroSumSign (m : FpMode) (a b : Bool) : Bool := if a = b then a else m.rounding == .minusInfinity

/-- A signed significand. -/
def signed (negative : Bool) (mant : Nat) : Int := if negative then -(mant : Int) else (mant : Int)

/-- `round(a + b)` of operands already read (R513). -/
def FpFormat.addCore (f : FpFormat) (m : FpMode) (a b : Nat) : FpResult :=
  match f.nanResult [a, b] with
  | some r => r
  | none =>
    match f.unpack a, f.unpack b with
    | .inf x, .inf y => if x = y then f.infinity x else f.invalid
    | .inf x, _ => f.infinity x
    | _, .inf y => f.infinity y
    | .fin x ma ea, .fin y mb eb =>
      let e := min ea eb
      let sum := signed x (ma * 2 ^ (ea - e).toNat) + signed y (mb * 2 ^ (eb - e).toNat)
      if sum = 0 then f.zero (zeroSumSign m x y) else f.round m (decide (sum < 0)) sum.natAbs e
    | _, _ => f.invalid

/-- `round(a * b)` of operands already read (R515). -/
def FpFormat.mulCore (f : FpFormat) (m : FpMode) (a b : Nat) : FpResult :=
  match f.nanResult [a, b] with
  | some r => r
  | none =>
    match f.unpack a, f.unpack b with
    | .inf x, .inf y => f.infinity (x != y)
    | .inf x, .fin y mb _ => if mb = 0 then f.invalid else f.infinity (x != y)
    | .fin x ma _, .inf y => if ma = 0 then f.invalid else f.infinity (x != y)
    | .fin x ma ea, .fin y mb eb =>
      if ma * mb = 0 then f.zero (x != y) else f.round m (x != y) (ma * mb) (ea + eb)
    | _, _ => f.invalid

/-- A quotient or root that is not exact stands one half above its last bit: enough for every rounding, because that bit
lies below the quantum and the quantum's half. -/
def jam (v : Nat) (exact : Bool) : Nat := 2 * v + (if exact then 0 else 1)

/-- `round(a / b)` of operands already read (R517). -/
def FpFormat.divCore (f : FpFormat) (m : FpMode) (a b : Nat) : FpResult :=
  match f.nanResult [a, b] with
  | some r => r
  | none =>
    match f.unpack a, f.unpack b with
    | .inf _, .inf _ => f.invalid
    | .inf x, .fin y _ _ => f.infinity (x != y)
    | .fin x _ _, .inf y => f.zero (x != y)
    | .fin x ma ea, .fin y mb eb =>
      if mb = 0 then
        if ma = 0 then f.invalid else { f.infinity (x != y) with exc := excDZC }
      else if ma = 0 then f.zero (x != y)
      else
        let k := 2 * f.fracBits + 4
        let num := ma * 2 ^ k
        f.round m (x != y) (jam (num / mb) (num % mb == 0)) (ea - eb - k - 1)
    | _, _ => f.invalid

/-- The integer square root by its bits, `n` of them still to be decided. -/
def rootBits (x : Nat) : Nat → Nat → Nat
  | 0, r => r
  | n + 1, r => rootBits x n (if (r + 2 ^ n) * (r + 2 ^ n) ≤ x then r + 2 ^ n else r)

/-- `round(sqrt(a))` of an operand already read (R518). -/
def FpFormat.sqrtCore (f : FpFormat) (m : FpMode) (a : Nat) : FpResult :=
  match f.nanResult [a] with
  | some r => r
  | none =>
    match f.unpack a with
    | .inf x => if x then f.invalid else f.infinity false
    | .fin x ma ea =>
      if ma = 0 then f.zero x
      else if x then f.invalid
      else
        let k := f.fracBits + 3
        let odd := ea % 2 = 1
        let v := (if odd then 2 * ma else ma) * 2 ^ (2 * k)
        let root := rootBits v (2 * f.fracBits + 8) 0
        f.round m false (jam root (root * root == v)) ((if odd then ea - 1 else ea) / 2 - k - 1)
    | .nan _ _ => f.invalid

/-- A result with more exceptions. -/
def FpResult.also (r : FpResult) (e : FpExc) : FpResult := { r with exc := r.exc ||| e }

/-- A result with its sign flipped (R516, R519). -/
def FpFormat.negated (f : FpFormat) (r : FpResult) : FpResult := { r with bits := f.flipSign r.bits }

/-- FADD (R513). -/
def FpFormat.add (f : FpFormat) (m : FpMode) (a b : Nat) : FpResult :=
  (f.addCore m (f.operand m a) (f.operand m b)).also (f.operandExc m a ||| f.operandExc m b)

/-- FSUB (R514): the sum with the second operand's sign flipped, but for a NaN, which is taken as it is. -/
def FpFormat.sub (f : FpFormat) (m : FpMode) (a b : Nat) : FpResult :=
  let b' := f.operand m b
  (f.addCore m (f.operand m a) (if f.isNan b' then b' else f.flipSign b')).also
    (f.operandExc m a ||| f.operandExc m b)

/-- FMUL (R515). -/
def FpFormat.mul (f : FpFormat) (m : FpMode) (a b : Nat) : FpResult :=
  (f.mulCore m (f.operand m a) (f.operand m b)).also (f.operandExc m a ||| f.operandExc m b)

/-- FNMUL (R516): the sign of the rounded product is flipped, also where flush-to-zero has made the product +0 (R505); the
result is then -0, by the model's choice (notes/assumptions/26). -/
def FpFormat.nmul (f : FpFormat) (m : FpMode) (a b : Nat) : FpResult := f.negated (f.mul m a b)

/-- FDIV (R517). -/
def FpFormat.div (f : FpFormat) (m : FpMode) (a b : Nat) : FpResult :=
  (f.divCore m (f.operand m a) (f.operand m b)).also (f.operandExc m a ||| f.operandExc m b)

/-- FSQRT (R518). -/
def FpFormat.sqrt (f : FpFormat) (m : FpMode) (a : Nat) : FpResult :=
  (f.sqrtCore m (f.operand m a)).also (f.operandExc m a)

/-- The multiply-accumulate family (R519, D32): the product is rounded, then the sum; `negD` flips the sign of Fd as it
is read and `negP` that of the product. -/
def FpFormat.mulAdd (f : FpFormat) (m : FpMode) (negD negP : Bool) (d a b : Nat) : FpResult :=
  let p := f.mul m a b
  let d' := f.operand m d
  let d'' := if negD then f.flipSign d' else d'
  let p' := if negP then f.flipSign p.bits else p.bits
  (f.add m d'' p').also (p.exc ||| f.operandExc m d)

/-- The flags and the exceptions of a comparison. -/
structure FpComparison where
  flags : Nzcv
  exc : FpExc
  deriving DecidableEq, Repr

/-- The flags of an ordered comparison (R506). -/
def orderedFlags (less equal : Bool) : Nzcv := { n := less, z := equal, c := !less, v := false }

/-- The flags of an unordered comparison (R506). -/
def unorderedFlags : Nzcv := { n := false, z := false, c := true, v := true }

/-- The comparison of what two patterns stand for (R506): +0 and -0 are equal. -/
def compareFp : Fp → Fp → Nzcv
  | .nan _ _, _ => unorderedFlags
  | .inf _, .nan _ _ => unorderedFlags
  | .fin _ _ _, .nan _ _ => unorderedFlags
  | .inf x, .inf y => orderedFlags (x && !y) (x == y)
  | .inf x, .fin _ _ _ => orderedFlags x false
  | .fin _ _ _, .inf y => orderedFlags (!y) false
  | .fin x ma ea, .fin y mb eb =>
    let e := min ea eb
    let a := signed x (ma * 2 ^ (ea - e).toNat)
    let b := signed y (mb * 2 ^ (eb - e).toNat)
    orderedFlags (decide (a < b)) (decide (a = b))

/-- FCMP, and FCMPE with `quietToo` (R524). -/
def FpFormat.compare (f : FpFormat) (m : FpMode) (quietToo : Bool) (a b : Nat) : FpComparison :=
  let invalid := f.signalling a || f.signalling b || (quietToo && (f.isNan a || f.isNan b))
  { flags := compareFp (f.unpack (f.operand m a)) (f.unpack (f.operand m b))
    exc := (if invalid then excIOC else 0#5) ||| f.operandExc m a ||| f.operandExc m b }

/-- FSITO and FUITO (R528, R529). -/
def FpFormat.ofInt (f : FpFormat) (m : FpMode) (v : Int) : FpResult :=
  if v = 0 then f.zero false else f.round m (decide (v < 0)) v.natAbs 0

/-- FTOSI and FTOUI (R530, R531): the nearest integer by `r` when it lies in `lo` to `hi`; otherwise the near end of
that range, and 0 for a NaN, with Invalid Operation alone. -/
def FpFormat.toInt (f : FpFormat) (m : FpMode) (r : Rounding) (lo hi : Int) (bits : Nat) : Int × FpExc :=
  match f.unpack (f.operand m bits) with
  | .nan _ _ => (0, excIOC)
  | .inf x => (if x then lo else hi, excIOC)
  | .fin x mant e =>
    let (mag, inexact) := roundQuantum r x mant e 0
    let v := signed x mag
    if hi < v then (hi, excIOC)
    else if v < lo then (lo, excIOC)
    else (v, (if inexact then excIXC else 0#5) ||| f.operandExc m bits)

/-- FCVTDS (R526): always exact; a NaN keeps its sign and its fraction, and is quietened. -/
def singleToDouble (m : FpMode) (bits : Nat) : FpResult :=
  match fpSingle.unpack (fpSingle.operand m bits) with
  | .nan x frac =>
    { bits := fpDouble.quieted (fpDouble.infBits + fpDouble.signBits x + frac * 2 ^ 29)
      exc := if fpSingle.signalling bits then excIOC else 0#5 }
  | .inf x => fpDouble.infinity x
  | .fin x mant e =>
    (if mant = 0 then fpDouble.zero x else fpDouble.round m x mant e).also (fpSingle.operandExc m bits)

/-- FCVTSD (R527). Of a NaN the spec states no single-precision fraction: it is `payload`, a free value, below the top
fraction bit, which is set, and the sign is kept (notes/assumptions/12). -/
def doubleToSingle (m : FpMode) (payload : Nat) (bits : Nat) : FpResult :=
  match fpDouble.unpack (fpDouble.operand m bits) with
  | .nan x _ =>
    { bits := fpSingle.defaultNan + fpSingle.signBits x + payload % fpSingle.quietBit
      exc := if fpDouble.signalling bits then excIOC else 0#5 }
  | .inf x => fpSingle.infinity x
  | .fin x mant e =>
    (if mant = 0 then fpSingle.zero x else fpSingle.round m x mant e).also (fpDouble.operandExc m bits)

end Sys2Proof.Machine
end

