-- ==== Sys2Proof/Machine/VfpOps.lean ====
section
/-! DEFINITION. The operations that the VFP instructions share (spec 10_state.md R40 to R44, 49_vfp.md R500 to R504): the
VFP registers, FPSCR, scalar and vector operation, and when an instruction is refused. -/

namespace Sys2Proof.Machine

/-! ## Registers (R40) -/

/-- `S[i]`. -/
def State.sreg (s : State) (i : Nat) : Word := s.vfp.get (Fin.ofNat 32 i)

/-- `S[i] <- v`. -/
def State.setSreg (s : State) (i : Nat) (v : Word) : State := { s with vfp := s.vfp.set (Fin.ofNat 32 i) v }

/-- `D[i]` (R40): S[2i] is the low word. -/
def State.dreg (s : State) (i : Nat) : DWord := s.sreg (2 * i + 1) ++ s.sreg (2 * i)

/-- `D[i] <- v` (R40). -/
def State.setDreg (s : State) (i : Nat) (v : DWord) : State :=
  (s.setSreg (2 * i) (v.extractLsb' 0 32)).setSreg (2 * i + 1) (v.extractLsb' 32 32)

/-- The precision of an instruction (R501). -/
inductive Precision where
  | single | double
  deriving DecidableEq, Repr

/-- The format of a precision. -/
def Precision.format : Precision → FpFormat
  | .single => fpSingle
  | .double => fpDouble

/-- `F[i]` (R501) as a bit pattern. -/
def State.freg (s : State) (p : Precision) (i : Nat) : Nat :=
  match p with
  | .single => (s.sreg i).toNat
  | .double => (s.dreg i).toNat

/-- `F[i] <- bits` (R501). -/
def State.setFreg (s : State) (p : Precision) (i : Nat) (bits : Nat) : State :=
  match p with
  | .single => s.setSreg i (BitVec.ofNat 32 bits)
  | .double => s.setDreg i (BitVec.ofNat 64 bits)

/-! ## FPSCR and FPEXC (R42, R43) -/

/-- FPSCR.RMODE (R42). -/
def State.rounding (s : State) : Rounding :=
  if s.fpscr.getLsbD 23 then (if s.fpscr.getLsbD 22 then .zero else .minusInfinity)
  else if s.fpscr.getLsbD 22 then .plusInfinity
  else .nearest

/-- FPSCR.RMODE and FPSCR.FZ (R42). -/
def State.fpMode (s : State) : FpMode := { rounding := s.rounding, flush := s.fpscr.getLsbD 24 }

/-- The length of vectors (R42): 1 + FPSCR.LEN. -/
def State.vecLen (s : State) : Nat := (s.fpscr.extractLsb' 16 3).toNat + 1

/-- The stride of vectors (R42, R502): FPSCR.STRIDE 00 is 1 and 11 is 2; the other values have no meaning. -/
def State.vecStride (s : State) : Option Nat :=
  let f := s.fpscr.extractLsb' 20 2
  if f = 0#2 then some 1 else if f = 3#2 then some 2 else none

/-- The trap enable bits, FPSCR[12:8] (R42), in the order of the cumulative bits. -/
def State.trapEnables (s : State) : FpExc := s.fpscr.extractLsb' 8 5

/-- Set cumulative exception bits (R504); they stay set (R42). -/
def State.cumulate (s : State) (e : FpExc) : State := { s with fpscr := s.fpscr ||| e.zeroExtend 32 }

/-- Write the VFP flags, FPSCR[31:28] (R524). -/
def State.setFpFlags (s : State) (f : Nzcv) : State :=
  { s with fpscr := bit4 f.n f.z f.c f.v ++ s.fpscr.extractLsb' 0 28 }

/-- Replace FPSCR: the bits that R42 gives no meaning stay 0 (R543, D26). -/
def State.setFpscr (s : State) (v : Word) : State := { s with fpscr := v &&& 0xF1F71F1F#32 }

/-- Replace FPEXC: only EN, bit 30, can be written (R43, R543, D14). -/
def State.setFpexc (s : State) (v : Word) : State := { s with fpexc := v &&& 0x40000000#32 }

/-- Whether the VFP is there and enabled (R500): FPU is not none and FPEXC.EN is 1. -/
def State.vfpEnabled (s : State) : Bool := s.cfg.arch.hasFpu && s.fpexc.getLsbD 30

/-- Undefined Instruction while the VFP is absent or disabled (R500). -/
def State.needVfp (s : State) : Except Trap Unit := if s.vfpEnabled then .ok () else raise .undefined

/-- An arithmetic instruction is refused while a trap enable bit is 1 (R504, D14). -/
def State.refuseTraps (s : State) : Except Trap Unit :=
  if s.trapEnables = 0#5 then .ok () else .error (.refused .vfpTrapEnabled)

/-- A comparison or conversion is refused when it raises an exception whose trap is enabled (R610, D14,
notes/assumptions/11). -/
def State.refuseTrapped (s : State) (e : FpExc) : Except Trap Unit :=
  if s.trapEnables &&& e = 0#5 then .ok () else .error (.refused .vfpTrapEnabled)

/-- A VFP instruction: conditional (R500(c)), and only while the VFP is enabled (R500(b)). -/
def State.vfpRule (s : State) (c : Cond) (rule : State → Except Trap State) : Host.Outcome State Fault Refusal :=
  s.ifPassed c fun s => do
    s.needVfp
    rule s

/-! ## Scalar, mixed and vector operation (R502, R503) -/

/-- The registers of a bank (R41). -/
def Precision.bankSize : Precision → Nat
  | .single => 8
  | .double => 4

/-- Whether a register is in the first bank (R41, R503). -/
def Precision.firstBank (p : Precision) (i : Nat) : Bool := decide (i < p.bankSize)

/-- `Vec(start, k)` (R502): a vector wraps round within its bank. -/
def Precision.vecAt (p : Precision) (start stride k : Nat) : Nat :=
  start - start % p.bankSize + (start % p.bankSize + k * stride) % p.bankSize

/-- The registers of a vector (R502). -/
def Precision.vec (p : Precision) (start stride len : Nat) : List Nat := (List.range len).map (p.vecAt start stride)

/-- Whether a length and stride use no register twice (R502). -/
def Precision.vecLegal (p : Precision) (len stride : Nat) : Bool := decide (len * stride ≤ p.bankSize)

/-- Whether two vectors share a register without being identical (R503, D33). -/
def vecClash (d x : List Nat) : Bool := d != x && d.any x.contains

/-- The operands of one element: the registers of Fd, Fn and Fm. -/
structure Element where
  d : Nat
  n : Nat
  m : Nat
  deriving DecidableEq, Repr

/-- The elements of an operation on Fd, Fn and Fm (R503). An instruction without Fn gives `fd` for it. -/
def State.elements (s : State) (p : Precision) (fd fn fm : Nat) : Except Trap (List Element) :=
  let len := s.vecLen
  if len = 1 || p.firstBank fd then .ok [{ d := fd, n := fn, m := fm }]
  else
    match s.vecStride with
    | none => stop .vfpVector
    | some stride => do
      forbid (!p.vecLegal len stride) .vfpVector
      let d := p.vec fd stride len
      let n := p.vec fn stride len
      let m := if p.firstBank fm then List.replicate len fm else p.vec fm stride len
      forbid (vecClash d n || vecClash d m) .vfpVector
      pure ((List.range len).map fun k =>
        { d := d.getD k fd, n := n.getD k fn, m := m.getD k fm })

/-- The elements one after the other (R503): each reads its operands, writes its result, and its exceptions
accumulate. -/
def State.runElements (s : State) (p : Precision) (op : Nat → Nat → Nat → FpResult) : List Element → State
  | [] => s
  | e :: es =>
    let r := op (s.freg p e.d) (s.freg p e.n) (s.freg p e.m)
    ((s.setFreg p e.d r.bits).cumulate r.exc).runElements p op es

/-- An operation that can be scalar, mixed or vector (R503). -/
def State.vfpOperate (s : State) (p : Precision) (fd fn fm : Nat) (op : Nat → Nat → Nat → FpResult) :
    Except Trap State := do
  let es ← s.elements p fd fn fm
  (s.runElements p op es).advance

/-- An arithmetic operation on Fd, Fn and Fm: refused while a trap is enabled (R504), before the vectors are looked at
(R502, R503): that order is the model's choice (notes/assumptions/10). -/
def State.vfpArith (s : State) (p : Precision) (fd fn fm : Nat) (op : Nat → Nat → Nat → FpResult) :
    Except Trap State := do
  s.refuseTraps
  s.vfpOperate p fd fn fm op

/-- A copy, absolute value or negation: a bit operation without exceptions (R510 to R512). -/
def State.vfpMove (s : State) (p : Precision) (fd fm : Nat) (op : Nat → Nat) : Except Trap State :=
  s.vfpOperate p fd fd fm fun _ _ m => { bits := op m, exc := 0#5 }

/-- The end of a conversion (R526 to R531): always scalar. -/
def State.vfpConvert (s : State) (p : Precision) (fd : Nat) (r : FpResult) : Except Trap State := do
  s.refuseTrapped r.exc
  ((s.setFreg p fd r.bits).cumulate r.exc).advance

/-- The end of a comparison (R524): only FPSCR changes. -/
def State.vfpCompare (s : State) (c : FpComparison) : Except Trap State := do
  s.refuseTrapped c.exc
  ((s.setFpFlags c.flags).cumulate c.exc).advance

end Sys2Proof.Machine
end

