-- ==== Sys2Proof/Machine/VfpArith.lean ====
section
/-! DEFINITION. The VFP arithmetic, comparison and conversion instructions (spec 49_vfp.md R510 to R531). -/

namespace Sys2Proof.Machine

/-! ## Copy, absolute value, negate -/

/-- FCPYS (R510). -/
def execFcpys (cond : Cond) (fd fm : SReg) (s : State) : Host.Outcome State Fault Refusal :=
  s.vfpRule cond fun s => s.vfpMove .single fd.toNat fm.toNat id

/-- FCPYD (R510). -/
def execFcpyd (cond : Cond) (fd fm : DReg) (s : State) : Host.Outcome State Fault Refusal :=
  s.vfpRule cond fun s => s.vfpMove .double fd.toNat fm.toNat id

/-- FABSS (R511). -/
def execFabss (cond : Cond) (fd fm : SReg) (s : State) : Host.Outcome State Fault Refusal :=
  s.vfpRule cond fun s => s.vfpMove .single fd.toNat fm.toNat fpSingle.clearSign

/-- FABSD (R511). -/
def execFabsd (cond : Cond) (fd fm : DReg) (s : State) : Host.Outcome State Fault Refusal :=
  s.vfpRule cond fun s => s.vfpMove .double fd.toNat fm.toNat fpDouble.clearSign

/-- FNEGS (R512). -/
def execFnegs (cond : Cond) (fd fm : SReg) (s : State) : Host.Outcome State Fault Refusal :=
  s.vfpRule cond fun s => s.vfpMove .single fd.toNat fm.toNat fpSingle.flipSign

/-- FNEGD (R512). -/
def execFnegd (cond : Cond) (fd fm : DReg) (s : State) : Host.Outcome State Fault Refusal :=
  s.vfpRule cond fun s => s.vfpMove .double fd.toNat fm.toNat fpDouble.flipSign

/-! ## Arithmetic -/

/-- FADDS (R513). -/
def execFadds (cond : Cond) (fn fd fm : SReg) (s : State) : Host.Outcome State Fault Refusal :=
  s.vfpRule cond fun s => s.vfpArith .single fd.toNat fn.toNat fm.toNat fun _ n m => fpSingle.add s.fpMode n m

/-- FADDD (R513). -/
def execFaddd (cond : Cond) (fn fd fm : DReg) (s : State) : Host.Outcome State Fault Refusal :=
  s.vfpRule cond fun s => s.vfpArith .double fd.toNat fn.toNat fm.toNat fun _ n m => fpDouble.add s.fpMode n m

/-- FSUBS (R514). -/
def execFsubs (cond : Cond) (fn fd fm : SReg) (s : State) : Host.Outcome State Fault Refusal :=
  s.vfpRule cond fun s => s.vfpArith .single fd.toNat fn.toNat fm.toNat fun _ n m => fpSingle.sub s.fpMode n m

/-- FSUBD (R514). -/
def execFsubd (cond : Cond) (fn fd fm : DReg) (s : State) : Host.Outcome State Fault Refusal :=
  s.vfpRule cond fun s => s.vfpArith .double fd.toNat fn.toNat fm.toNat fun _ n m => fpDouble.sub s.fpMode n m

/-- FMULS (R515). -/
def execFmuls (cond : Cond) (fn fd fm : SReg) (s : State) : Host.Outcome State Fault Refusal :=
  s.vfpRule cond fun s => s.vfpArith .single fd.toNat fn.toNat fm.toNat fun _ n m => fpSingle.mul s.fpMode n m

/-- FMULD (R515). -/
def execFmuld (cond : Cond) (fn fd fm : DReg) (s : State) : Host.Outcome State Fault Refusal :=
  s.vfpRule cond fun s => s.vfpArith .double fd.toNat fn.toNat fm.toNat fun _ n m => fpDouble.mul s.fpMode n m

/-- FNMULS (R516). -/
def execFnmuls (cond : Cond) (fn fd fm : SReg) (s : State) : Host.Outcome State Fault Refusal :=
  s.vfpRule cond fun s => s.vfpArith .single fd.toNat fn.toNat fm.toNat fun _ n m => fpSingle.nmul s.fpMode n m

/-- FNMULD (R516). -/
def execFnmuld (cond : Cond) (fn fd fm : DReg) (s : State) : Host.Outcome State Fault Refusal :=
  s.vfpRule cond fun s => s.vfpArith .double fd.toNat fn.toNat fm.toNat fun _ n m => fpDouble.nmul s.fpMode n m

/-- FDIVS (R517). -/
def execFdivs (cond : Cond) (fn fd fm : SReg) (s : State) : Host.Outcome State Fault Refusal :=
  s.vfpRule cond fun s => s.vfpArith .single fd.toNat fn.toNat fm.toNat fun _ n m => fpSingle.div s.fpMode n m

/-- FDIVD (R517). -/
def execFdivd (cond : Cond) (fn fd fm : DReg) (s : State) : Host.Outcome State Fault Refusal :=
  s.vfpRule cond fun s => s.vfpArith .double fd.toNat fn.toNat fm.toNat fun _ n m => fpDouble.div s.fpMode n m

/-- FSQRTS (R518). -/
def execFsqrts (cond : Cond) (fd fm : SReg) (s : State) : Host.Outcome State Fault Refusal :=
  s.vfpRule cond fun s => s.vfpArith .single fd.toNat fd.toNat fm.toNat fun _ _ m => fpSingle.sqrt s.fpMode m

/-- FSQRTD (R518). -/
def execFsqrtd (cond : Cond) (fd fm : DReg) (s : State) : Host.Outcome State Fault Refusal :=
  s.vfpRule cond fun s => s.vfpArith .double fd.toNat fd.toNat fm.toNat fun _ _ m => fpDouble.sqrt s.fpMode m

/-- FMACS (R520, R519): `Fd + Fn * Fm`. -/
def execFmacs (cond : Cond) (fn fd fm : SReg) (s : State) : Host.Outcome State Fault Refusal :=
  s.vfpRule cond fun s => s.vfpArith .single fd.toNat fn.toNat fm.toNat fun d n m => fpSingle.mulAdd s.fpMode false false d n m

/-- FMACD (R520, R519): `Fd + Fn * Fm`. -/
def execFmacd (cond : Cond) (fn fd fm : DReg) (s : State) : Host.Outcome State Fault Refusal :=
  s.vfpRule cond fun s => s.vfpArith .double fd.toNat fn.toNat fm.toNat fun d n m => fpDouble.mulAdd s.fpMode false false d n m

/-- FNMACS (R521, R519): `Fd - Fn * Fm`. -/
def execFnmacs (cond : Cond) (fn fd fm : SReg) (s : State) : Host.Outcome State Fault Refusal :=
  s.vfpRule cond fun s => s.vfpArith .single fd.toNat fn.toNat fm.toNat fun d n m => fpSingle.mulAdd s.fpMode false true d n m

/-- FNMACD (R521, R519): `Fd - Fn * Fm`. -/
def execFnmacd (cond : Cond) (fn fd fm : DReg) (s : State) : Host.Outcome State Fault Refusal :=
  s.vfpRule cond fun s => s.vfpArith .double fd.toNat fn.toNat fm.toNat fun d n m => fpDouble.mulAdd s.fpMode false true d n m

/-- FMSCS (R522, R519): `-Fd + Fn * Fm`. -/
def execFmscs (cond : Cond) (fn fd fm : SReg) (s : State) : Host.Outcome State Fault Refusal :=
  s.vfpRule cond fun s => s.vfpArith .single fd.toNat fn.toNat fm.toNat fun d n m => fpSingle.mulAdd s.fpMode true false d n m

/-- FMSCD (R522, R519): `-Fd + Fn * Fm`. -/
def execFmscd (cond : Cond) (fn fd fm : DReg) (s : State) : Host.Outcome State Fault Refusal :=
  s.vfpRule cond fun s => s.vfpArith .double fd.toNat fn.toNat fm.toNat fun d n m => fpDouble.mulAdd s.fpMode true false d n m

/-- FNMSCS (R523, R519): `-Fd - Fn * Fm`. -/
def execFnmscs (cond : Cond) (fn fd fm : SReg) (s : State) : Host.Outcome State Fault Refusal :=
  s.vfpRule cond fun s => s.vfpArith .single fd.toNat fn.toNat fm.toNat fun d n m => fpSingle.mulAdd s.fpMode true true d n m

/-- FNMSCD (R523, R519): `-Fd - Fn * Fm`. -/
def execFnmscd (cond : Cond) (fn fd fm : DReg) (s : State) : Host.Outcome State Fault Refusal :=
  s.vfpRule cond fun s => s.vfpArith .double fd.toNat fn.toNat fm.toNat fun d n m => fpDouble.mulAdd s.fpMode true true d n m

/-! ## Comparison -/

/-- FCMPS (R524). -/
def execFcmps (cond : Cond) (fd fm : SReg) (s : State) : Host.Outcome State Fault Refusal :=
  s.vfpRule cond fun s =>
    s.vfpCompare (fpSingle.compare s.fpMode false (s.freg .single fd.toNat) (s.freg .single fm.toNat))

/-- FCMPD (R524). -/
def execFcmpd (cond : Cond) (fd fm : DReg) (s : State) : Host.Outcome State Fault Refusal :=
  s.vfpRule cond fun s =>
    s.vfpCompare (fpDouble.compare s.fpMode false (s.freg .double fd.toNat) (s.freg .double fm.toNat))

/-- FCMPES (R524). -/
def execFcmpes (cond : Cond) (fd fm : SReg) (s : State) : Host.Outcome State Fault Refusal :=
  s.vfpRule cond fun s =>
    s.vfpCompare (fpSingle.compare s.fpMode true (s.freg .single fd.toNat) (s.freg .single fm.toNat))

/-- FCMPED (R524). -/
def execFcmped (cond : Cond) (fd fm : DReg) (s : State) : Host.Outcome State Fault Refusal :=
  s.vfpRule cond fun s =>
    s.vfpCompare (fpDouble.compare s.fpMode true (s.freg .double fd.toNat) (s.freg .double fm.toNat))

/-- FCMPZS (R525): with +0. -/
def execFcmpzs (cond : Cond) (fd : SReg) (s : State) : Host.Outcome State Fault Refusal :=
  s.vfpRule cond fun s => s.vfpCompare (fpSingle.compare s.fpMode false (s.freg .single fd.toNat) 0)

/-- FCMPZD (R525): with +0. -/
def execFcmpzd (cond : Cond) (fd : DReg) (s : State) : Host.Outcome State Fault Refusal :=
  s.vfpRule cond fun s => s.vfpCompare (fpDouble.compare s.fpMode false (s.freg .double fd.toNat) 0)

/-- FCMPEZS (R525): with +0. -/
def execFcmpezs (cond : Cond) (fd : SReg) (s : State) : Host.Outcome State Fault Refusal :=
  s.vfpRule cond fun s => s.vfpCompare (fpSingle.compare s.fpMode true (s.freg .single fd.toNat) 0)

/-- FCMPEZD (R525): with +0. -/
def execFcmpezd (cond : Cond) (fd : DReg) (s : State) : Host.Outcome State Fault Refusal :=
  s.vfpRule cond fun s => s.vfpCompare (fpDouble.compare s.fpMode true (s.freg .double fd.toNat) 0)

/-! ## Conversion -/

/-- FCVTDS (R526). -/
def execFcvtds (cond : Cond) (fd : DReg) (fm : SReg) (s : State) : Host.Outcome State Fault Refusal :=
  s.vfpRule cond fun s => s.vfpConvert .double fd.toNat (singleToDouble s.fpMode (s.freg .single fm.toNat))

/-- Count one drawn word if a NaN took its fraction from it (R527, notes/assumptions/12). -/
def State.drawnForNan (s : State) (isNan : Bool) : State := if isNan then s.drawn 1 else s

/-- FCVTSD (R527). -/
def execFcvtsd (cond : Cond) (fd : SReg) (fm : DReg) (s : State) : Host.Outcome State Fault Refusal :=
  s.vfpRule cond fun s =>
    let x := s.freg .double fm.toNat
    (s.drawnForNan (fpDouble.isNan x)).vfpConvert .single fd.toNat
      (doubleToSingle s.fpMode (Config.freeWord s.draws).toNat x)

/-- FSITOS (R528). -/
def execFsitos (cond : Cond) (fd fm : SReg) (s : State) : Host.Outcome State Fault Refusal :=
  s.vfpRule cond fun s => s.vfpConvert .single fd.toNat (fpSingle.ofInt s.fpMode (s.sreg fm.toNat).toInt)

/-- FSITOD (R528). -/
def execFsitod (cond : Cond) (fd : DReg) (fm : SReg) (s : State) : Host.Outcome State Fault Refusal :=
  s.vfpRule cond fun s => s.vfpConvert .double fd.toNat (fpDouble.ofInt s.fpMode (s.sreg fm.toNat).toInt)

/-- FUITOS (R529). -/
def execFuitos (cond : Cond) (fd fm : SReg) (s : State) : Host.Outcome State Fault Refusal :=
  s.vfpRule cond fun s => s.vfpConvert .single fd.toNat (fpSingle.ofInt s.fpMode (s.sreg fm.toNat).toNat)

/-- FUITOD (R529). -/
def execFuitod (cond : Cond) (fd : DReg) (fm : SReg) (s : State) : Host.Outcome State Fault Refusal :=
  s.vfpRule cond fun s => s.vfpConvert .double fd.toNat (fpDouble.ofInt s.fpMode (s.sreg fm.toNat).toNat)

/-- The integer result of FTOSI and FTOUI as a word (R530, R531). -/
def intResult (r : Int × FpExc) : FpResult := { bits := (BitVec.ofInt 32 r.1).toNat, exc := r.2 }

/-- FTOSIS (R530). -/
def execFtosis (cond : Cond) (fd fm : SReg) (s : State) : Host.Outcome State Fault Refusal :=
  s.vfpRule cond fun s =>
    s.vfpConvert .single fd.toNat (intResult (fpSingle.toInt s.fpMode s.rounding (-2 ^ 31) (2 ^ 31 - 1) (s.freg .single fm.toNat)))

/-- FTOSID (R530). -/
def execFtosid (cond : Cond) (fd : SReg) (fm : DReg) (s : State) : Host.Outcome State Fault Refusal :=
  s.vfpRule cond fun s =>
    s.vfpConvert .single fd.toNat (intResult (fpDouble.toInt s.fpMode s.rounding (-2 ^ 31) (2 ^ 31 - 1) (s.freg .double fm.toNat)))

/-- FTOSIZS (R530). -/
def execFtosizs (cond : Cond) (fd fm : SReg) (s : State) : Host.Outcome State Fault Refusal :=
  s.vfpRule cond fun s =>
    s.vfpConvert .single fd.toNat (intResult (fpSingle.toInt s.fpMode .zero (-2 ^ 31) (2 ^ 31 - 1) (s.freg .single fm.toNat)))

/-- FTOSIZD (R530). -/
def execFtosizd (cond : Cond) (fd : SReg) (fm : DReg) (s : State) : Host.Outcome State Fault Refusal :=
  s.vfpRule cond fun s =>
    s.vfpConvert .single fd.toNat (intResult (fpDouble.toInt s.fpMode .zero (-2 ^ 31) (2 ^ 31 - 1) (s.freg .double fm.toNat)))

/-- FTOUIS (R531). -/
def execFtouis (cond : Cond) (fd fm : SReg) (s : State) : Host.Outcome State Fault Refusal :=
  s.vfpRule cond fun s =>
    s.vfpConvert .single fd.toNat (intResult (fpSingle.toInt s.fpMode s.rounding 0 (2 ^ 32 - 1) (s.freg .single fm.toNat)))

/-- FTOUID (R531). -/
def execFtouid (cond : Cond) (fd : SReg) (fm : DReg) (s : State) : Host.Outcome State Fault Refusal :=
  s.vfpRule cond fun s =>
    s.vfpConvert .single fd.toNat (intResult (fpDouble.toInt s.fpMode s.rounding 0 (2 ^ 32 - 1) (s.freg .double fm.toNat)))

/-- FTOUIZS (R531). -/
def execFtouizs (cond : Cond) (fd fm : SReg) (s : State) : Host.Outcome State Fault Refusal :=
  s.vfpRule cond fun s =>
    s.vfpConvert .single fd.toNat (intResult (fpSingle.toInt s.fpMode .zero 0 (2 ^ 32 - 1) (s.freg .single fm.toNat)))

/-- FTOUIZD (R531). -/
def execFtouizd (cond : Cond) (fd : SReg) (fm : DReg) (s : State) : Host.Outcome State Fault Refusal :=
  s.vfpRule cond fun s =>
    s.vfpConvert .single fd.toNat (intResult (fpDouble.toInt s.fpMode .zero 0 (2 ^ 32 - 1) (s.freg .double fm.toNat)))

end Sys2Proof.Machine
end

