-- ==== Sys2Proof/Machine/VfpMemory.lean ====
section
/-! DEFINITION. The VFP loads and stores (spec 49_vfp.md R532 to R535, R560). -/

namespace Sys2Proof.Machine

/-! ## Single transfers (R532, R533) -/

/-- The address of FLD and FST (R532): the base and a word offset, without writeback. -/
def State.vfpAddress (s : State) (u : Bool) (rn : Reg) (offset8 : BitVec 8) : Word :=
  offsetBy u (s.reg rn) (BitVec.ofNat 32 (4 * offset8.toNat))

/-- A double word from its two words in memory order (R532). -/
def State.joinWords (s : State) (w0 w1 : Word) : DWord := if s.cfg.bigEndian then w0 ++ w1 else w1 ++ w0

/-- The word of a double register at the lower address (R532, R533). -/
def State.firstWord (s : State) (i : Nat) : Word := if s.cfg.bigEndian then s.sreg (2 * i + 1) else s.sreg (2 * i)

/-- The word of a double register at the higher address (R532, R533). -/
def State.secondWord (s : State) (i : Nat) : Word := if s.cfg.bigEndian then s.sreg (2 * i) else s.sreg (2 * i + 1)

/-- FLDS (R532). -/
def execFlds (cond : Cond) (u : Bool) (rn : Reg) (fd : SReg) (offset8 : BitVec 8) (s : State) :
    Host.Outcome State Fault Refusal :=
  s.vfpRule cond fun s => do
    let a := s.vfpAddress u rn offset8
    s.checkAligned a 3#32
    let v ← s.readWord a s.privileged
    (s.setSreg fd.toNat v).advance

/-- FLDD (R532). -/
def execFldd (cond : Cond) (u : Bool) (rn : Reg) (fd : DReg) (offset8 : BitVec 8) (s : State) :
    Host.Outcome State Fault Refusal :=
  s.vfpRule cond fun s => do
    let a := s.vfpAddress u rn offset8
    s.checkAligned a 3#32
    let (w0, w1) ← s.readPair s.privileged a
    (s.setDreg fd.toNat (s.joinWords w0 w1)).advance

/-- FSTS (R533). -/
def execFsts (cond : Cond) (u : Bool) (rn : Reg) (fd : SReg) (offset8 : BitVec 8) (s : State) :
    Host.Outcome State Fault Refusal :=
  s.vfpRule cond fun s => do
    let a := s.vfpAddress u rn offset8
    s.checkAligned a 3#32
    let t ← s.writeWord a (s.sreg fd.toNat) s.privileged
    t.advance

/-- FSTD (R533). -/
def execFstd (cond : Cond) (u : Bool) (rn : Reg) (fd : DReg) (offset8 : BitVec 8) (s : State) :
    Host.Outcome State Fault Refusal :=
  s.vfpRule cond fun s => do
    let a := s.vfpAddress u rn offset8
    s.checkAligned a 3#32
    let t ← s.writeWord a (s.firstWord fd.toNat) s.privileged
    let t ← t.writeWord (a + 4#32) (s.secondWord fd.toNat) s.privileged
    t.advance

/-! ## Multiple transfers (R534, R535, R560) -/

/-- The restrictions of a list of `n` registers from `first`, `size` in all, and of the base (R534). -/
def checkVfpList (writeback : Bool) (rn : Reg) (first n size : Nat) : Except Trap Unit := do
  forbid (decide (n = 0) || decide (size < first + n)) .vfpList
  forbid (writeback && isPc rn) .forbiddenPc

/-- The lowest address of a transfer that counts `words` words (R534): IA or DB. -/
def vfpStart (up : Bool) (base : Word) (words : Nat) : Word :=
  if up then base else base - BitVec.ofNat 32 (4 * words)

/-- The base after a transfer that counts `words` words (R534). -/
def State.vfpWriteBack (s : State) (w up : Bool) (rn : Reg) (words : Nat) : State :=
  if w then s.setReg rn (offsetBy up (s.reg rn) (BitVec.ofNat 32 (4 * words))) else s

/-- Loaded words to consecutive single registers (R534). -/
def State.setSregs (s : State) (i : Nat) : List Word → State
  | [] => s
  | v :: vs => (s.setSreg i v).setSregs (i + 1) vs

/-- Loaded words to consecutive double registers, two to a register (R534); a word left over is discarded (R560). -/
def State.setDregs (s : State) (i : Nat) : List Word → State
  | [] => s
  | [_] => s
  | w0 :: w1 :: ws => (s.setDreg i (s.joinWords w0 w1)).setDregs (i + 1) ws

/-- `n` consecutive single registers as words (R535). -/
def State.sregWords (s : State) (i : Nat) : Nat → List Word
  | 0 => []
  | n + 1 => s.sreg i :: s.sregWords (i + 1) n

/-- `n` consecutive double registers as words in memory order (R535). -/
def State.dregWords (s : State) (i : Nat) : Nat → List Word
  | 0 => []
  | n + 1 => s.firstWord i :: s.secondWord i :: s.dregWords (i + 1) n

/-- A load of `n` of the `words` words that the addresses count (R534, R560). -/
def State.vfpLoadBlock (s : State) (up : Bool) (rn : Reg) (words n : Nat) : Except Trap (List Word) := do
  let a := vfpStart up (s.reg rn) words
  s.checkAligned a 3#32
  checkTransfer a n
  s.readWords s.privileged n a

/-- A store of the first of the `words` words that the addresses count (R535, R560). -/
def State.vfpStoreBlock (s : State) (up : Bool) (rn : Reg) (words : Nat) (vs : List Word) : Except Trap State := do
  let a := vfpStart up (s.reg rn) words
  s.checkAligned a 3#32
  checkTransfer a vs.length
  s.writeWords s.privileged vs a

/-- FLDM of single registers (R534). -/
def State.vfpLoadSingles (s : State) (up w : Bool) (rn : Reg) (first n : Nat) : Except Trap State := do
  checkVfpList w rn first n 32
  let vs ← s.vfpLoadBlock up rn n n
  ((s.vfpWriteBack w up rn n).setSregs first vs).advance

/-- FSTM of single registers (R535). -/
def State.vfpStoreSingles (s : State) (up w : Bool) (rn : Reg) (first n : Nat) : Except Trap State := do
  checkVfpList w rn first n 32
  let t ← s.vfpStoreBlock up rn n (s.sregWords first n)
  (t.vfpWriteBack w up rn n).advance

/-- FLDM of double registers (R534). -/
def State.vfpLoadDoubles (s : State) (up w : Bool) (rn : Reg) (first n : Nat) : Except Trap State := do
  checkVfpList w rn first n 16
  let vs ← s.vfpLoadBlock up rn (2 * n) (2 * n)
  ((s.vfpWriteBack w up rn (2 * n)).setDregs first vs).advance

/-- FSTM of double registers (R535). -/
def State.vfpStoreDoubles (s : State) (up w : Bool) (rn : Reg) (first n : Nat) : Except Trap State := do
  checkVfpList w rn first n 16
  let t ← s.vfpStoreBlock up rn (2 * n) (s.dregWords first n)
  (t.vfpWriteBack w up rn (2 * n)).advance

/-- The words that the X forms transfer (R560): with `FLDMX_EXTRA_WORD` one more than the registers hold. -/
def State.extraWords (s : State) : Nat := if s.cfg.fldmxExtraWord then 1 else 0

/-- FLDMX (R560): the extra word is read and discarded. -/
def State.vfpLoadUnknown (s : State) (up w : Bool) (rn : Reg) (first n : Nat) : Except Trap State := do
  checkVfpList w rn first n 16
  let vs ← s.vfpLoadBlock up rn (2 * n + 1) (2 * n + s.extraWords)
  ((s.vfpWriteBack w up rn (2 * n + 1)).setDregs first vs).advance

/-- FSTMX (R560): the extra word is a drawn value (D15). -/
def State.vfpStoreUnknown (s : State) (up w : Bool) (rn : Reg) (first n : Nat) : Except Trap State := do
  checkVfpList w rn first n 16
  let extra := List.replicate s.extraWords (Config.freeWord s.draws)
  let t ← s.vfpStoreBlock up rn (2 * n + 1) (s.dregWords first n ++ extra)
  ((t.drawn s.extraWords).vfpWriteBack w up rn (2 * n + 1)).advance

/-- FLDMIAS (R534). -/
def execFldmias (cond : Cond) (w : Bool) (rn : Reg) (fd : SReg) (count : BitVec 8) (s : State) :
    Host.Outcome State Fault Refusal :=
  s.vfpRule cond fun s => s.vfpLoadSingles true w rn fd.toNat count.toNat

/-- FLDMIAD (R534). -/
def execFldmiad (cond : Cond) (w : Bool) (rn : Reg) (fd : DReg) (count : BitVec 7) (s : State) :
    Host.Outcome State Fault Refusal :=
  s.vfpRule cond fun s => s.vfpLoadDoubles true w rn fd.toNat count.toNat

/-- FLDMIAX (R560). -/
def execFldmiax (cond : Cond) (w : Bool) (rn : Reg) (fd : DReg) (count : BitVec 7) (s : State) :
    Host.Outcome State Fault Refusal :=
  s.vfpRule cond fun s => s.vfpLoadUnknown true w rn fd.toNat count.toNat

/-- FLDMDBS (R534). -/
def execFldmdbs (cond : Cond) (rn : Reg) (fd : SReg) (count : BitVec 8) (s : State) :
    Host.Outcome State Fault Refusal :=
  s.vfpRule cond fun s => s.vfpLoadSingles false true rn fd.toNat count.toNat

/-- FLDMDBD (R534). -/
def execFldmdbd (cond : Cond) (rn : Reg) (fd : DReg) (count : BitVec 7) (s : State) :
    Host.Outcome State Fault Refusal :=
  s.vfpRule cond fun s => s.vfpLoadDoubles false true rn fd.toNat count.toNat

/-- FLDMDBX (R560). -/
def execFldmdbx (cond : Cond) (rn : Reg) (fd : DReg) (count : BitVec 7) (s : State) :
    Host.Outcome State Fault Refusal :=
  s.vfpRule cond fun s => s.vfpLoadUnknown false true rn fd.toNat count.toNat

/-- FSTMIAS (R535). -/
def execFstmias (cond : Cond) (w : Bool) (rn : Reg) (fd : SReg) (count : BitVec 8) (s : State) :
    Host.Outcome State Fault Refusal :=
  s.vfpRule cond fun s => s.vfpStoreSingles true w rn fd.toNat count.toNat

/-- FSTMIAD (R535). -/
def execFstmiad (cond : Cond) (w : Bool) (rn : Reg) (fd : DReg) (count : BitVec 7) (s : State) :
    Host.Outcome State Fault Refusal :=
  s.vfpRule cond fun s => s.vfpStoreDoubles true w rn fd.toNat count.toNat

/-- FSTMIAX (R560). -/
def execFstmiax (cond : Cond) (w : Bool) (rn : Reg) (fd : DReg) (count : BitVec 7) (s : State) :
    Host.Outcome State Fault Refusal :=
  s.vfpRule cond fun s => s.vfpStoreUnknown true w rn fd.toNat count.toNat

/-- FSTMDBS (R535). -/
def execFstmdbs (cond : Cond) (rn : Reg) (fd : SReg) (count : BitVec 8) (s : State) :
    Host.Outcome State Fault Refusal :=
  s.vfpRule cond fun s => s.vfpStoreSingles false true rn fd.toNat count.toNat

/-- FSTMDBD (R535). -/
def execFstmdbd (cond : Cond) (rn : Reg) (fd : DReg) (count : BitVec 7) (s : State) :
    Host.Outcome State Fault Refusal :=
  s.vfpRule cond fun s => s.vfpStoreDoubles false true rn fd.toNat count.toNat

/-- FSTMDBX (R560). -/
def execFstmdbx (cond : Cond) (rn : Reg) (fd : DReg) (count : BitVec 7) (s : State) :
    Host.Outcome State Fault Refusal :=
  s.vfpRule cond fun s => s.vfpStoreUnknown false true rn fd.toNat count.toNat

end Sys2Proof.Machine
end

