-- ==== Sys2Proof/Machine/VfpTransfer.lean ====
section
/-! DEFINITION. The VFP register transfers (spec 49_vfp.md R536 to R544). -/

namespace Sys2Proof.Machine

/-- A transfer to an ARM register (R538 to R540): r15 is a fault. -/
def State.vfpToArm (s : State) (rd : Reg) (v : Word) : Except Trap State := do
  forbid (isPc rd) .forbiddenPc
  (s.setReg rd v).advance

/-- A transfer from an ARM register (R536, R537, R541): r15 is a fault. -/
def State.vfpFromArm (s : State) (rd : Reg) (i : Nat) : Except Trap State := do
  forbid (isPc rd) .forbiddenPc
  (s.setSreg i (s.reg rd)).advance

/-- FMSR (R541). -/
def execFmsr (cond : Cond) (fn : SReg) (rd : Reg) (s : State) : Host.Outcome State Fault Refusal :=
  s.vfpRule cond fun s => s.vfpFromArm rd fn.toNat

/-- FMRS (R540). -/
def execFmrs (cond : Cond) (fn : SReg) (rd : Reg) (s : State) : Host.Outcome State Fault Refusal :=
  s.vfpRule cond fun s => s.vfpToArm rd (s.sreg fn.toNat)

/-- FMDLR (R537): the low half is S[2n]. -/
def execFmdlr (cond : Cond) (fn : DReg) (rd : Reg) (s : State) : Host.Outcome State Fault Refusal :=
  s.vfpRule cond fun s => s.vfpFromArm rd (2 * fn.toNat)

/-- FMRDL (R539). -/
def execFmrdl (cond : Cond) (fn : DReg) (rd : Reg) (s : State) : Host.Outcome State Fault Refusal :=
  s.vfpRule cond fun s => s.vfpToArm rd (s.sreg (2 * fn.toNat))

/-- FMDHR (R536): the high half is S[2n+1]. -/
def execFmdhr (cond : Cond) (fn : DReg) (rd : Reg) (s : State) : Host.Outcome State Fault Refusal :=
  s.vfpRule cond fun s => s.vfpFromArm rd (2 * fn.toNat + 1)

/-- FMRDH (R538). -/
def execFmrdh (cond : Cond) (fn : DReg) (rd : Reg) (s : State) : Host.Outcome State Fault Refusal :=
  s.vfpRule cond fun s => s.vfpToArm rd (s.sreg (2 * fn.toNat + 1))

/-- The VFP system registers (R146). -/
inductive VfpSystem where
  | fpsid | fpscr | fpexc | other
  deriving DecidableEq, Repr

/-- The number of a VFP system register (R146). -/
def vfpSystem (reg : BitVec 4) : VfpSystem :=
  if reg = 0b0000#4 then .fpsid else if reg = 0b0001#4 then .fpscr else if reg = 0b1000#4 then .fpexc else .other

/-- Whether a system register can be reached (R500, R542): the VFP is there, and enabled but for FPSID and FPEXC; FPEXC
only in privileged modes. -/
def State.needVfpSystem (s : State) (r : VfpSystem) : Except Trap Unit :=
  match r with
  | .fpsid => if s.cfg.arch.hasFpu then .ok () else raise .undefined
  | .fpexc => if s.cfg.arch.hasFpu && s.privileged then .ok () else raise .undefined
  | .fpscr => s.needVfp
  | .other => do
    s.needVfp
    stop .vfpSystemRegister

/-- The value of a system register (R542). -/
def State.vfpSystemValue (s : State) : VfpSystem → Word
  | .fpsid => s.fpsid
  | .fpscr => s.fpscr
  | .fpexc => s.fpexc
  | .other => 0#32

/-- Write a system register (R543): FPSID is read-only. -/
def State.setVfpSystem (s : State) (v : Word) : VfpSystem → State
  | .fpsid => s
  | .fpscr => s.setFpscr v
  | .fpexc => s.setFpexc v
  | .other => s

/-- FMRX (R542). -/
def execFmrx (cond : Cond) (reg : BitVec 4) (rd : Reg) (s : State) : Host.Outcome State Fault Refusal :=
  s.ifPassed cond fun s => do
    s.needVfpSystem (vfpSystem reg)
    forbid (isPc rd) .forbiddenPc
    (s.setReg rd (s.vfpSystemValue (vfpSystem reg))).advance

/-- FMXR (R543). -/
def execFmxr (cond : Cond) (reg : BitVec 4) (rd : Reg) (s : State) : Host.Outcome State Fault Refusal :=
  s.ifPassed cond fun s => do
    s.needVfpSystem (vfpSystem reg)
    forbid (isPc rd) .forbiddenPc
    (s.setVfpSystem (s.reg rd) (vfpSystem reg)).advance

/-- The VFP flags, FPSCR[31:28] (R42). -/
def State.fpFlags (s : State) : Nzcv :=
  { n := s.fpscr.getLsbD 31, z := s.fpscr.getLsbD 30, c := s.fpscr.getLsbD 29, v := s.fpscr.getLsbD 28 }

/-- FMSTAT (R544): the VFP flags go to the CPSR. -/
def execFmstat (cond : Cond) (s : State) : Host.Outcome State Fault Refusal :=
  s.vfpRule cond fun s => (s.setNzcv s.fpFlags).advance

end Sys2Proof.Machine
end

