-- ==== Sys2Proof/Machine/Dispatch.lean ====
section
/-! DEFINITION. The meaning of each instruction: one arm per constructor, one call per arm. -/

namespace Sys2Proof.Machine

/-- The effect of an instruction on a state. -/
def exec (i : Instr) (s : State) : Host.Outcome State Fault Refusal :=
  match i with
  | .pldReg u rn shiftImm shift rm => Sys2Proof.Machine.execPldReg u rn shiftImm shift rm s
  | .pldImm u rn imm12 => Sys2Proof.Machine.execPldImm u rn imm12 s
  | .mcr2 opc1 crn rd cp opc2 crm => Sys2Proof.Machine.execMcr2 opc1 crn rd cp opc2 crm s
  | .mrc2 opc1 crn rd cp opc2 crm => Sys2Proof.Machine.execMrc2 opc1 crn rd cp opc2 crm s
  | .ldc2Post u long rn crd cp offset8 => Sys2Proof.Machine.execLdc2Post u long rn crd cp offset8 s
  | .stc2Post u long rn crd cp offset8 => Sys2Proof.Machine.execStc2Post u long rn crd cp offset8 s
  | .cdp2 opc1 crn crd cp opc2 crm => Sys2Proof.Machine.execCdp2 opc1 crn crd cp opc2 crm s
  | .ldc2Pre u long w rn crd cp offset8 => Sys2Proof.Machine.execLdc2Pre u long w rn crd cp offset8 s
  | .stc2Pre u long w rn crd cp offset8 => Sys2Proof.Machine.execStc2Pre u long w rn crd cp offset8 s
  | .blxLabel h imm24 => Sys2Proof.Machine.execBlxLabel h imm24 s
  | .unallocatedUncond bits => Sys2Proof.Machine.execUnallocatedUncond bits s
  | .fmstat cond => Sys2Proof.Machine.execFmstat cond s
  | .fcpys cond fd fm => Sys2Proof.Machine.execFcpys cond fd fm s
  | .fcpyd cond fd fm => Sys2Proof.Machine.execFcpyd cond fd fm s
  | .fabss cond fd fm => Sys2Proof.Machine.execFabss cond fd fm s
  | .fabsd cond fd fm => Sys2Proof.Machine.execFabsd cond fd fm s
  | .fnegs cond fd fm => Sys2Proof.Machine.execFnegs cond fd fm s
  | .fnegd cond fd fm => Sys2Proof.Machine.execFnegd cond fd fm s
  | .fsqrts cond fd fm => Sys2Proof.Machine.execFsqrts cond fd fm s
  | .fsqrtd cond fd fm => Sys2Proof.Machine.execFsqrtd cond fd fm s
  | .fcmps cond fd fm => Sys2Proof.Machine.execFcmps cond fd fm s
  | .fcmpd cond fd fm => Sys2Proof.Machine.execFcmpd cond fd fm s
  | .fcmpes cond fd fm => Sys2Proof.Machine.execFcmpes cond fd fm s
  | .fcmped cond fd fm => Sys2Proof.Machine.execFcmped cond fd fm s
  | .fcmpzs cond fd => Sys2Proof.Machine.execFcmpzs cond fd s
  | .fcmpzd cond fd => Sys2Proof.Machine.execFcmpzd cond fd s
  | .fcmpezs cond fd => Sys2Proof.Machine.execFcmpezs cond fd s
  | .fcmpezd cond fd => Sys2Proof.Machine.execFcmpezd cond fd s
  | .fcvtds cond fd fm => Sys2Proof.Machine.execFcvtds cond fd fm s
  | .fcvtsd cond fd fm => Sys2Proof.Machine.execFcvtsd cond fd fm s
  | .fuitos cond fd fm => Sys2Proof.Machine.execFuitos cond fd fm s
  | .fuitod cond fd fm => Sys2Proof.Machine.execFuitod cond fd fm s
  | .fsitos cond fd fm => Sys2Proof.Machine.execFsitos cond fd fm s
  | .fsitod cond fd fm => Sys2Proof.Machine.execFsitod cond fd fm s
  | .ftouis cond fd fm => Sys2Proof.Machine.execFtouis cond fd fm s
  | .ftouid cond fd fm => Sys2Proof.Machine.execFtouid cond fd fm s
  | .ftouizs cond fd fm => Sys2Proof.Machine.execFtouizs cond fd fm s
  | .ftouizd cond fd fm => Sys2Proof.Machine.execFtouizd cond fd fm s
  | .ftosis cond fd fm => Sys2Proof.Machine.execFtosis cond fd fm s
  | .ftosid cond fd fm => Sys2Proof.Machine.execFtosid cond fd fm s
  | .ftosizs cond fd fm => Sys2Proof.Machine.execFtosizs cond fd fm s
  | .ftosizd cond fd fm => Sys2Proof.Machine.execFtosizd cond fd fm s
  | .mia cond rs rm => Sys2Proof.Machine.execMia cond rs rm s
  | .miaph cond rs rm => Sys2Proof.Machine.execMiaph cond rs rm s
  | .miaXY cond x y rs rm => Sys2Proof.Machine.execMiaXY cond x y rs rm s
  | .fmacs cond fn fd fm => Sys2Proof.Machine.execFmacs cond fn fd fm s
  | .fmacd cond fn fd fm => Sys2Proof.Machine.execFmacd cond fn fd fm s
  | .fnmacs cond fn fd fm => Sys2Proof.Machine.execFnmacs cond fn fd fm s
  | .fnmacd cond fn fd fm => Sys2Proof.Machine.execFnmacd cond fn fd fm s
  | .fmscs cond fn fd fm => Sys2Proof.Machine.execFmscs cond fn fd fm s
  | .fmscd cond fn fd fm => Sys2Proof.Machine.execFmscd cond fn fd fm s
  | .fnmscs cond fn fd fm => Sys2Proof.Machine.execFnmscs cond fn fd fm s
  | .fnmscd cond fn fd fm => Sys2Proof.Machine.execFnmscd cond fn fd fm s
  | .fmuls cond fn fd fm => Sys2Proof.Machine.execFmuls cond fn fd fm s
  | .fmuld cond fn fd fm => Sys2Proof.Machine.execFmuld cond fn fd fm s
  | .fnmuls cond fn fd fm => Sys2Proof.Machine.execFnmuls cond fn fd fm s
  | .fnmuld cond fn fd fm => Sys2Proof.Machine.execFnmuld cond fn fd fm s
  | .fadds cond fn fd fm => Sys2Proof.Machine.execFadds cond fn fd fm s
  | .faddd cond fn fd fm => Sys2Proof.Machine.execFaddd cond fn fd fm s
  | .fsubs cond fn fd fm => Sys2Proof.Machine.execFsubs cond fn fd fm s
  | .fsubd cond fn fd fm => Sys2Proof.Machine.execFsubd cond fn fd fm s
  | .fdivs cond fn fd fm => Sys2Proof.Machine.execFdivs cond fn fd fm s
  | .fdivd cond fn fd fm => Sys2Proof.Machine.execFdivd cond fn fd fm s
  | .fmsr cond fn rd => Sys2Proof.Machine.execFmsr cond fn rd s
  | .fmrs cond fn rd => Sys2Proof.Machine.execFmrs cond fn rd s
  | .fmdlr cond fn rd => Sys2Proof.Machine.execFmdlr cond fn rd s
  | .fmrdl cond fn rd => Sys2Proof.Machine.execFmrdl cond fn rd s
  | .fmdhr cond fn rd => Sys2Proof.Machine.execFmdhr cond fn rd s
  | .fmrdh cond fn rd => Sys2Proof.Machine.execFmrdh cond fn rd s
  | .fmxr cond reg rd => Sys2Proof.Machine.execFmxr cond reg rd s
  | .fmrx cond reg rd => Sys2Proof.Machine.execFmrx cond reg rd s
  | .qadd cond rn rd rm => Sys2Proof.Machine.execQadd cond rn rd rm s
  | .qsub cond rn rd rm => Sys2Proof.Machine.execQsub cond rn rd rm s
  | .qdadd cond rn rd rm => Sys2Proof.Machine.execQdadd cond rn rd rm s
  | .qdsub cond rn rd rm => Sys2Proof.Machine.execQdsub cond rn rd rm s
  | .bx cond rm => Sys2Proof.Machine.execBx cond rm s
  | .blxReg cond rm => Sys2Proof.Machine.execBlxReg cond rm s
  | .clz cond rd rm => Sys2Proof.Machine.execClz cond rd rm s
  | .bkpt cond immHi immLo => Sys2Proof.Machine.execBkpt cond immHi immLo s
  | .swp cond rn rd rm => Sys2Proof.Machine.execSwp cond rn rd rm s
  | .swpb cond rn rd rm => Sys2Proof.Machine.execSwpb cond rn rd rm s
  | .mar cond rdHi rdLo => Sys2Proof.Machine.execMar cond rdHi rdLo s
  | .mra cond rdHi rdLo => Sys2Proof.Machine.execMra cond rdHi rdLo s
  | .fldmdbd cond rn fd count => Sys2Proof.Machine.execFldmdbd cond rn fd count s
  | .fldmdbx cond rn fd count => Sys2Proof.Machine.execFldmdbx cond rn fd count s
  | .fstmdbd cond rn fd count => Sys2Proof.Machine.execFstmdbd cond rn fd count s
  | .fstmdbx cond rn fd count => Sys2Proof.Machine.execFstmdbx cond rn fd count s
  | .mul cond setFlags rd rs rm => Sys2Proof.Machine.execMul cond setFlags rd rs rm s
  | .mla cond setFlags rd rn rs rm => Sys2Proof.Machine.execMla cond setFlags rd rn rs rm s
  | .umull cond setFlags rdHi rdLo rs rm => Sys2Proof.Machine.execUmull cond setFlags rdHi rdLo rs rm s
  | .umlal cond setFlags rdHi rdLo rs rm => Sys2Proof.Machine.execUmlal cond setFlags rdHi rdLo rs rm s
  | .smull cond setFlags rdHi rdLo rs rm => Sys2Proof.Machine.execSmull cond setFlags rdHi rdLo rs rm s
  | .smlal cond setFlags rdHi rdLo rs rm => Sys2Proof.Machine.execSmlal cond setFlags rdHi rdLo rs rm s
  | .smlawY cond rd rn rs y rm => Sys2Proof.Machine.execSmlawY cond rd rn rs y rm s
  | .smulwY cond rd rs y rm => Sys2Proof.Machine.execSmulwY cond rd rs y rm s
  | .mrs cond r rd => Sys2Proof.Machine.execMrs cond r rd s
  | .msrReg cond r fields rm => Sys2Proof.Machine.execMsrReg cond r fields rm s
  | .fldmiad cond w rn fd count => Sys2Proof.Machine.execFldmiad cond w rn fd count s
  | .fldmiax cond w rn fd count => Sys2Proof.Machine.execFldmiax cond w rn fd count s
  | .fldmdbs cond rn fd count => Sys2Proof.Machine.execFldmdbs cond rn fd count s
  | .fstmiad cond w rn fd count => Sys2Proof.Machine.execFstmiad cond w rn fd count s
  | .fstmiax cond w rn fd count => Sys2Proof.Machine.execFstmiax cond w rn fd count s
  | .fstmdbs cond rn fd count => Sys2Proof.Machine.execFstmdbs cond rn fd count s
  | .tstRegReg cond rn rs shift rm => Sys2Proof.Machine.execTstRegReg cond rn rs shift rm s
  | .teqRegReg cond rn rs shift rm => Sys2Proof.Machine.execTeqRegReg cond rn rs shift rm s
  | .cmpRegReg cond rn rs shift rm => Sys2Proof.Machine.execCmpRegReg cond rn rs shift rm s
  | .cmnRegReg cond rn rs shift rm => Sys2Proof.Machine.execCmnRegReg cond rn rs shift rm s
  | .smlaXY cond rd rn rs y x rm => Sys2Proof.Machine.execSmlaXY cond rd rn rs y x rm s
  | .smlalXY cond rdHi rdLo rs y x rm => Sys2Proof.Machine.execSmlalXY cond rdHi rdLo rs y x rm s
  | .smulXY cond rd rs y x rm => Sys2Proof.Machine.execSmulXY cond rd rs y x rm s
  | .flds cond u rn fd offset8 => Sys2Proof.Machine.execFlds cond u rn fd offset8 s
  | .fldd cond u rn fd offset8 => Sys2Proof.Machine.execFldd cond u rn fd offset8 s
  | .fsts cond u rn fd offset8 => Sys2Proof.Machine.execFsts cond u rn fd offset8 s
  | .fstd cond u rn fd offset8 => Sys2Proof.Machine.execFstd cond u rn fd offset8 s
  | .fldmias cond w rn fd count => Sys2Proof.Machine.execFldmias cond w rn fd count s
  | .fstmias cond w rn fd count => Sys2Proof.Machine.execFstmias cond w rn fd count s
  | .andRegReg cond setFlags rn rd rs shift rm => Sys2Proof.Machine.execAndRegReg cond setFlags rn rd rs shift rm s
  | .eorRegReg cond setFlags rn rd rs shift rm => Sys2Proof.Machine.execEorRegReg cond setFlags rn rd rs shift rm s
  | .subRegReg cond setFlags rn rd rs shift rm => Sys2Proof.Machine.execSubRegReg cond setFlags rn rd rs shift rm s
  | .rsbRegReg cond setFlags rn rd rs shift rm => Sys2Proof.Machine.execRsbRegReg cond setFlags rn rd rs shift rm s
  | .addRegReg cond setFlags rn rd rs shift rm => Sys2Proof.Machine.execAddRegReg cond setFlags rn rd rs shift rm s
  | .adcRegReg cond setFlags rn rd rs shift rm => Sys2Proof.Machine.execAdcRegReg cond setFlags rn rd rs shift rm s
  | .sbcRegReg cond setFlags rn rd rs shift rm => Sys2Proof.Machine.execSbcRegReg cond setFlags rn rd rs shift rm s
  | .rscRegReg cond setFlags rn rd rs shift rm => Sys2Proof.Machine.execRscRegReg cond setFlags rn rd rs shift rm s
  | .tstRegImm cond rn shiftImm shift rm => Sys2Proof.Machine.execTstRegImm cond rn shiftImm shift rm s
  | .teqRegImm cond rn shiftImm shift rm => Sys2Proof.Machine.execTeqRegImm cond rn shiftImm shift rm s
  | .cmpRegImm cond rn shiftImm shift rm => Sys2Proof.Machine.execCmpRegImm cond rn shiftImm shift rm s
  | .cmnRegImm cond rn shiftImm shift rm => Sys2Proof.Machine.execCmnRegImm cond rn shiftImm shift rm s
  | .orrRegReg cond setFlags rn rd rs shift rm => Sys2Proof.Machine.execOrrRegReg cond setFlags rn rd rs shift rm s
  | .movRegReg cond setFlags rd rs shift rm => Sys2Proof.Machine.execMovRegReg cond setFlags rd rs shift rm s
  | .bicRegReg cond setFlags rn rd rs shift rm => Sys2Proof.Machine.execBicRegReg cond setFlags rn rd rs shift rm s
  | .mvnRegReg cond setFlags rd rs shift rm => Sys2Proof.Machine.execMvnRegReg cond setFlags rd rs shift rm s
  | .strhImm cond p u w rn rd immH immL => Sys2Proof.Machine.execStrhImm cond p u w rn rd immH immL s
  | .strhReg cond p u w rn rd rm => Sys2Proof.Machine.execStrhReg cond p u w rn rd rm s
  | .ldrhImm cond p u w rn rd immH immL => Sys2Proof.Machine.execLdrhImm cond p u w rn rd immH immL s
  | .ldrhReg cond p u w rn rd rm => Sys2Proof.Machine.execLdrhReg cond p u w rn rd rm s
  | .ldrsbImm cond p u w rn rd immH immL => Sys2Proof.Machine.execLdrsbImm cond p u w rn rd immH immL s
  | .ldrsbReg cond p u w rn rd rm => Sys2Proof.Machine.execLdrsbReg cond p u w rn rd rm s
  | .ldrshImm cond p u w rn rd immH immL => Sys2Proof.Machine.execLdrshImm cond p u w rn rd immH immL s
  | .ldrshReg cond p u w rn rd rm => Sys2Proof.Machine.execLdrshReg cond p u w rn rd rm s
  | .ldrdImm cond p u w rn rd immH immL => Sys2Proof.Machine.execLdrdImm cond p u w rn rd immH immL s
  | .ldrdReg cond p u w rn rd rm => Sys2Proof.Machine.execLdrdReg cond p u w rn rd rm s
  | .strdImm cond p u w rn rd immH immL => Sys2Proof.Machine.execStrdImm cond p u w rn rd immH immL s
  | .strdReg cond p u w rn rd rm => Sys2Proof.Machine.execStrdReg cond p u w rn rd rm s
  | .andRegImm cond setFlags rn rd shiftImm shift rm => Sys2Proof.Machine.execAndRegImm cond setFlags rn rd shiftImm shift rm s
  | .eorRegImm cond setFlags rn rd shiftImm shift rm => Sys2Proof.Machine.execEorRegImm cond setFlags rn rd shiftImm shift rm s
  | .subRegImm cond setFlags rn rd shiftImm shift rm => Sys2Proof.Machine.execSubRegImm cond setFlags rn rd shiftImm shift rm s
  | .rsbRegImm cond setFlags rn rd shiftImm shift rm => Sys2Proof.Machine.execRsbRegImm cond setFlags rn rd shiftImm shift rm s
  | .addRegImm cond setFlags rn rd shiftImm shift rm => Sys2Proof.Machine.execAddRegImm cond setFlags rn rd shiftImm shift rm s
  | .adcRegImm cond setFlags rn rd shiftImm shift rm => Sys2Proof.Machine.execAdcRegImm cond setFlags rn rd shiftImm shift rm s
  | .sbcRegImm cond setFlags rn rd shiftImm shift rm => Sys2Proof.Machine.execSbcRegImm cond setFlags rn rd shiftImm shift rm s
  | .rscRegImm cond setFlags rn rd shiftImm shift rm => Sys2Proof.Machine.execRscRegImm cond setFlags rn rd shiftImm shift rm s
  | .tstImm cond rn rot imm8 => Sys2Proof.Machine.execTstImm cond rn rot imm8 s
  | .teqImm cond rn rot imm8 => Sys2Proof.Machine.execTeqImm cond rn rot imm8 s
  | .cmpImm cond rn rot imm8 => Sys2Proof.Machine.execCmpImm cond rn rot imm8 s
  | .cmnImm cond rn rot imm8 => Sys2Proof.Machine.execCmnImm cond rn rot imm8 s
  | .orrRegImm cond setFlags rn rd shiftImm shift rm => Sys2Proof.Machine.execOrrRegImm cond setFlags rn rd shiftImm shift rm s
  | .movRegImm cond setFlags rd shiftImm shift rm => Sys2Proof.Machine.execMovRegImm cond setFlags rd shiftImm shift rm s
  | .bicRegImm cond setFlags rn rd shiftImm shift rm => Sys2Proof.Machine.execBicRegImm cond setFlags rn rd shiftImm shift rm s
  | .mvnRegImm cond setFlags rd shiftImm shift rm => Sys2Proof.Machine.execMvnRegImm cond setFlags rd shiftImm shift rm s
  | .ldrtReg cond u rn rd shiftImm shift rm => Sys2Proof.Machine.execLdrtReg cond u rn rd shiftImm shift rm s
  | .strtReg cond u rn rd shiftImm shift rm => Sys2Proof.Machine.execStrtReg cond u rn rd shiftImm shift rm s
  | .ldrbtReg cond u rn rd shiftImm shift rm => Sys2Proof.Machine.execLdrbtReg cond u rn rd shiftImm shift rm s
  | .strbtReg cond u rn rd shiftImm shift rm => Sys2Proof.Machine.execStrbtReg cond u rn rd shiftImm shift rm s
  | .mcrr cond rn rd cp opc crm => Sys2Proof.Machine.execMcrr cond rn rd cp opc crm s
  | .mrrc cond rn rd cp opc crm => Sys2Proof.Machine.execMrrc cond rn rd cp opc crm s
  | .andImm cond setFlags rn rd rot imm8 => Sys2Proof.Machine.execAndImm cond setFlags rn rd rot imm8 s
  | .eorImm cond setFlags rn rd rot imm8 => Sys2Proof.Machine.execEorImm cond setFlags rn rd rot imm8 s
  | .subImm cond setFlags rn rd rot imm8 => Sys2Proof.Machine.execSubImm cond setFlags rn rd rot imm8 s
  | .rsbImm cond setFlags rn rd rot imm8 => Sys2Proof.Machine.execRsbImm cond setFlags rn rd rot imm8 s
  | .addImm cond setFlags rn rd rot imm8 => Sys2Proof.Machine.execAddImm cond setFlags rn rd rot imm8 s
  | .adcImm cond setFlags rn rd rot imm8 => Sys2Proof.Machine.execAdcImm cond setFlags rn rd rot imm8 s
  | .sbcImm cond setFlags rn rd rot imm8 => Sys2Proof.Machine.execSbcImm cond setFlags rn rd rot imm8 s
  | .rscImm cond setFlags rn rd rot imm8 => Sys2Proof.Machine.execRscImm cond setFlags rn rd rot imm8 s
  | .orrImm cond setFlags rn rd rot imm8 => Sys2Proof.Machine.execOrrImm cond setFlags rn rd rot imm8 s
  | .movImm cond setFlags rd rot imm8 => Sys2Proof.Machine.execMovImm cond setFlags rd rot imm8 s
  | .bicImm cond setFlags rn rd rot imm8 => Sys2Proof.Machine.execBicImm cond setFlags rn rd rot imm8 s
  | .mvnImm cond setFlags rd rot imm8 => Sys2Proof.Machine.execMvnImm cond setFlags rd rot imm8 s
  | .msrImm cond r fields rot imm8 => Sys2Proof.Machine.execMsrImm cond r fields rot imm8 s
  | .ldrtImm cond u rn rd imm12 => Sys2Proof.Machine.execLdrtImm cond u rn rd imm12 s
  | .strtImm cond u rn rd imm12 => Sys2Proof.Machine.execStrtImm cond u rn rd imm12 s
  | .ldrbtImm cond u rn rd imm12 => Sys2Proof.Machine.execLdrbtImm cond u rn rd imm12 s
  | .strbtImm cond u rn rd imm12 => Sys2Proof.Machine.execStrbtImm cond u rn rd imm12 s
  | .ldrReg cond p u w rn rd shiftImm shift rm => Sys2Proof.Machine.execLdrReg cond p u w rn rd shiftImm shift rm s
  | .strReg cond p u w rn rd shiftImm shift rm => Sys2Proof.Machine.execStrReg cond p u w rn rd shiftImm shift rm s
  | .ldrbReg cond p u w rn rd shiftImm shift rm => Sys2Proof.Machine.execLdrbReg cond p u w rn rd shiftImm shift rm s
  | .strbReg cond p u w rn rd shiftImm shift rm => Sys2Proof.Machine.execStrbReg cond p u w rn rd shiftImm shift rm s
  | .ldmUser cond p u w rn regs => Sys2Proof.Machine.execLdmUser cond p u w rn regs s
  | .ldmReturn cond p u w rn regs => Sys2Proof.Machine.execLdmReturn cond p u w rn regs s
  | .mcr cond opc1 crn rd cp opc2 crm => Sys2Proof.Machine.execMcr cond opc1 crn rd cp opc2 crm s
  | .mrc cond opc1 crn rd cp opc2 crm => Sys2Proof.Machine.execMrc cond opc1 crn rd cp opc2 crm s
  | .ldcPost cond u long rn crd cp offset8 => Sys2Proof.Machine.execLdcPost cond u long rn crd cp offset8 s
  | .stcPost cond u long rn crd cp offset8 => Sys2Proof.Machine.execStcPost cond u long rn crd cp offset8 s
  | .ldrImm cond p u w rn rd imm12 => Sys2Proof.Machine.execLdrImm cond p u w rn rd imm12 s
  | .strImm cond p u w rn rd imm12 => Sys2Proof.Machine.execStrImm cond p u w rn rd imm12 s
  | .ldrbImm cond p u w rn rd imm12 => Sys2Proof.Machine.execLdrbImm cond p u w rn rd imm12 s
  | .strbImm cond p u w rn rd imm12 => Sys2Proof.Machine.execStrbImm cond p u w rn rd imm12 s
  | .ldm cond p u w rn regs => Sys2Proof.Machine.execLdm cond p u w rn regs s
  | .stm cond p u w rn regs => Sys2Proof.Machine.execStm cond p u w rn regs s
  | .stmUser cond p u w rn regs => Sys2Proof.Machine.execStmUser cond p u w rn regs s
  | .cdp cond opc1 crn crd cp opc2 crm => Sys2Proof.Machine.execCdp cond opc1 crn crd cp opc2 crm s
  | .ldcPre cond u long w rn crd cp offset8 => Sys2Proof.Machine.execLdcPre cond u long w rn crd cp offset8 s
  | .stcPre cond u long w rn crd cp offset8 => Sys2Proof.Machine.execStcPre cond u long w rn crd cp offset8 s
  | .b cond imm24 => Sys2Proof.Machine.execB cond imm24 s
  | .bl cond imm24 => Sys2Proof.Machine.execBl cond imm24 s
  | .swi cond imm24 => Sys2Proof.Machine.execSwi cond imm24 s
  | .tAnd rm rd => Sys2Proof.Machine.execTAnd rm rd s
  | .tEor rm rd => Sys2Proof.Machine.execTEor rm rd s
  | .tLslReg rm rd => Sys2Proof.Machine.execTLslReg rm rd s
  | .tLsrReg rm rd => Sys2Proof.Machine.execTLsrReg rm rd s
  | .tAsrReg rm rd => Sys2Proof.Machine.execTAsrReg rm rd s
  | .tAdc rm rd => Sys2Proof.Machine.execTAdc rm rd s
  | .tSbc rm rd => Sys2Proof.Machine.execTSbc rm rd s
  | .tRor rm rd => Sys2Proof.Machine.execTRor rm rd s
  | .tTst rm rd => Sys2Proof.Machine.execTTst rm rd s
  | .tNeg rm rd => Sys2Proof.Machine.execTNeg rm rd s
  | .tCmpLow rm rd => Sys2Proof.Machine.execTCmpLow rm rd s
  | .tCmn rm rd => Sys2Proof.Machine.execTCmn rm rd s
  | .tOrr rm rd => Sys2Proof.Machine.execTOrr rm rd s
  | .tMul rm rd => Sys2Proof.Machine.execTMul rm rd s
  | .tBic rm rd => Sys2Proof.Machine.execTBic rm rd s
  | .tMvn rm rd => Sys2Proof.Machine.execTMvn rm rd s
  | .tBx h2 rm => Sys2Proof.Machine.execTBx h2 rm s
  | .tBlxReg h2 rm => Sys2Proof.Machine.execTBlxReg h2 rm s
  | .tAddSp imm7 => Sys2Proof.Machine.execTAddSp imm7 s
  | .tSubSp imm7 => Sys2Proof.Machine.execTSubSp imm7 s
  | .tAddHigh h1 h2 rm rd => Sys2Proof.Machine.execTAddHigh h1 h2 rm rd s
  | .tCmpHigh h1 h2 rm rd => Sys2Proof.Machine.execTCmpHigh h1 h2 rm rd s
  | .tMovHigh h1 h2 rm rd => Sys2Proof.Machine.execTMovHigh h1 h2 rm rd s
  | .tBkpt imm8 => Sys2Proof.Machine.execTBkpt imm8 s
  | .tSwi imm8 => Sys2Proof.Machine.execTSwi imm8 s
  | .tUnallocated imm8 => Sys2Proof.Machine.execTUnallocated imm8 s
  | .tAddReg3 rm rn rd => Sys2Proof.Machine.execTAddReg3 rm rn rd s
  | .tSubReg3 rm rn rd => Sys2Proof.Machine.execTSubReg3 rm rn rd s
  | .tAddImm3 imm3 rn rd => Sys2Proof.Machine.execTAddImm3 imm3 rn rd s
  | .tSubImm3 imm3 rn rd => Sys2Proof.Machine.execTSubImm3 imm3 rn rd s
  | .tStrReg rm rn rd => Sys2Proof.Machine.execTStrReg rm rn rd s
  | .tStrhReg rm rn rd => Sys2Proof.Machine.execTStrhReg rm rn rd s
  | .tStrbReg rm rn rd => Sys2Proof.Machine.execTStrbReg rm rn rd s
  | .tLdrsbReg rm rn rd => Sys2Proof.Machine.execTLdrsbReg rm rn rd s
  | .tLdrReg rm rn rd => Sys2Proof.Machine.execTLdrReg rm rn rd s
  | .tLdrhReg rm rn rd => Sys2Proof.Machine.execTLdrhReg rm rn rd s
  | .tLdrbReg rm rn rd => Sys2Proof.Machine.execTLdrbReg rm rn rd s
  | .tLdrshReg rm rn rd => Sys2Proof.Machine.execTLdrshReg rm rn rd s
  | .tPush r regs => Sys2Proof.Machine.execTPush r regs s
  | .tPop r regs => Sys2Proof.Machine.execTPop r regs s
  | .tBlxSecond lo10 => Sys2Proof.Machine.execTBlxSecond lo10 s
  | .tLslImm imm5 rm rd => Sys2Proof.Machine.execTLslImm imm5 rm rd s
  | .tLsrImm imm5 rm rd => Sys2Proof.Machine.execTLsrImm imm5 rm rd s
  | .tAsrImm imm5 rm rd => Sys2Proof.Machine.execTAsrImm imm5 rm rd s
  | .tMovImm8 rd imm8 => Sys2Proof.Machine.execTMovImm8 rd imm8 s
  | .tCmpImm8 rn imm8 => Sys2Proof.Machine.execTCmpImm8 rn imm8 s
  | .tAddImm8 rd imm8 => Sys2Proof.Machine.execTAddImm8 rd imm8 s
  | .tSubImm8 rd imm8 => Sys2Proof.Machine.execTSubImm8 rd imm8 s
  | .tLdrPc rd imm8 => Sys2Proof.Machine.execTLdrPc rd imm8 s
  | .tStrImm imm5 rn rd => Sys2Proof.Machine.execTStrImm imm5 rn rd s
  | .tLdrImm imm5 rn rd => Sys2Proof.Machine.execTLdrImm imm5 rn rd s
  | .tStrbImm imm5 rn rd => Sys2Proof.Machine.execTStrbImm imm5 rn rd s
  | .tLdrbImm imm5 rn rd => Sys2Proof.Machine.execTLdrbImm imm5 rn rd s
  | .tStrhImm imm5 rn rd => Sys2Proof.Machine.execTStrhImm imm5 rn rd s
  | .tLdrhImm imm5 rn rd => Sys2Proof.Machine.execTLdrhImm imm5 rn rd s
  | .tStrSpRel rd imm8 => Sys2Proof.Machine.execTStrSpRel rd imm8 s
  | .tLdrSpRel rd imm8 => Sys2Proof.Machine.execTLdrSpRel rd imm8 s
  | .tAddPcImm rd imm8 => Sys2Proof.Machine.execTAddPcImm rd imm8 s
  | .tAddSpImm rd imm8 => Sys2Proof.Machine.execTAddSpImm rd imm8 s
  | .tStmia rn regs => Sys2Proof.Machine.execTStmia rn regs s
  | .tLdmia rn regs => Sys2Proof.Machine.execTLdmia rn regs s
  | .tB imm11 => Sys2Proof.Machine.execTB imm11 s
  | .tBlFirst hi11 => Sys2Proof.Machine.execTBlFirst hi11 s
  | .tBlSecond lo11 => Sys2Proof.Machine.execTBlSecond lo11 s
  | .tBCond cond imm8 => Sys2Proof.Machine.execTBCond cond imm8 s

end Sys2Proof.Machine
end

