-- ==== Sys2Proof/Machine/Fetch.lean ====
section
/-! DEFINITION. The parts of a step around the instruction (spec 60_exceptions.md R611 to R613, R620; 30_encoding.md
R100): the input lines, the fetch, the decoding of what was fetched.

The definitions that decode are noncomputable for the reason that `Sys2Proof.Decode` gives (notes/assumptions/1). -/

namespace Sys2Proof.Machine

/-! ## The input lines (R611 to R613) -/

/-- The input of this step. -/
def State.input (s : State) : Input := s.inputs.headD Input.none

/-- The state that runs this step's instruction: the step's input is taken, and the coprocessors' answer stands ready. -/
def State.nextInputs (s : State) : State := { s with inputs := s.inputs.tail, answer := s.input.answer }

/-- The exception that the lines cause before the instruction (R611, R612): reset, then FIQ, then IRQ. -/
def State.interrupted (s : State) (l : Lines) : Option Exc :=
  if l.reset then some .reset
  else if l.fiq && !s.cpsr.f then some .fiq
  else if l.irq && !s.cpsr.i then some .irq
  else none

/-! ## Fetch and decode (R100, R620) -/

/-- What the fetch at the pc gives. -/
inductive Fetched where
  /-- The memory system refuses it (R605). -/
  | abort
  /-- A byte of it has no value (R51). -/
  | unwritten
  /-- An ARM instruction whose condition fails, whatever it is (R604, R620). -/
  | skip
  /-- No row of the table (R604). -/
  | undefined
  /-- A row, but a should-be bit is wrong (R102). -/
  | unpredictable
  /-- An instruction. -/
  | run (i : Instr)
  deriving DecidableEq, Repr

/-- The bytes of an instruction in the current state (R100). -/
def State.fetchBytes (s : State) : Nat := if s.cpsr.t then 2 else 4

/-- Whether the memory system allows the fetch (R80, R605). -/
def State.fetchAllowed (s : State) : Bool := s.allowed s.pc s.fetchBytes .fetch s.privileged

/-- Whether an ARM word's condition field is a condition that fails (R101, R620). -/
def State.skips (s : State) (w : Word) : Bool :=
  match Cond.ofBits (w.extractLsb' 28 4) with
  | some c => !s.cpsr.passed c
  | none => false

/-- What a decoded word is to the step. -/
def Fetched.ofDecoded : Decoded → Fetched
  | .instr i => .run i
  | .undefined => .undefined
  | .unpredictable => .unpredictable

noncomputable section

/-- The instruction at the pc in ARM state (R100, R620). -/
def State.fetchArm (s : State) : Fetched :=
  match s.word s.pc with
  | none => .unwritten
  | some w => if s.skips w then .skip else .ofDecoded (decodeArm s.cfg.arch s.vfpEnabled w)

/-- The instruction at the pc in Thumb state (R100, R620). -/
def State.fetchThumb (s : State) : Fetched :=
  match s.half s.pc with
  | none => .unwritten
  | some h => .ofDecoded (decodeThumb s.cfg.arch h)

/-- The fetch at the pc (R100, R620). -/
def State.fetch (s : State) : Fetched :=
  if !s.fetchAllowed then .abort else if s.cpsr.t then s.fetchThumb else s.fetchArm

end

/-! ## Placing an instruction -/

/-- Store an instruction of `nbits` bits at the pc in the configured byte order and select the state it belongs to. -/
def State.placeInstr (s : State) (nbits w : Nat) : State :=
  if nbits ≤ 16 then (s.setHalf s.pc (BitVec.ofNat 16 w)).setThumb true
  else (s.setWord s.pc (BitVec.ofNat 32 w)).setThumb false

end Sys2Proof.Machine
end

