-- ==== Sys2Proof/Machine/Step.lean ====
section
/-! DEFINITION. One step of the machine (spec 60_exceptions.md R620), and the placing of an instruction where the next
step fetches it. -/

namespace Sys2Proof.Machine

noncomputable section

/-- The fetch, the decoding and the instruction (R620). -/
def State.runNext (s : State) : Host.Outcome State Fault Refusal :=
  match s.fetch with
  | .abort => .next (s.takeException .prefetchAbort)
  | .unwritten => .fault .unwritten
  | .skip => s.finish s.advance
  | .undefined => .next (s.takeException .undefined)
  | .unpredictable => .fault .shouldBeBits
  | .run i => exec i s

/-- One step (R620): a run that has ended stays as it is (R15); the input lines come before the instruction (R612). -/
def step (s : State) : Host.Outcome State Fault Refusal :=
  if s.exited.isSome then .next s
  else
    match s.interrupted s.input.lines with
    | some e => .next (s.nextInputs.takeException e)
    | none => s.nextInputs.runNext

end

/-- The state with an instruction of `nbits` bits, 16 (Thumb) or 32 (ARM), where the next step fetches: stored at the pc,
its state selected, no input line high, the run not ended. -/
def State.withFetchWord (s : State) (nbits w : Nat) : State :=
  { s.placeInstr nbits w with inputs := [], exited := none }

end Sys2Proof.Machine
end

