-- ==== Sys2Proof/WellFormed.lean ====
section
/-! DEFINITION. The instructions that are well formed: the terms of `Instr` that stand for a row of the table with fields
that no earlier row takes (spec 30_encoding.md R100, R152). An encoding is always given its first matching row, so a term
that is not well formed has a code that decodes to another instruction. Every instruction is taken to exist
(`Arch.full`). -/

namespace Sys2Proof

/-- Bits 27 to 0 under the condition field 1111 that an earlier row takes (R112, R114, R115, R117): PLD, the second forms
of the coprocessor instructions, BLX. -/
def allocatedUncond (b : BitVec 28) : Bool :=
  b &&& 0xF700010#28 == 0x7500000#28 || b &&& 0xF700000#28 == 0x5500000#28 ||
    b &&& 0xF000010#28 == 0xE000010#28 || b &&& 0xF300000#28 == 0xC300000#28 ||
    b &&& 0xF300000#28 == 0xC200000#28 || b &&& 0xF000010#28 == 0xE000000#28 ||
    b &&& 0xF000000#28 == 0xD000000#28 || b &&& 0xE000000#28 == 0xA000000#28

/-- The coprocessor numbers of the VFP (R140). -/
def vfpNumber (cp : BitVec 4) : Bool := cp == 10#4 || cp == 11#4

/-- The MCR words of coprocessor 0 that are MIA, MIAPH and MIAxy (R116). -/
def accumulatorOp (opc1 : BitVec 3) (crn : BitVec 4) : Bool :=
  opc1 == 1#3 && (crn == 0#4 || crn == 8#4 || crn.extractLsb' 2 2 == 3#2)

/-- The MCR and MRC words that are VFP transfers (R145, R146). -/
def vfpTransfer (cp : BitVec 4) (opc1 : BitVec 3) : Bool :=
  (cp == 10#4 && (opc1 == 0#3 || opc1 == 7#3)) || (cp == 11#4 && (opc1 == 0#3 || opc1 == 1#3))

/-- The operations of the VFP extension space (R142): `ext` and N. -/
def vfpExtension (ext : BitVec 4) (n : Bool) : Bool :=
  ext == 0#4 || ext == 1#4 || ext == 4#4 || ext == 5#4 || (ext == 7#4 && n) || ext == 8#4 || ext == 12#4 ||
    ext == 13#4

/-- The CDP words of the VFP's numbers that are VFP data processing (R141, R142): `p q r s` are bits 23, 21, 20, 6. -/
def vfpDataOp (opc1 crn : BitVec 4) (opc2 : BitVec 3) : Bool :=
  let p := opc1.getLsbD 3
  let q := opc1.getLsbD 1
  let r := opc1.getLsbD 0
  let s := opc2.getLsbD 1
  !p || (!q && !r && !s) || (q && r && s && vfpExtension crn (opc2.getLsbD 2))

/-- Well-formed instructions. -/
def Instr.wf : Instr → Bool
  | .pldReg _ _ _ _ _ => true
  | .pldImm _ _ _ => true
  | .mcr2 _ _ _ _ _ _ => true
  | .mrc2 _ _ _ _ _ _ => true
  | .ldc2Post _ _ _ _ _ _ => true
  | .stc2Post _ _ _ _ _ _ => true
  | .cdp2 _ _ _ _ _ _ => true
  | .ldc2Pre _ _ _ _ _ _ _ => true
  | .stc2Pre _ _ _ _ _ _ _ => true
  | .blxLabel _ _ => true
  | .unallocatedUncond bits => !allocatedUncond bits
  | .fmstat _ => true
  | .fcpys _ _ _ => true
  | .fcpyd _ _ _ => true
  | .fabss _ _ _ => true
  | .fabsd _ _ _ => true
  | .fnegs _ _ _ => true
  | .fnegd _ _ _ => true
  | .fsqrts _ _ _ => true
  | .fsqrtd _ _ _ => true
  | .fcmps _ _ _ => true
  | .fcmpd _ _ _ => true
  | .fcmpes _ _ _ => true
  | .fcmped _ _ _ => true
  | .fcmpzs _ _ => true
  | .fcmpzd _ _ => true
  | .fcmpezs _ _ => true
  | .fcmpezd _ _ => true
  | .fcvtds _ _ _ => true
  | .fcvtsd _ _ _ => true
  | .fuitos _ _ _ => true
  | .fuitod _ _ _ => true
  | .fsitos _ _ _ => true
  | .fsitod _ _ _ => true
  | .ftouis _ _ _ => true
  | .ftouid _ _ _ => true
  | .ftouizs _ _ _ => true
  | .ftouizd _ _ _ => true
  | .ftosis _ _ _ => true
  | .ftosid _ _ _ => true
  | .ftosizs _ _ _ => true
  | .ftosizd _ _ _ => true
  | .mia _ _ _ => true
  | .miaph _ _ _ => true
  | .miaXY _ _ _ _ _ => true
  | .fmacs _ _ _ _ => true
  | .fmacd _ _ _ _ => true
  | .fnmacs _ _ _ _ => true
  | .fnmacd _ _ _ _ => true
  | .fmscs _ _ _ _ => true
  | .fmscd _ _ _ _ => true
  | .fnmscs _ _ _ _ => true
  | .fnmscd _ _ _ _ => true
  | .fmuls _ _ _ _ => true
  | .fmuld _ _ _ _ => true
  | .fnmuls _ _ _ _ => true
  | .fnmuld _ _ _ _ => true
  | .fadds _ _ _ _ => true
  | .faddd _ _ _ _ => true
  | .fsubs _ _ _ _ => true
  | .fsubd _ _ _ _ => true
  | .fdivs _ _ _ _ => true
  | .fdivd _ _ _ _ => true
  | .fmsr _ _ _ => true
  | .fmrs _ _ _ => true
  | .fmdlr _ _ _ => true
  | .fmrdl _ _ _ => true
  | .fmdhr _ _ _ => true
  | .fmrdh _ _ _ => true
  | .fmxr _ _ _ => true
  | .fmrx _ reg rd => !(reg == 1#4 && rd == 15#4)
  | .qadd _ _ _ _ => true
  | .qsub _ _ _ _ => true
  | .qdadd _ _ _ _ => true
  | .qdsub _ _ _ _ => true
  | .bx _ _ => true
  | .blxReg _ _ => true
  | .clz _ _ _ => true
  | .bkpt _ _ _ => true
  | .swp _ _ _ _ => true
  | .swpb _ _ _ _ => true
  | .mar _ _ _ => true
  | .mra _ _ _ => true
  | .fldmdbd _ _ _ _ => true
  | .fldmdbx _ _ _ _ => true
  | .fstmdbd _ _ _ _ => true
  | .fstmdbx _ _ _ _ => true
  | .mul _ _ _ _ _ => true
  | .mla _ _ _ _ _ _ => true
  | .umull _ _ _ _ _ _ => true
  | .umlal _ _ _ _ _ _ => true
  | .smull _ _ _ _ _ _ => true
  | .smlal _ _ _ _ _ _ => true
  | .smlawY _ _ _ _ _ _ => true
  | .smulwY _ _ _ _ _ => true
  | .mrs _ _ _ => true
  | .msrReg _ _ _ _ => true
  | .fldmiad _ _ _ _ _ => true
  | .fldmiax _ _ _ _ _ => true
  | .fldmdbs _ _ _ _ => true
  | .fstmiad _ _ _ _ _ => true
  | .fstmiax _ _ _ _ _ => true
  | .fstmdbs _ _ _ _ => true
  | .tstRegReg _ _ _ _ _ => true
  | .teqRegReg _ _ _ _ _ => true
  | .cmpRegReg _ _ _ _ _ => true
  | .cmnRegReg _ _ _ _ _ => true
  | .smlaXY _ _ _ _ _ _ _ => true
  | .smlalXY _ _ _ _ _ _ _ => true
  | .smulXY _ _ _ _ _ _ => true
  | .flds _ _ _ _ _ => true
  | .fldd _ _ _ _ _ => true
  | .fsts _ _ _ _ _ => true
  | .fstd _ _ _ _ _ => true
  | .fldmias _ _ _ _ _ => true
  | .fstmias _ _ _ _ _ => true
  | .andRegReg _ _ _ _ _ _ _ => true
  | .eorRegReg _ _ _ _ _ _ _ => true
  | .subRegReg _ _ _ _ _ _ _ => true
  | .rsbRegReg _ _ _ _ _ _ _ => true
  | .addRegReg _ _ _ _ _ _ _ => true
  | .adcRegReg _ _ _ _ _ _ _ => true
  | .sbcRegReg _ _ _ _ _ _ _ => true
  | .rscRegReg _ _ _ _ _ _ _ => true
  | .tstRegImm _ _ _ _ _ => true
  | .teqRegImm _ _ _ _ _ => true
  | .cmpRegImm _ _ _ _ _ => true
  | .cmnRegImm _ _ _ _ _ => true
  | .orrRegReg _ _ _ _ _ _ _ => true
  | .movRegReg _ _ _ _ _ _ => true
  | .bicRegReg _ _ _ _ _ _ _ => true
  | .mvnRegReg _ _ _ _ _ _ => true
  | .strhImm _ _ _ _ _ _ _ _ => true
  | .strhReg _ _ _ _ _ _ _ => true
  | .ldrhImm _ _ _ _ _ _ _ _ => true
  | .ldrhReg _ _ _ _ _ _ _ => true
  | .ldrsbImm _ _ _ _ _ _ _ _ => true
  | .ldrsbReg _ _ _ _ _ _ _ => true
  | .ldrshImm _ _ _ _ _ _ _ _ => true
  | .ldrshReg _ _ _ _ _ _ _ => true
  | .ldrdImm _ _ _ _ _ _ _ _ => true
  | .ldrdReg _ _ _ _ _ _ _ => true
  | .strdImm _ _ _ _ _ _ _ _ => true
  | .strdReg _ _ _ _ _ _ _ => true
  | .andRegImm _ _ _ _ _ _ _ => true
  | .eorRegImm _ _ _ _ _ _ _ => true
  | .subRegImm _ _ _ _ _ _ _ => true
  | .rsbRegImm _ _ _ _ _ _ _ => true
  | .addRegImm _ _ _ _ _ _ _ => true
  | .adcRegImm _ _ _ _ _ _ _ => true
  | .sbcRegImm _ _ _ _ _ _ _ => true
  | .rscRegImm _ _ _ _ _ _ _ => true
  | .tstImm _ _ _ _ => true
  | .teqImm _ _ _ _ => true
  | .cmpImm _ _ _ _ => true
  | .cmnImm _ _ _ _ => true
  | .orrRegImm _ _ _ _ _ _ _ => true
  | .movRegImm _ _ _ _ _ _ => true
  | .bicRegImm _ _ _ _ _ _ _ => true
  | .mvnRegImm _ _ _ _ _ _ => true
  | .ldrtReg _ _ _ _ _ _ _ => true
  | .strtReg _ _ _ _ _ _ _ => true
  | .ldrbtReg _ _ _ _ _ _ _ => true
  | .strbtReg _ _ _ _ _ _ _ => true
  | .mcrr _ _ _ cp _ _ => cp != 0#4
  | .mrrc _ _ _ cp _ _ => cp != 0#4
  | .andImm _ _ _ _ _ _ => true
  | .eorImm _ _ _ _ _ _ => true
  | .subImm _ _ _ _ _ _ => true
  | .rsbImm _ _ _ _ _ _ => true
  | .addImm _ _ _ _ _ _ => true
  | .adcImm _ _ _ _ _ _ => true
  | .sbcImm _ _ _ _ _ _ => true
  | .rscImm _ _ _ _ _ _ => true
  | .orrImm _ _ _ _ _ _ => true
  | .movImm _ _ _ _ _ => true
  | .bicImm _ _ _ _ _ _ => true
  | .mvnImm _ _ _ _ _ => true
  | .msrImm _ _ _ _ _ => true
  | .ldrtImm _ _ _ _ _ => true
  | .strtImm _ _ _ _ _ => true
  | .ldrbtImm _ _ _ _ _ => true
  | .strbtImm _ _ _ _ _ => true
  | .ldrReg _ p _ w _ _ _ _ _ => p || !w
  | .strReg _ p _ w _ _ _ _ _ => p || !w
  | .ldrbReg _ p _ w _ _ _ _ _ => p || !w
  | .strbReg _ p _ w _ _ _ _ _ => p || !w
  | .ldmUser _ _ _ _ _ _ => true
  | .ldmReturn _ _ _ _ _ _ => true
  | .mcr _ opc1 crn _ cp _ _ => !(cp == 0#4 && accumulatorOp opc1 crn) && !vfpTransfer cp opc1
  | .mrc _ opc1 _ _ cp _ _ => !vfpTransfer cp opc1
  | .ldcPost _ u _ _ _ cp _ => !(vfpNumber cp && u)
  | .stcPost _ u _ _ _ cp _ => !(vfpNumber cp && u)
  | .ldrImm _ p _ w _ _ _ => p || !w
  | .strImm _ p _ w _ _ _ => p || !w
  | .ldrbImm _ p _ w _ _ _ => p || !w
  | .strbImm _ p _ w _ _ _ => p || !w
  | .ldm _ _ _ _ _ _ => true
  | .stm _ _ _ _ _ _ => true
  | .stmUser _ _ _ _ _ _ => true
  | .cdp _ opc1 crn _ cp opc2 _ => !(vfpNumber cp && vfpDataOp opc1 crn opc2)
  | .ldcPre _ u _ w _ _ cp _ => !(vfpNumber cp && !(u && w))
  | .stcPre _ u _ w _ _ cp _ => !(vfpNumber cp && !(u && w))
  | .b _ _ => true
  | .bl _ _ => true
  | .swi _ _ => true
  | .tAnd _ _ => true
  | .tEor _ _ => true
  | .tLslReg _ _ => true
  | .tLsrReg _ _ => true
  | .tAsrReg _ _ => true
  | .tAdc _ _ => true
  | .tSbc _ _ => true
  | .tRor _ _ => true
  | .tTst _ _ => true
  | .tNeg _ _ => true
  | .tCmpLow _ _ => true
  | .tCmn _ _ => true
  | .tOrr _ _ => true
  | .tMul _ _ => true
  | .tBic _ _ => true
  | .tMvn _ _ => true
  | .tBx _ _ => true
  | .tBlxReg _ _ => true
  | .tAddSp _ => true
  | .tSubSp _ => true
  | .tAddHigh _ _ _ _ => true
  | .tCmpHigh _ _ _ _ => true
  | .tMovHigh _ _ _ _ => true
  | .tBkpt _ => true
  | .tSwi _ => true
  | .tUnallocated _ => true
  | .tAddReg3 _ _ _ => true
  | .tSubReg3 _ _ _ => true
  | .tAddImm3 _ _ _ => true
  | .tSubImm3 _ _ _ => true
  | .tStrReg _ _ _ => true
  | .tStrhReg _ _ _ => true
  | .tStrbReg _ _ _ => true
  | .tLdrsbReg _ _ _ => true
  | .tLdrReg _ _ _ => true
  | .tLdrhReg _ _ _ => true
  | .tLdrbReg _ _ _ => true
  | .tLdrshReg _ _ _ => true
  | .tPush _ _ => true
  | .tPop _ _ => true
  | .tBlxSecond _ => true
  | .tLslImm _ _ _ => true
  | .tLsrImm _ _ _ => true
  | .tAsrImm _ _ _ => true
  | .tMovImm8 _ _ => true
  | .tCmpImm8 _ _ => true
  | .tAddImm8 _ _ => true
  | .tSubImm8 _ _ => true
  | .tLdrPc _ _ => true
  | .tStrImm _ _ _ => true
  | .tLdrImm _ _ _ => true
  | .tStrbImm _ _ _ => true
  | .tLdrbImm _ _ _ => true
  | .tStrhImm _ _ _ => true
  | .tLdrhImm _ _ _ => true
  | .tStrSpRel _ _ => true
  | .tLdrSpRel _ _ => true
  | .tAddPcImm _ _ => true
  | .tAddSpImm _ _ => true
  | .tStmia _ _ => true
  | .tLdmia _ _ => true
  | .tB _ => true
  | .tBlFirst _ => true
  | .tBlSecond _ => true
  | .tBCond cond _ => cond != .al

end Sys2Proof
end

