-- ==== Sys2Proof/Safety.lean ====
section
/-! DEFINITION. The words that the statements use: what a step leaves as it was, when an instruction completes, the
families of instructions of one shape with what the spec gives for each of their members, and the invariant that every
step keeps. -/

namespace Sys2Proof.Machine

/-! ## What stays as it was -/

/-- All of the state but the general registers, the pc, memory and the four condition flags: the other bits of the CPSR,
the SPSRs, the VFP and its registers, the accumulator, and the model's own fields. -/
def State.special (s : State) : State :=
  { s with
    gpr := Vector.replicate 30 0#32, pc := 0#32, mem := []
    cpsr := s.cpsr.withNzcv { n := false, z := false, c := false, v := false } }

/-- Every physical register is as before, but for those that the current mode of `s` sees as `w`. -/
def State.RegsKept (s t : State) (w : List Reg) : Prop :=
  ∀ i : Fin 30, (∀ r ∈ w, i ≠ physReg (bankOf s.cpsr.m) r) → t.gpr.get i = s.gpr.get i

/-- Every physical register is as before, but for those that User mode sees as `w`. -/
def State.UserRegsKept (s t : State) (w : List Reg) : Prop :=
  ∀ i : Fin 30, (∀ r ∈ w, i ≠ physReg .usr r) → t.gpr.get i = s.gpr.get i

/-- N, Z, C and V are as before. -/
def State.FlagsKept (s t : State) : Prop := t.cpsr.nzcv = s.cpsr.nzcv

/-- Every byte of memory reads as before; a byte without a value has none still. -/
def State.MemKept (s t : State) : Prop := ∀ a : Word, t.byte a = s.byte a

/-- Every byte of memory but the `n` bytes from `lo` (mod 2^32) reads as before. -/
def State.MemKeptOutside (s t : State) (lo : Word) (n : Nat) : Prop :=
  ∀ a : Word, n ≤ (a - lo).toNat → t.byte a = s.byte a

/-- The pc moves to the next instruction, and everything is as before but the registers `w` and the four flags. -/
def State.GoesOn (s t : State) (w : List Reg) : Prop :=
  t.pc = s.next ∧ s.RegsKept t w ∧ s.MemKept t ∧ t.special = s.special

/-- The pc moves to the next instruction, and everything is as before, the flags too, but the registers `w` and the `n`
bytes from `lo`. -/
def State.GoesOnStoring (s t : State) (w : List Reg) (lo : Word) (n : Nat) : Prop :=
  t.pc = s.next ∧ s.RegsKept t w ∧ s.MemKeptOutside t lo n ∧ s.FlagsKept t ∧ t.special = s.special

/-- The words at `a`, `a + 4`, ... are `vs`. -/
def State.WordsAt (s : State) (a : Word) (vs : List Word) : Prop :=
  ∀ j v, vs[j]? = some v → s.word (a + BitVec.ofNat 32 (4 * j)) = some v

/-- The registers of a list hold the words at `a`, `a + 4`, ... of `s`. -/
def State.LoadedFrom (s t : State) (a : Word) (list : List Reg) : Prop :=
  ∀ j r, list[j]? = some r → r ≠ 15#4 → s.word (a + BitVec.ofNat 32 (4 * j)) = some (t.reg r)

/-! ## When an instruction completes -/

/-- The instruction answers a next state, and that state has a property. -/
def Completes (i : Instr) (s : State) (p : State → Prop) : Prop := ∃ t, exec i s = .next t ∧ p t

/-- The instruction answers a next state in which one register holds `v` and the flags are `f`, all else as before. -/
def WritesReg (i : Instr) (s : State) (rd : Reg) (v : Word) (f : Nzcv) : Prop :=
  Completes i s fun t => t.reg rd = v ∧ t.cpsr.nzcv = f ∧ s.GoesOn t [rd]

/-- The instruction answers a next state in which the flags are `f`, all else as before. -/
def WritesFlags (i : Instr) (s : State) (f : Nzcv) : Prop :=
  Completes i s fun t => t.cpsr.nzcv = f ∧ s.GoesOn t []

/-- The instruction stops with a fault. -/
def Faults (i : Instr) (s : State) : Prop := ∃ f, exec i s = .fault f

/-- The instruction takes an exception, with none of its own effects. -/
def Takes (i : Instr) (s : State) (e : Exc) : Prop := exec i s = .next (s.takeException e)

/-- Execution can go on to the next instruction: the pc is not that of the last instruction of the address space
(R29). -/
abbrev State.CanGoOn (s : State) : Prop := s.pc ≠ 0#32 - s.size

/-- The memory system allows every word of a transfer of `n` words from `a` (R80). -/
abbrev State.BlockAllowed (s : State) (a : Word) (n : Nat) (k : Access) : Prop :=
  ∀ j < n, s.allowed (a + BitVec.ofNat 32 (4 * j)) 4 k s.privileged = true

/-- Every word of a transfer of `n` words from `a` has a value (R51, R860). -/
abbrev State.BlockWritten (s : State) (a : Word) (n : Nat) : Prop :=
  ∀ j < n, s.word (a + BitVec.ofNat 32 (4 * j)) ≠ none

/-- A transfer of `n` words from `a` does not pass the top of the address space (R78). -/
abbrev FitsBelowTop (a : Word) (n : Nat) : Prop := a.toNat + 4 * n ≤ 2 ^ 32

/-- Alignment checking does not refuse a word access that has a meaning at every address (R75). -/
abbrev State.WordAlignOk (s : State) (a : Word) : Prop := s.cfg.alignCheck = false ∨ a &&& 3#32 = 0#32

/-- Where a transfer of `n` words at `a` that could go ahead stops: misaligned under checking, past the top of the address
space (R78), with a word refused (R75, R80, R607), or at a read of a word that nothing has written (R51, R860); bits[1:0]
of `base` are the ones checked. Where several of these hold the first in this order is the one that counts, by the model's
choice (notes/assumptions/10). -/
def BlockStops (i : Instr) (s : State) (base a : Word) (n : Nat) (k : Access) : Prop :=
  (¬s.WordAlignOk base → Takes i s .dataAbort) ∧
  (s.WordAlignOk base → ¬FitsBelowTop a n → exec i s = .fault .transferWrap) ∧
  (s.WordAlignOk base → FitsBelowTop a n → ¬s.BlockAllowed a n k → Takes i s .dataAbort) ∧
  (k = .read → s.WordAlignOk base → FitsBelowTop a n → s.BlockAllowed a n k → ¬s.BlockWritten a n →
    exec i s = .fault .unwritten)

/-- User mode may write neither the byte at `a` nor the halfword or word that it lies in (R80). -/
abbrev State.UserProtected (s : State) (a : Word) : Prop :=
  s.allowed a 1 .write false = false ∧ s.allowed (a &&& 0xFFFFFFFE#32) 2 .write false = false ∧
    s.allowed (a &&& 0xFFFFFFFC#32) 4 .write false = false

/-! ## Flags by exact arithmetic (R34) -/

/-- Whether an integer is a signed 32-bit number. -/
def fits32 (x : Int) : Bool := decide (-2 ^ 31 ≤ x ∧ x < 2 ^ 31)

/-- A bit as a word. -/
def bitWord (b : Bool) : Word := if b then 1#32 else 0#32

/-- The flags of `a + b + c` (R34): C when the unsigned sum reaches 2^32, V when the signed sum does not fit. -/
def sumFlags (a b : Word) (c : Bool) : Nzcv :=
  let r := a + b + bitWord c
  { n := r.msb, z := decide (r = 0#32)
    c := decide (2 ^ 32 ≤ a.toNat + b.toNat + c.toNat)
    v := !fits32 (a.toInt + b.toInt + (c.toNat : Int)) }

/-- The flags of `a - b - borrow` (R34): C when there is no borrow, V when the signed difference does not fit. -/
def differenceFlags (a b : Word) (borrow : Bool) : Nzcv :=
  let r := a - b - bitWord borrow
  { n := r.msb, z := decide (r = 0#32)
    c := decide (b.toNat + borrow.toNat ≤ a.toNat)
    v := !fits32 (a.toInt - b.toInt - (borrow.toNat : Int)) }

/-- N and Z of a result, C and V given. -/
def resultFlags (r : Word) (c v : Bool) : Nzcv := { n := r.msb, z := decide (r = 0#32), c := c, v := v }

/-! ## The ARM data-processing instructions (41_arm_data_processing.md) -/

/-- The three forms of Operand2 (R262). -/
inductive Op2 where
  | imm (rot : BitVec 4) (imm8 : BitVec 8)
  | const (shiftImm : BitVec 5) (shift : ShiftType) (rm : Reg)
  | byReg (rs : Reg) (shift : ShiftType) (rm : Reg)
  deriving DecidableEq, Repr

/-- The value of Operand2 and the shifter's carry (R262). -/
def Op2.eval (o : Op2) (s : State) : Shifted :=
  match o with
  | .imm rot imm8 => s.op2Imm rot imm8
  | .const shiftImm shift rm => s.op2Const shiftImm shift rm
  | .byReg rs shift rm => s.op2Reg rs shift rm

/-- Whether no register is r15 where a register gives the shift amount (R262); `others` are Rd and Rn. -/
def Op2.pcFree (o : Op2) (others : List Reg) : Bool :=
  match o with
  | .imm _ _ => true
  | .const _ _ _ => true
  | .byReg rs _ rm => rs != 15#4 && rm != 15#4 && !others.contains 15#4

/-- The arithmetic operations (R274 to R279). -/
inductive ArithOp where
  | add | sub | rsb | adc | sbc | rsc
  deriving DecidableEq, Repr

/-- The instruction of an operation and a form of Operand2. -/
def ArithOp.instr (op : ArithOp) (o : Op2) (cond : Cond) (setFlags : Bool) (rn rd : Reg) : Instr :=
  match op, o with
  | .add, .imm rot imm8 => .addImm cond setFlags rn rd rot imm8
  | .add, .const n t rm => .addRegImm cond setFlags rn rd n t rm
  | .add, .byReg rs t rm => .addRegReg cond setFlags rn rd rs t rm
  | .sub, .imm rot imm8 => .subImm cond setFlags rn rd rot imm8
  | .sub, .const n t rm => .subRegImm cond setFlags rn rd n t rm
  | .sub, .byReg rs t rm => .subRegReg cond setFlags rn rd rs t rm
  | .rsb, .imm rot imm8 => .rsbImm cond setFlags rn rd rot imm8
  | .rsb, .const n t rm => .rsbRegImm cond setFlags rn rd n t rm
  | .rsb, .byReg rs t rm => .rsbRegReg cond setFlags rn rd rs t rm
  | .adc, .imm rot imm8 => .adcImm cond setFlags rn rd rot imm8
  | .adc, .const n t rm => .adcRegImm cond setFlags rn rd n t rm
  | .adc, .byReg rs t rm => .adcRegReg cond setFlags rn rd rs t rm
  | .sbc, .imm rot imm8 => .sbcImm cond setFlags rn rd rot imm8
  | .sbc, .const n t rm => .sbcRegImm cond setFlags rn rd n t rm
  | .sbc, .byReg rs t rm => .sbcRegReg cond setFlags rn rd rs t rm
  | .rsc, .imm rot imm8 => .rscImm cond setFlags rn rd rot imm8
  | .rsc, .const n t rm => .rscRegImm cond setFlags rn rd n t rm
  | .rsc, .byReg rs t rm => .rscRegReg cond setFlags rn rd rs t rm

/-- The result (R274 to R279) on Rn, Operand2 and C. -/
def ArithOp.value (op : ArithOp) (a b : Word) (c : Bool) : Word :=
  match op with
  | .add => a + b
  | .sub => a - b
  | .rsb => b - a
  | .adc => a + b + bitWord c
  | .sbc => a - b - bitWord (!c)
  | .rsc => b - a - bitWord (!c)

/-- The flags under S (R34, R274 to R279). -/
def ArithOp.flags (op : ArithOp) (a b : Word) (c : Bool) : Nzcv :=
  match op with
  | .add => sumFlags a b false
  | .sub => differenceFlags a b false
  | .rsb => differenceFlags b a false
  | .adc => sumFlags a b c
  | .sbc => differenceFlags a b (!c)
  | .rsc => differenceFlags b a (!c)

/-- The logical operations and moves (R280 to R285). -/
inductive LogicOp where
  | and_ | eor | orr | bic | mov | mvn
  deriving DecidableEq, Repr

/-- The instruction of an operation and a form of Operand2. -/
def LogicOp.instr (op : LogicOp) (o : Op2) (cond : Cond) (setFlags : Bool) (rn rd : Reg) : Instr :=
  match op, o with
  | .and_, .imm rot imm8 => .andImm cond setFlags rn rd rot imm8
  | .and_, .const n t rm => .andRegImm cond setFlags rn rd n t rm
  | .and_, .byReg rs t rm => .andRegReg cond setFlags rn rd rs t rm
  | .eor, .imm rot imm8 => .eorImm cond setFlags rn rd rot imm8
  | .eor, .const n t rm => .eorRegImm cond setFlags rn rd n t rm
  | .eor, .byReg rs t rm => .eorRegReg cond setFlags rn rd rs t rm
  | .orr, .imm rot imm8 => .orrImm cond setFlags rn rd rot imm8
  | .orr, .const n t rm => .orrRegImm cond setFlags rn rd n t rm
  | .orr, .byReg rs t rm => .orrRegReg cond setFlags rn rd rs t rm
  | .bic, .imm rot imm8 => .bicImm cond setFlags rn rd rot imm8
  | .bic, .const n t rm => .bicRegImm cond setFlags rn rd n t rm
  | .bic, .byReg rs t rm => .bicRegReg cond setFlags rn rd rs t rm
  | .mov, .imm rot imm8 => .movImm cond setFlags rd rot imm8
  | .mov, .const n t rm => .movRegImm cond setFlags rd n t rm
  | .mov, .byReg rs t rm => .movRegReg cond setFlags rd rs t rm
  | .mvn, .imm rot imm8 => .mvnImm cond setFlags rd rot imm8
  | .mvn, .const n t rm => .mvnRegImm cond setFlags rd n t rm
  | .mvn, .byReg rs t rm => .mvnRegReg cond setFlags rd rs t rm

/-- The registers besides those of Operand2 (R284, R285: the moves have no Rn). -/
def LogicOp.others (op : LogicOp) (rn rd : Reg) : List Reg :=
  match op with
  | .and_ => [rn, rd]
  | .eor => [rn, rd]
  | .orr => [rn, rd]
  | .bic => [rn, rd]
  | .mov => [rd]
  | .mvn => [rd]

/-- The result (R280 to R285) on Rn and Operand2. -/
def LogicOp.value (op : LogicOp) (a b : Word) : Word :=
  match op with
  | .and_ => a &&& b
  | .eor => a ^^^ b
  | .orr => a ||| b
  | .bic => a &&& ~~~b
  | .mov => b
  | .mvn => ~~~b

/-- The comparisons and tests (R286 to R289). -/
inductive CompareOp where
  | cmp | cmn | tst | teq
  deriving DecidableEq, Repr

/-- The instruction of an operation and a form of Operand2. -/
def CompareOp.instr (op : CompareOp) (o : Op2) (cond : Cond) (rn : Reg) : Instr :=
  match op, o with
  | .cmp, .imm rot imm8 => .cmpImm cond rn rot imm8
  | .cmp, .const n t rm => .cmpRegImm cond rn n t rm
  | .cmp, .byReg rs t rm => .cmpRegReg cond rn rs t rm
  | .cmn, .imm rot imm8 => .cmnImm cond rn rot imm8
  | .cmn, .const n t rm => .cmnRegImm cond rn n t rm
  | .cmn, .byReg rs t rm => .cmnRegReg cond rn rs t rm
  | .tst, .imm rot imm8 => .tstImm cond rn rot imm8
  | .tst, .const n t rm => .tstRegImm cond rn n t rm
  | .tst, .byReg rs t rm => .tstRegReg cond rn rs t rm
  | .teq, .imm rot imm8 => .teqImm cond rn rot imm8
  | .teq, .const n t rm => .teqRegImm cond rn n t rm
  | .teq, .byReg rs t rm => .teqRegReg cond rn rs t rm

/-- The flags (R286 to R289) on Rn, Operand2, the shifter's carry and the old V. -/
def CompareOp.flags (op : CompareOp) (a : Word) (b : Shifted) (v : Bool) : Nzcv :=
  match op with
  | .cmp => differenceFlags a b.value false
  | .cmn => sumFlags a b.value false
  | .tst => resultFlags (a &&& b.value) b.carry v
  | .teq => resultFlags (a ^^^ b.value) b.carry v

/-- What a write of r15 without S does (R272(a), R28(c)). -/
def State.pcWritten (s : State) (v : Word) : Host.Outcome State Fault Refusal :=
  if s.cfg.arch.version = .v3 then .next (s.setPc (v &&& 0xFFFFFFFC#32))
  else if v &&& 3#32 = 0#32 then .next (s.setPc v)
  else .fault .pcTarget

/-- What an exception return of a data-processing instruction does (R272(b), R272(c), R614). -/
def State.returnTo (s : State) (v : Word) : Host.Outcome State Fault Refusal :=
  if s.cpsr.m = modeUser ∨ s.cpsr.m = modeSystem then .fault .noSpsr
  else if modeLegal s.cfg.arch s.spsr.m = false then .fault .illegalMode
  else if s.spsr.t = true ∧ s.cfg.arch.thumb = false then .fault .noThumb
  else .next ((s.setCpsr s.spsr).setPc (v &&& (if s.spsr.t then 0xFFFFFFFE#32 else 0xFFFFFFFC#32)))

/-! ## The multiplies (42_arm_multiply_and_saturating.md) -/

/-- After a multiply that can draw flags (R300(e)): the pc moves on, and all is as before but the registers `w`, the flags
and, below version 5, the count of draws. -/
def State.GoesOnDrawing (s t : State) (w : List Reg) : Prop :=
  t.pc = s.next ∧ s.RegsKept t w ∧ s.MemKept t ∧ t.special = { s.special with draws := t.draws } ∧
    (s.cfg.arch.version = .v5 → t.draws = s.draws)

/-- The flags after a 32-bit multiply (R301): with S, N and Z of the result, V kept, C kept from version 5. -/
def State.MulFlags (s t : State) (setFlags : Bool) (n z : Bool) : Prop :=
  if setFlags then
    t.cpsr.n = n ∧ t.cpsr.z = z ∧ t.cpsr.v = s.cpsr.v ∧ (s.cfg.arch.version = .v5 → t.cpsr.c = s.cpsr.c)
  else s.FlagsKept t

/-- The flags after a long multiply (R303): with S, N and Z of the 64 bits, C and V kept from version 5. -/
def State.LongMulFlags (s t : State) (setFlags : Bool) (n z : Bool) : Prop :=
  if setFlags then
    t.cpsr.n = n ∧ t.cpsr.z = z ∧
      (s.cfg.arch.version = .v5 → t.cpsr.c = s.cpsr.c ∧ t.cpsr.v = s.cpsr.v)
  else s.FlagsKept t

/-- The four long multiplies (R303 to R306). -/
inductive LongOp where
  | umull | umlal | smull | smlal
  deriving DecidableEq, Repr

/-- The instruction. -/
def LongOp.instr (op : LongOp) (cond : Cond) (setFlags : Bool) (rdHi rdLo rs rm : Reg) : Instr :=
  match op with
  | .umull => .umull cond setFlags rdHi rdLo rs rm
  | .umlal => .umlal cond setFlags rdHi rdLo rs rm
  | .smull => .smull cond setFlags rdHi rdLo rs rm
  | .smlal => .smlal cond setFlags rdHi rdLo rs rm

/-- The exact result (R303 to R306), `acc` being the accumulating value. -/
def LongOp.value (op : LongOp) (acc : DWord) (m r : Word) : Int :=
  match op with
  | .umull => m.toNat * r.toNat
  | .umlal => acc.toNat + m.toNat * r.toNat
  | .smull => m.toInt * r.toInt
  | .smlal => acc.toInt + m.toInt * r.toInt

/-- The signed integer in the bottom or top half of a word (R307). -/
def halfInt (v : Word) (top : Bool) : Int :=
  if top then (v.extractLsb' 16 16).toInt else (v.extractLsb' 0 16).toInt

/-- The nearest signed 32-bit number (R315). -/
def clamp32 (x : Int) : Int := max (-2 ^ 31) (min x (2 ^ 31 - 1))

/-- One register holds `v`, the flags are kept, Q is set if `q` holds and kept otherwise, all else is as before. -/
def WritesRegQ (i : Instr) (s : State) (rd : Reg) (v : Word) (q : Bool) : Prop :=
  Completes i s fun t =>
    t.reg rd = v ∧ t.cpsr.q = (s.cpsr.q || q) ∧ s.FlagsKept t ∧ t.pc = s.next ∧ s.RegsKept t [rd] ∧ s.MemKept t ∧
      t.special = (s.setQIf q).special

/-- The accumulator holds `v`, all else is as before (R312). -/
def WritesAcc (i : Instr) (s : State) (v : BitVec 40) : Prop := exec i s = .next ((s.setAcc v).setPc s.next)

/-! ## Branches -/

/-- An interworking branch (R332, R28(b)). -/
def State.interworked (s : State) (v : Word) : Host.Outcome State Fault Refusal :=
  if v.getLsbD 0 = true then
    if s.cfg.arch.thumb = true then .next ((s.setThumb true).setPc (v &&& 0xFFFFFFFE#32)) else .fault .noThumb
  else if v.getLsbD 1 = true then .fault .pcTarget
  else .next ((s.setThumb false).setPc v)

/-! ## The ARM single transfers (40_arm_memory_access.md) -/

/-- The forms of the word and byte transfers (R230, R231, R238): `immT` and `regT` are those of the T suffix. -/
inductive WordForm where
  | imm (p u w : Bool) (rn : Reg) (imm12 : BitVec 12)
  | reg (p u w : Bool) (rn : Reg) (shiftImm : BitVec 5) (shift : ShiftType) (rm : Reg)
  | immT (u : Bool) (rn : Reg) (imm12 : BitVec 12)
  | regT (u : Bool) (rn : Reg) (shiftImm : BitVec 5) (shift : ShiftType) (rm : Reg)
  deriving DecidableEq, Repr

/-- LDR and LDRT (R234, R238). -/
def WordForm.ldr (f : WordForm) (cond : Cond) (rd : Reg) : Instr :=
  match f with
  | .imm p u w rn imm12 => .ldrImm cond p u w rn rd imm12
  | .reg p u w rn n t rm => .ldrReg cond p u w rn rd n t rm
  | .immT u rn imm12 => .ldrtImm cond u rn rd imm12
  | .regT u rn n t rm => .ldrtReg cond u rn rd n t rm

/-- STR and STRT (R235, R239). -/
def WordForm.str (f : WordForm) (cond : Cond) (rd : Reg) : Instr :=
  match f with
  | .imm p u w rn imm12 => .strImm cond p u w rn rd imm12
  | .reg p u w rn n t rm => .strReg cond p u w rn rd n t rm
  | .immT u rn imm12 => .strtImm cond u rn rd imm12
  | .regT u rn n t rm => .strtReg cond u rn rd n t rm

/-- LDRB and LDRBT (R236, R240). -/
def WordForm.ldrb (f : WordForm) (cond : Cond) (rd : Reg) : Instr :=
  match f with
  | .imm p u w rn imm12 => .ldrbImm cond p u w rn rd imm12
  | .reg p u w rn n t rm => .ldrbReg cond p u w rn rd n t rm
  | .immT u rn imm12 => .ldrbtImm cond u rn rd imm12
  | .regT u rn n t rm => .ldrbtReg cond u rn rd n t rm

/-- STRB and STRBT (R237, R241). -/
def WordForm.strb (f : WordForm) (cond : Cond) (rd : Reg) : Instr :=
  match f with
  | .imm p u w rn imm12 => .strbImm cond p u w rn rd imm12
  | .reg p u w rn n t rm => .strbReg cond p u w rn rd n t rm
  | .immT u rn imm12 => .strbtImm cond u rn rd imm12
  | .regT u rn n t rm => .strbtReg cond u rn rd n t rm

/-- The base register. -/
def WordForm.base (f : WordForm) : Reg :=
  match f with
  | .imm _ _ _ rn _ => rn
  | .reg _ _ _ rn _ _ _ => rn
  | .immT _ rn _ => rn
  | .regT _ rn _ _ _ => rn

/-- The address form (R230): the T forms are post-indexed. -/
def WordForm.address (f : WordForm) (s : State) : Address :=
  match f with
  | .imm p u w rn imm12 => s.addressForm p u w rn (imm12.zeroExtend 32)
  | .reg p u w rn n t rm => s.addressForm p u w rn (s.flexOffset n t rm)
  | .immT u rn imm12 => s.addressForm false u true rn (imm12.zeroExtend 32)
  | .regT u rn n t rm => s.addressForm false u true rn (s.flexOffset n t rm)

/-- Whether the base is written back (R230). -/
def WordForm.writeback (f : WordForm) : Bool :=
  match f with
  | .imm p _ w _ _ => !p || w
  | .reg p _ w _ _ _ _ => !p || w
  | .immT _ _ _ => true
  | .regT _ _ _ _ _ => true

/-- Whether the form has the T suffix. -/
def WordForm.user (f : WordForm) : Bool :=
  match f with
  | .imm _ _ _ _ _ => false
  | .reg _ _ _ _ _ _ _ => false
  | .immT _ _ _ => true
  | .regT _ _ _ _ _ => true

/-- The privilege that the memory system sees (R80, R238). -/
def WordForm.privileged (f : WordForm) (s : State) : Bool := !f.user && s.privileged

/-- The register restrictions (R230, R238): Rm is not r15; with writeback Rn is neither r15 nor Rd; with T, Rd is not
r15. -/
def WordForm.regsOk (f : WordForm) (rd : Reg) : Bool :=
  (match f with
    | .imm _ _ _ _ _ => true
    | .reg _ _ _ _ _ _ rm => rm != 15#4
    | .immT _ _ _ => true
    | .regT _ _ _ _ rm => rm != 15#4) &&
  !(f.writeback && (f.base == 15#4 || f.base == rd)) && !(f.user && rd == 15#4)

/-- The registers that a load writes. -/
def WordForm.written (f : WordForm) (rd : Reg) : List Reg := if f.writeback then [f.base, rd] else [rd]

/-- The base, if it is written back. -/
def WordForm.writtenBase (f : WordForm) : List Reg := if f.writeback then [f.base] else []

/-- The forms of the halfword, signed-byte and double word transfers (R242). -/
inductive HalfForm where
  | imm (p u w : Bool) (rn : Reg) (immH immL : BitVec 4)
  | reg (p u w : Bool) (rn : Reg) (rm : Reg)
  deriving DecidableEq, Repr

/-- LDRH (R243). -/
def HalfForm.ldrh (f : HalfForm) (cond : Cond) (rd : Reg) : Instr :=
  match f with
  | .imm p u w rn immH immL => .ldrhImm cond p u w rn rd immH immL
  | .reg p u w rn rm => .ldrhReg cond p u w rn rd rm

/-- STRH (R244). -/
def HalfForm.strh (f : HalfForm) (cond : Cond) (rd : Reg) : Instr :=
  match f with
  | .imm p u w rn immH immL => .strhImm cond p u w rn rd immH immL
  | .reg p u w rn rm => .strhReg cond p u w rn rd rm

/-- LDRSH (R245). -/
def HalfForm.ldrsh (f : HalfForm) (cond : Cond) (rd : Reg) : Instr :=
  match f with
  | .imm p u w rn immH immL => .ldrshImm cond p u w rn rd immH immL
  | .reg p u w rn rm => .ldrshReg cond p u w rn rd rm

/-- LDRSB (R246). -/
def HalfForm.ldrsb (f : HalfForm) (cond : Cond) (rd : Reg) : Instr :=
  match f with
  | .imm p u w rn immH immL => .ldrsbImm cond p u w rn rd immH immL
  | .reg p u w rn rm => .ldrsbReg cond p u w rn rd rm

/-- LDRD (R247). -/
def HalfForm.ldrd (f : HalfForm) (cond : Cond) (rd : Reg) : Instr :=
  match f with
  | .imm p u w rn immH immL => .ldrdImm cond p u w rn rd immH immL
  | .reg p u w rn rm => .ldrdReg cond p u w rn rd rm

/-- STRD (R248). -/
def HalfForm.strd (f : HalfForm) (cond : Cond) (rd : Reg) : Instr :=
  match f with
  | .imm p u w rn immH immL => .strdImm cond p u w rn rd immH immL
  | .reg p u w rn rm => .strdReg cond p u w rn rd rm

/-- The base register. -/
def HalfForm.base (f : HalfForm) : Reg :=
  match f with
  | .imm _ _ _ rn _ _ => rn
  | .reg _ _ _ rn _ => rn

/-- The address form (R230, R242). -/
def HalfForm.address (f : HalfForm) (s : State) : Address :=
  match f with
  | .imm p u w rn immH immL => s.addressForm p u w rn (splitOffset immH immL)
  | .reg p u w rn rm => s.addressForm p u w rn (s.reg rm)

/-- Whether the base is written back (R230). -/
def HalfForm.writeback (f : HalfForm) : Bool :=
  match f with
  | .imm p _ w _ _ _ => !p || w
  | .reg p _ w _ _ => !p || w

/-- Not the encoding with P = 0 and W = 1 (R109), and Rm not r15 (R242). -/
def HalfForm.formOk (f : HalfForm) : Bool :=
  match f with
  | .imm p _ w _ _ _ => p || !w
  | .reg p _ w _ rm => (p || !w) && rm != 15#4

/-- The register restrictions of the halfword and signed-byte transfers (R242). -/
def HalfForm.regsOk (f : HalfForm) (rd : Reg) : Bool :=
  f.formOk && rd != 15#4 && !(f.writeback && (f.base == 15#4 || f.base == rd))

/-- The register restrictions of LDRD and STRD (R247, R248): Rd even and not r14; with writeback Rn is neither r15 nor
one of the pair. -/
def HalfForm.pairOk (f : HalfForm) (rd : Reg) : Bool :=
  f.formOk && !rd.getLsbD 0 && rd != 14#4 &&
    !(f.writeback && (f.base == 15#4 || f.base == rd || f.base == rd + 1#4))

/-- For LDRD, Rm is not one of the pair (R247). -/
def HalfForm.offsetFree (f : HalfForm) (rd : Reg) : Bool :=
  match f with
  | .imm _ _ _ _ _ _ => true
  | .reg _ _ _ _ rm => rm != rd && rm != rd + 1#4

/-- The base, if it is written back. -/
def HalfForm.writtenBase (f : HalfForm) : List Reg := if f.writeback then [f.base] else []

/-- What a load of r15 gives (R232): the state bit and the pc, or nothing where the value is forbidden. -/
def State.loadTarget (s : State) (v : Word) : Option (Bool × Word) :=
  match s.cfg.arch.version, s.cfg.arch.thumb with
  | .v3, _ => some (s.cpsr.t, v &&& 0xFFFFFFFC#32)
  | .v4, _ => if v &&& 3#32 = 0#32 then some (s.cpsr.t, v) else none
  | .v5, false => if v &&& 3#32 = 0#32 then some (s.cpsr.t, v) else none
  | .v5, true => if v &&& 3#32 = 2#32 then none else some (v.getLsbD 0, v &&& 0xFFFFFFFE#32)

/-! ## The VFP arithmetic instructions (49_vfp.md) -/

/-- The operations on Fd, Fn and Fm (R513 to R517, R519 to R523). -/
inductive VfpOp where
  | add | sub | mul | nmul | div | mac | nmac | msc | nmsc
  deriving DecidableEq, Repr

/-- The single-precision instruction. -/
def VfpOp.single (op : VfpOp) (cond : Cond) (fn fd fm : SReg) : Instr :=
  match op with
  | .add => .fadds cond fn fd fm
  | .sub => .fsubs cond fn fd fm
  | .mul => .fmuls cond fn fd fm
  | .nmul => .fnmuls cond fn fd fm
  | .div => .fdivs cond fn fd fm
  | .mac => .fmacs cond fn fd fm
  | .nmac => .fnmacs cond fn fd fm
  | .msc => .fmscs cond fn fd fm
  | .nmsc => .fnmscs cond fn fd fm

/-- The double-precision instruction. -/
def VfpOp.double (op : VfpOp) (cond : Cond) (fn fd fm : DReg) : Instr :=
  match op with
  | .add => .faddd cond fn fd fm
  | .sub => .fsubd cond fn fd fm
  | .mul => .fmuld cond fn fd fm
  | .nmul => .fnmuld cond fn fd fm
  | .div => .fdivd cond fn fd fm
  | .mac => .fmacd cond fn fd fm
  | .nmac => .fnmacd cond fn fd fm
  | .msc => .fmscd cond fn fd fm
  | .nmsc => .fnmscd cond fn fd fm

/-- What the operation does to the old Fd, Fn and Fm (R513 to R523). -/
def VfpOp.result (op : VfpOp) (f : FpFormat) (m : FpMode) (d a b : Nat) : FpResult :=
  match op with
  | .add => f.add m a b
  | .sub => f.sub m a b
  | .mul => f.mul m a b
  | .nmul => f.nmul m a b
  | .div => f.div m a b
  | .mac => f.mulAdd m false false d a b
  | .nmac => f.mulAdd m false true d a b
  | .msc => f.mulAdd m true false d a b
  | .nmsc => f.mulAdd m true true d a b

/-- Everything is as before but the VFP registers, FPSCR and the pc, which moves to the next instruction. -/
def State.VfpOnly (s t : State) : Prop := t = { s with vfp := t.vfp, fpscr := t.fpscr, pc := s.next }

/-- A single-precision register holds `v`, FPSCR has the exceptions `e` added, all else is as before. -/
def WritesSingle (i : Instr) (s : State) (d : Nat) (v : Word) (e : FpExc) : Prop :=
  Completes i s fun t =>
    t.sreg d = v ∧ t.fpscr = s.fpscr ||| e.zeroExtend 32 ∧ (∀ j < 32, j ≠ d → t.sreg j = s.sreg j) ∧ s.VfpOnly t

/-- A double-precision register holds `v`, FPSCR has the exceptions `e` added, all else is as before. -/
def WritesDouble (i : Instr) (s : State) (d : Nat) (v : DWord) (e : FpExc) : Prop :=
  Completes i s fun t =>
    t.dreg d = v ∧ t.fpscr = s.fpscr ||| e.zeroExtend 32 ∧ (∀ j < 16, j ≠ d → t.dreg j = s.dreg j) ∧ s.VfpOnly t

/-- A scalar operation on `fd` (R503): vectors have length 1, or `fd` is in the first bank. -/
abbrev State.scalar (s : State) (p : Precision) (fd : Nat) : Prop := s.vecLen = 1 ∨ p.firstBank fd = true

/-! ## The status register instructions (45_arm_misc_and_pseudo.md) -/

/-- A PSR after MSR (R362): the flags byte and the control byte of `v` where `flags` and `control` select them. Q exists
only in E variants and T only in T variants. -/
def Psr.written (p : Psr) (a : Arch) (flags control : Bool) (v : Word) : Psr :=
  { n := if flags then v.getLsbD 31 else p.n
    z := if flags then v.getLsbD 30 else p.z
    c := if flags then v.getLsbD 29 else p.c
    v := if flags then v.getLsbD 28 else p.v
    q := (if flags then v.getLsbD 27 else p.q) && a.enhanced
    i := if control then v.getLsbD 7 else p.i
    f := if control then v.getLsbD 6 else p.f
    t := (if control then v.getLsbD 5 else p.t) && a.thumb
    m := if control then v.extractLsb' 0 5 else p.m }

/-- What MSR does with a value (R362): `r` selects the SPSR. Bit 5 is tested only where it is T (R31, R38). -/
def State.MsrDoes (i : Instr) (s : State) (r : Bool) (fields : BitVec 4) (v : Word) : Prop :=
  let a := s.cfg.arch
  let f := fields.getLsbD 3
  let c := fields.getLsbD 0 && s.privileged
  if r = true then
    (s.hasSpsr = false → Faults i s) ∧
    (s.hasSpsr = true → s.CanGoOn →
      exec i s = .next ((s.setSpsr (s.spsr.written a f (fields.getLsbD 0) v)).setPc s.next))
  else
    (c = true → ((a.thumb = true ∧ v.getLsbD 5 ≠ s.cpsr.t) ∨ modeLegal a (v.extractLsb' 0 5) = false) → Faults i s) ∧
    ((c = true → (a.thumb = true → v.getLsbD 5 = s.cpsr.t) ∧ modeLegal a (v.extractLsb' 0 5) = true) → s.CanGoOn →
      exec i s = .next ((s.setCpsr (s.cpsr.written a f c v)).setPc s.next))

/-! ## Coprocessor loads and stores (44_arm_coprocessor.md) -/

/-- What LDC and LDC2 do (R349, R351) with a present coprocessor that accepts. -/
def CoprocLoads (i : Instr) (s : State) (two long : Bool) (cp crd : BitVec 4) (rn : Reg) (a : Address) : Prop :=
  let n := s.answer.count
  let written := if a.writeback then [rn] else []
  (a.writeback = true → rn = 15#4 → Faults i s) ∧
  ((a.writeback = true → rn ≠ 15#4) →
    (a.addr &&& 3#32 ≠ 0#32 → s.cfg.alignCheck = true → Takes i s .dataAbort) ∧
    (a.addr &&& 3#32 ≠ 0#32 → s.cfg.alignCheck = false → Faults i s) ∧
    (a.addr &&& 3#32 = 0#32 → ¬FitsBelowTop a.addr n → Faults i s) ∧
    (a.addr &&& 3#32 = 0#32 → FitsBelowTop a.addr n → ¬s.BlockAllowed a.addr n .read → Takes i s .dataAbort) ∧
    (a.addr &&& 3#32 = 0#32 → FitsBelowTop a.addr n → s.BlockAllowed a.addr n .read → ¬s.BlockWritten a.addr n →
      exec i s = .fault .unwritten) ∧
    (a.addr &&& 3#32 = 0#32 → FitsBelowTop a.addr n → s.BlockAllowed a.addr n .read → s.BlockWritten a.addr n →
      s.CanGoOn → Completes i s fun t =>
        (∃ words, words.length = n ∧ s.WordsAt a.addr words ∧
          t.coproc = s.coprocEvent cp (.load two long crd words) :: s.coproc) ∧
        (a.writeback = true → t.reg rn = a.target) ∧ t.pc = s.next ∧ s.RegsKept t written ∧ s.MemKept t ∧
        s.FlagsKept t ∧ t.special = { s.special with coproc := t.coproc }))

/-- What STC and STC2 do (R350, R352) with a present coprocessor that accepts. -/
def CoprocStores (i : Instr) (s : State) (two long : Bool) (cp crd : BitVec 4) (rn : Reg) (a : Address) : Prop :=
  let words := s.answer.words
  let n := words.length
  let written := if a.writeback then [rn] else []
  (a.writeback = true → rn = 15#4 → Faults i s) ∧
  ((a.writeback = true → rn ≠ 15#4) →
    (a.addr &&& 3#32 ≠ 0#32 → s.cfg.alignCheck = true → Takes i s .dataAbort) ∧
    (a.addr &&& 3#32 ≠ 0#32 → s.cfg.alignCheck = false → Faults i s) ∧
    (a.addr &&& 3#32 = 0#32 → ¬FitsBelowTop a.addr n → Faults i s) ∧
    (a.addr &&& 3#32 = 0#32 → FitsBelowTop a.addr n → ¬s.BlockAllowed a.addr n .write → Takes i s .dataAbort) ∧
    (a.addr &&& 3#32 = 0#32 → FitsBelowTop a.addr n → s.BlockAllowed a.addr n .write → s.CanGoOn →
      Completes i s fun t =>
        t.WordsAt a.addr words ∧ t.coproc = s.coprocEvent cp (.store two long crd words) :: s.coproc ∧
        (a.writeback = true → t.reg rn = a.target) ∧ t.pc = s.next ∧ s.RegsKept t written ∧
        s.MemKeptOutside t a.addr (4 * n) ∧ s.FlagsKept t ∧ t.special = { s.special with coproc := t.coproc }))

/-! ## The Thumb single transfers (46_thumb_memory_access.md) -/

/-- What a Thumb load of `n` bytes at `a`, aligned by `mask`, does (R380 to R397): the value read goes to Rd;
where memory has none, the fault of R51. -/
def ThumbLoads (i : Instr) (s : State) (rd : LowReg) (a mask : Word) (n : Nat) (value : Option Word) : Prop :=
  (∀ v, a &&& mask = 0#32 → s.allowed a n .read s.privileged = true → value = some v → s.CanGoOn →
    WritesReg i s (lowReg rd) v s.cpsr.nzcv) ∧
  (a &&& mask = 0#32 → s.allowed a n .read s.privileged = true → value = none → exec i s = .fault .unwritten) ∧
  (a &&& mask = 0#32 → s.allowed a n .read s.privileged = false → Takes i s .dataAbort) ∧
  (a &&& mask ≠ 0#32 → s.cfg.alignCheck = true → Takes i s .dataAbort) ∧
  (a &&& mask ≠ 0#32 → s.cfg.alignCheck = false → exec i s = .fault .misaligned)

/-- What a Thumb store of `n` bytes at `a`, aligned by `mask`, does (R380 to R397); `holds` says what is then in
memory. -/
def ThumbStores (i : Instr) (s : State) (a mask : Word) (n : Nat) (holds : State → Prop) : Prop :=
  (a &&& mask = 0#32 → s.allowed a n .write s.privileged = true → s.CanGoOn →
    Completes i s fun t => holds t ∧ s.GoesOnStoring t [] a n) ∧
  (a &&& mask = 0#32 → s.allowed a n .write s.privileged = false → Takes i s .dataAbort) ∧
  (a &&& mask ≠ 0#32 → s.cfg.alignCheck = true → Takes i s .dataAbort) ∧
  (a &&& mask ≠ 0#32 → s.cfg.alignCheck = false → exec i s = .fault .misaligned)

/-- Nothing stands in the way of a multiple transfer of `n` words at `a`, bits[1:0] of `base` aside (R75, R78, R80), and
what it reads has been written (R51). -/
abbrev State.BlockOk (s : State) (base a : Word) (n : Nat) (k : Access) : Prop :=
  s.WordAlignOk base ∧ FitsBelowTop a n ∧ s.BlockAllowed a n k ∧ (k = .read → s.BlockWritten a n)

/-! ## VFP values as rational numbers (49_vfp.md) -/

/-- The rational number that a finite value stands for (R501). -/
def finValue (negative : Bool) (mant : Nat) (exp : Int) : ℚ := (if negative then -1 else 1) * mant * (2 : ℚ) ^ exp

/-- Whether `v` is `x` rounded to an integer in a mode (R504, D31): the nearest, ties to even; or the next towards plus
infinity, minus infinity or zero. -/
def RoundedTo {K : Type} [Field K] [LinearOrder K] (r : Rounding) (x : K) (v : Int) : Prop :=
  match r with
  | .nearest => |(v : K) - x| ≤ 1 / 2 ∧ (|(v : K) - x| = 1 / 2 → v % 2 = 0)
  | .plusInfinity => x ≤ v ∧ (v : K) < x + 1
  | .minusInfinity => (v : K) ≤ x ∧ x < v + 1
  | .zero => |(v : K)| ≤ |x| ∧ |x| < |(v : K)| + 1 ∧ 0 ≤ (v : K) * x

/-- The number of bits of a pattern. -/
def FpFormat.width (f : FpFormat) : Nat := 1 + f.expBits + f.fracBits

/-- The largest finite number of a format (R501). -/
def FpFormat.largest (f : FpFormat) : ℚ :=
  (2 ^ (f.fracBits + 1) - 1) * 2 ^ ((2 : ℤ) ^ (f.expBits - 1) - 1 - f.fracBits)

/-- The pattern of an overflow (R504): by rounding mode and sign an infinity, or the pattern below it, the largest finite
number. -/
def FpFormat.OverflowsTo (f : FpFormat) (r : Rounding) (negative : Bool) (bits : Nat) : Prop :=
  match r, negative with
  | .nearest, _ => bits = f.infBits + f.signBits negative
  | .plusInfinity, false => bits = f.infBits
  | .plusInfinity, true => bits = f.infBits - 1 + f.signBits true
  | .minusInfinity, false => bits = f.infBits - 1
  | .minusInfinity, true => bits = f.infBits + f.signBits true
  | .zero, _ => bits = f.infBits - 1 + f.signBits negative

/-- Whether a result is the real number `x`, which is not 0, rounded to a format (R504, D31), with the exceptions of R504:
`e` is the exponent of `x` and `2^q` the last place of the format there. In flush-to-zero mode a tiny `x` gives +0, inexact
(R505). -/
def FpFormat.Delivers (f : FpFormat) (m : FpMode) (x : ℝ) (r : FpResult) : Prop :=
  let tiny : Prop := |x| < (2 : ℝ) ^ f.expMin
  (m.flush = true → tiny → r = { bits := 0, exc := excIXC }) ∧
  (¬(m.flush = true ∧ tiny) → ∃ (negative : Bool) (e v : ℤ),
    (negative = true ↔ x < 0) ∧ (2 : ℝ) ^ e ≤ |x| ∧ |x| < (2 : ℝ) ^ (e + 1) ∧
    let q := max e f.expMin - f.fracBits
    let y : ℝ := v * (2 : ℝ) ^ q
    RoundedTo m.rounding (x / (2 : ℝ) ^ q) v ∧
      (f.largest < |y| → f.OverflowsTo m.rounding negative r.bits ∧ r.exc = excOFC ||| excIXC) ∧
      (|y| ≤ f.largest →
        (∃ mant exp, f.unpack r.bits = .fin negative mant exp ∧ finValue negative mant exp = y) ∧
        r.bits < 2 ^ f.width ∧ (y = x → r.exc = 0#5) ∧ (y ≠ x → tiny → r.exc = excUFC ||| excIXC) ∧
        (y ≠ x → ¬tiny → r.exc = excIXC)))

/-- The result of an operation whose exact value is `x` (R504, R505): `x` rounded, or a zero of the sign given; `e` are the
exceptions that reading the operands raised. -/
def FpFormat.Yields (f : FpFormat) (m : FpMode) (x : ℝ) (zeroSign : Bool) (e : FpExc) (r : FpResult) : Prop :=
  (x = 0 → r = { bits := f.signBits zeroSign, exc := e }) ∧
  (x ≠ 0 → ∃ r0, f.Delivers m x r0 ∧ r = { bits := r0.bits, exc := r0.exc ||| e })

/-- A pattern that is read as the finite number `x` with a sign (R501, R505: a denormalized number as +0 in flush-to-zero
mode). -/
def FpFormat.ReadsAs (f : FpFormat) (m : FpMode) (bits : Nat) (negative : Bool) (x : ℝ) : Prop :=
  ∃ mant exp, f.unpack (f.operand m bits) = .fin negative mant exp ∧ x = finValue negative mant exp

/-- A pattern with its sign bit flipped. -/
def FpFormat.otherSign (f : FpFormat) (bits : Nat) : Nat := (bits + 2 ^ (f.expBits + f.fracBits)) % 2 ^ f.width

/-- What the fields of a pattern say (R501, R504): `s`, `e` and `frac` are its sign, exponent and fraction, `bias` the
exponent bias; a NaN is signalling when its top fraction bit is 0. -/
def FpFormat.PatternMeans (f : FpFormat) (bits : Nat) (s : Bool) (e frac bias : Nat) : Prop :=
  (e = 2 ^ f.expBits - 1 → frac = 0 → f.unpack bits = .inf s) ∧
  (e = 2 ^ f.expBits - 1 → frac ≠ 0 → f.unpack bits = .nan s frac) ∧
  (e < 2 ^ f.expBits - 1 → ∃ mant exp, f.unpack bits = .fin s mant exp ∧
    finValue s mant exp = (if s then -1 else 1) *
      (if e = 0 then frac * (2 : ℚ) ^ (1 - (bias : ℤ) - f.fracBits)
        else (2 ^ f.fracBits + frac) * (2 : ℚ) ^ ((e : ℤ) - bias - f.fracBits))) ∧
  (f.isNan bits = true ↔ e = 2 ^ f.expBits - 1 ∧ frac ≠ 0) ∧
  (f.signalling bits = true ↔ f.isNan bits = true ∧ frac < 2 ^ (f.fracBits - 1)) ∧
  (∀ m : FpMode,
    (m.flush = true ∧ e = 0 ∧ frac ≠ 0 → f.operand m bits = 0 ∧ f.operandExc m bits = excIXC) ∧
    (¬(m.flush = true ∧ e = 0 ∧ frac ≠ 0) → f.operand m bits = bits ∧ f.operandExc m bits = 0#5))

/-- The result where an operand is a NaN (R504): the first signalling NaN with its top fraction bit set, and Invalid
Operation; else the first quiet NaN. `e` are the exceptions that reading the operands raised. -/
def FpFormat.NanRule (f : FpFormat) (a b : Nat) (e : FpExc) (r : FpResult) : Prop :=
  (f.signalling a = true → r = { bits := a ||| 2 ^ (f.fracBits - 1), exc := excIOC ||| e }) ∧
  (f.signalling a = false → f.signalling b = true →
    r = { bits := b ||| 2 ^ (f.fracBits - 1), exc := excIOC ||| e }) ∧
  (f.signalling a = false → f.signalling b = false → f.isNan a = true → r = { bits := a, exc := e }) ∧
  (f.signalling a = false → f.signalling b = false → f.isNan a = false → f.isNan b = true →
    r = { bits := b, exc := e })

/-- The condition flags of a comparison (R506) as FPSCR[31:28]: less, equal, greater, unordered. -/
inductive FpOrder where
  | less | equal | greater | unordered
  deriving DecidableEq, Repr

/-- N, Z, C and V of a comparison (R506). -/
def FpOrder.flags : FpOrder → Nzcv
  | .less => { n := true, z := false, c := false, v := false }
  | .equal => { n := false, z := true, c := true, v := false }
  | .greater => { n := false, z := false, c := true, v := false }
  | .unordered => { n := false, z := false, c := true, v := true }

/-- How two values compare (R506): an infinity is beyond every finite value, zeros are equal whatever their signs, and a
NaN is unordered. -/
def Fp.order : Fp → Fp → FpOrder
  | .nan _ _, _ => .unordered
  | .inf _, .nan _ _ => .unordered
  | .fin _ _ _, .nan _ _ => .unordered
  | .inf true, .inf true => .equal
  | .inf false, .inf false => .equal
  | .inf true, .inf false => .less
  | .inf false, .inf true => .greater
  | .inf true, .fin _ _ _ => .less
  | .inf false, .fin _ _ _ => .greater
  | .fin _ _ _, .inf true => .greater
  | .fin _ _ _, .inf false => .less
  | .fin x ma ea, .fin y mb eb =>
    if finValue x ma ea < finValue y mb eb then .less
    else if finValue x ma ea = finValue y mb eb then .equal
    else .greater

/-- What a comparison does (R524, R525, R504): it is refused when it raises an exception whose trap is enabled; else the
flags of the order go to FPSCR[31:28] and the exceptions are added. -/
def ComparesTo (i : Instr) (s : State) (f : FpFormat) (quietToo : Bool) (a b : Nat) : Prop :=
  let m := s.fpMode
  let invalid := f.signalling a || f.signalling b || (quietToo && (f.isNan a || f.isNan b))
  let exc : FpExc := (if invalid then excIOC else 0#5) ||| f.operandExc m a ||| f.operandExc m b
  let order := (f.unpack (f.operand m a)).order (f.unpack (f.operand m b))
  (s.trapEnables &&& exc ≠ 0#5 → exec i s = .refused .vfpTrapEnabled) ∧
  (s.trapEnables &&& exc = 0#5 → s.CanGoOn → Completes i s fun t =>
    t.fpFlags = order.flags ∧ t.fpscr &&& 0x0FFFFFFF#32 = (s.fpscr &&& 0x0FFFFFFF#32) ||| exc.zeroExtend 32 ∧
      t = { s with fpscr := t.fpscr, pc := s.next })

/-- What a conversion does (R526 to R531): it is refused when it raises an exception whose trap is enabled; else a
single-precision register takes the result. -/
def ConvertsToSingle (i : Instr) (s : State) (d : Nat) (v : Word) (e : FpExc) : Prop :=
  (s.trapEnables &&& e ≠ 0#5 → exec i s = .refused .vfpTrapEnabled) ∧
  (s.trapEnables &&& e = 0#5 → s.CanGoOn → WritesSingle i s d v e)

/-- What a conversion to double precision does (R526, R528, R529). -/
def ConvertsToDouble (i : Instr) (s : State) (d : Nat) (v : DWord) (e : FpExc) : Prop :=
  (s.trapEnables &&& e ≠ 0#5 → exec i s = .refused .vfpTrapEnabled) ∧
  (s.trapEnables &&& e = 0#5 → s.CanGoOn → WritesDouble i s d v e)

/-- The operations on one operand (R510 to R512, R518). -/
inductive VfpUnary where
  | cpy | abs | neg | sqrt
  deriving DecidableEq, Repr

/-- The single-precision instruction. -/
def VfpUnary.single (op : VfpUnary) (cond : Cond) (fd fm : SReg) : Instr :=
  match op with
  | .cpy => .fcpys cond fd fm
  | .abs => .fabss cond fd fm
  | .neg => .fnegs cond fd fm
  | .sqrt => .fsqrts cond fd fm

/-- The double-precision instruction. -/
def VfpUnary.double (op : VfpUnary) (cond : Cond) (fd fm : DReg) : Instr :=
  match op with
  | .cpy => .fcpyd cond fd fm
  | .abs => .fabsd cond fd fm
  | .neg => .fnegd cond fd fm
  | .sqrt => .fsqrtd cond fd fm

/-- What the operation does to Fm (R510 to R512, R518): only the square root is arithmetic. -/
def VfpUnary.result (op : VfpUnary) (f : FpFormat) (m : FpMode) (a : Nat) : FpResult :=
  match op with
  | .cpy => { bits := a, exc := 0#5 }
  | .abs => { bits := a % 2 ^ (f.expBits + f.fracBits), exc := 0#5 }
  | .neg => { bits := (a + 2 ^ (f.expBits + f.fracBits)) % 2 ^ (f.expBits + f.fracBits + 1), exc := 0#5 }
  | .sqrt => f.sqrt m a

/-- Whether the operation is refused while a trap is enabled (R504): the bit operations are not arithmetic. -/
def VfpUnary.arithmetic : VfpUnary → Bool
  | .cpy => false
  | .abs => false
  | .neg => false
  | .sqrt => true

/-- The vectors of an operation that is not scalar (R502, R503): the length is more than 1, `fd` is not in the first
bank, the stride is `st`, no vector uses a register twice. -/
def State.VectorsOk (s : State) (p : Precision) (fd st : Nat) : Prop :=
  1 < s.vecLen ∧ p.firstBank fd = false ∧ s.vecStride = some st ∧ s.vecLen * st ≤ p.bankSize

/-- Register `k` of the vector that starts at `x` (R502), or `x` itself where the operand is a scalar (R503). -/
def Precision.operandAt (p : Precision) (scalarOperand : Bool) (x st k : Nat) : Nat :=
  if scalarOperand then x else p.vecAt x st k

/-- The vector from `x` shares no register with the one from `fd`, or is the same (R503). -/
def Precision.noClash (p : Precision) (scalarOperand : Bool) (fd x st len : Nat) : Prop :=
  (∀ j < len, ∀ k < len, p.operandAt scalarOperand x st j ≠ p.vecAt fd st k) ∨
    ∀ k < len, p.operandAt scalarOperand x st k = p.vecAt fd st k

/-- The number of bits of a register of a precision. -/
def Precision.width : Precision → Nat
  | .single => 32
  | .double => 64

/-- What an operation on Fd, Fn and Fm does when it is not scalar (R502, R503): element by element, Fm a scalar where it
is in the first bank; an illegal length, stride or overlap faults. `result` takes the old Fd, Fn and Fm of an element. -/
def VectorDoes (p : Precision) (i : Instr) (s : State) (fd fn fm : Nat) (result : Nat → Nat → Nat → FpResult) : Prop :=
  let len := s.vecLen
  let scalarM := p.firstBank fm
  (1 < len → p.firstBank fd = false → (s.vecStride = none ∨ ∃ st, s.vecStride = some st ∧ p.bankSize < len * st) →
    Faults i s) ∧
  (∀ st, s.VectorsOk p fd st →
    (¬(p.noClash false fd fn st len ∧ p.noClash scalarM fd fm st len) → Faults i s) ∧
    (p.noClash false fd fn st len → p.noClash scalarM fd fm st len → s.CanGoOn →
      let r (k : Nat) : FpResult :=
        result (s.freg p (p.vecAt fd st k)) (s.freg p (p.vecAt fn st k)) (s.freg p (p.operandAt scalarM fm st k))
      Completes i s fun t =>
        (∀ k < len, t.freg p (p.vecAt fd st k) = (r k).bits % 2 ^ p.width) ∧
        (∀ j < 4 * p.bankSize, (∀ k < len, j ≠ p.vecAt fd st k) → t.freg p j = s.freg p j) ∧
        (∀ b < 32, t.fpscr.getLsbD b = true ↔ s.fpscr.getLsbD b = true ∨ ∃ k < len, (r k).exc.getLsbD b = true) ∧
        s.VfpOnly t))

/-! ## The VFP multiple transfers (49_vfp.md R534, R535, R560) -/

/-- The forms of FLDM and FSTM: increment after, with or without writeback, and decrement before, always with it. -/
inductive VfpBlock where
  | ia (w : Bool)
  | db
  deriving DecidableEq, Repr

/-- FLDM of single registers. -/
def VfpBlock.fldms (f : VfpBlock) (cond : Cond) (rn : Reg) (fd : SReg) (count : BitVec 8) : Instr :=
  match f with
  | .ia w => .fldmias cond w rn fd count
  | .db => .fldmdbs cond rn fd count

/-- FLDM of double registers. -/
def VfpBlock.fldmd (f : VfpBlock) (cond : Cond) (rn : Reg) (fd : DReg) (count : BitVec 7) : Instr :=
  match f with
  | .ia w => .fldmiad cond w rn fd count
  | .db => .fldmdbd cond rn fd count

/-- FLDM of registers of unknown precision. -/
def VfpBlock.fldmx (f : VfpBlock) (cond : Cond) (rn : Reg) (fd : DReg) (count : BitVec 7) : Instr :=
  match f with
  | .ia w => .fldmiax cond w rn fd count
  | .db => .fldmdbx cond rn fd count

/-- FSTM of single registers. -/
def VfpBlock.fstms (f : VfpBlock) (cond : Cond) (rn : Reg) (fd : SReg) (count : BitVec 8) : Instr :=
  match f with
  | .ia w => .fstmias cond w rn fd count
  | .db => .fstmdbs cond rn fd count

/-- FSTM of double registers. -/
def VfpBlock.fstmd (f : VfpBlock) (cond : Cond) (rn : Reg) (fd : DReg) (count : BitVec 7) : Instr :=
  match f with
  | .ia w => .fstmiad cond w rn fd count
  | .db => .fstmdbd cond rn fd count

/-- FSTM of registers of unknown precision. -/
def VfpBlock.fstmx (f : VfpBlock) (cond : Cond) (rn : Reg) (fd : DReg) (count : BitVec 7) : Instr :=
  match f with
  | .ia w => .fstmiax cond w rn fd count
  | .db => .fstmdbx cond rn fd count

/-- Whether the addresses go up from the base. -/
def VfpBlock.up : VfpBlock → Bool
  | .ia _ => true
  | .db => false

/-- Whether the base is written back. -/
def VfpBlock.writeback : VfpBlock → Bool
  | .ia w => w
  | .db => true

/-- The lowest address of a transfer that counts `words` words (R534). -/
def VfpBlock.start (f : VfpBlock) (base : Word) (words : Nat) : Word :=
  match f with
  | .ia _ => base
  | .db => base - BitVec.ofNat 32 (4 * words)

/-- The base after a transfer that counts `words` words (R534). -/
def VfpBlock.final (f : VfpBlock) (base : Word) (words : Nat) : Word :=
  match f with
  | .ia _ => base + BitVec.ofNat 32 (4 * words)
  | .db => base - BitVec.ofNat 32 (4 * words)

/-- Where a multiple transfer of `n` of `words` counted words stops or takes the Data Abort exception (R534, R75, R78,
R80), or faults at a word that nothing has written (R51); `bad` is a list that is empty or runs past the last register. -/
def VfpBlockStops (i : Instr) (s : State) (f : VfpBlock) (rn : Reg) (bad : Prop) (words n : Nat) (k : Access) : Prop :=
  let a := f.start (s.reg rn) words
  (bad ∨ (f.writeback = true ∧ rn = 15#4) → Faults i s) ∧
  (¬bad → (f.writeback = true → rn ≠ 15#4) →
    (a &&& 3#32 ≠ 0#32 → s.cfg.alignCheck = true → Takes i s .dataAbort) ∧
    (a &&& 3#32 ≠ 0#32 → s.cfg.alignCheck = false → exec i s = .fault .misaligned) ∧
    (a &&& 3#32 = 0#32 → ¬FitsBelowTop a n → exec i s = .fault .transferWrap) ∧
    (a &&& 3#32 = 0#32 → FitsBelowTop a n → ¬s.BlockAllowed a n k → Takes i s .dataAbort) ∧
    (k = .read → a &&& 3#32 = 0#32 → FitsBelowTop a n → s.BlockAllowed a n k → ¬s.BlockWritten a n →
      exec i s = .fault .unwritten))

/-- What a multiple load does otherwise; `loaded` says what the VFP registers then hold. -/
def VfpBlockLoads (i : Instr) (s : State) (f : VfpBlock) (rn : Reg) (bad : Prop) (words n : Nat)
    (loaded : Word → State → Prop) : Prop :=
  let a := f.start (s.reg rn) words
  VfpBlockStops i s f rn bad words n .read ∧
  (¬bad → (f.writeback = true → rn ≠ 15#4) → a &&& 3#32 = 0#32 → FitsBelowTop a n → s.BlockAllowed a n .read →
    s.BlockWritten a n → s.CanGoOn → Completes i s fun t =>
      loaded a t ∧ (f.writeback = true → t.reg rn = f.final (s.reg rn) words) ∧
        s.RegsKept t (if f.writeback then [rn] else []) ∧ t = { s with gpr := t.gpr, vfp := t.vfp, pc := s.next })

/-- What a multiple store does otherwise; `stored` says what memory then holds; `drawn` values were drawn. -/
def VfpBlockStores (i : Instr) (s : State) (f : VfpBlock) (rn : Reg) (bad : Prop) (words n drawn : Nat)
    (stored : Word → State → Prop) : Prop :=
  let a := f.start (s.reg rn) words
  VfpBlockStops i s f rn bad words n .write ∧
  (¬bad → (f.writeback = true → rn ≠ 15#4) → a &&& 3#32 = 0#32 → FitsBelowTop a n → s.BlockAllowed a n .write →
    s.CanGoOn → Completes i s fun t =>
      stored a t ∧ (f.writeback = true → t.reg rn = f.final (s.reg rn) words) ∧
        s.RegsKept t (if f.writeback then [rn] else []) ∧ s.MemKeptOutside t a (4 * n) ∧
        t = { s with gpr := t.gpr, mem := t.mem, pc := s.next, draws := s.draws + drawn })

/-- A double word at an address: the low word first, or last in a big-endian system (R532); none where a word of it has no
value. -/
def State.doubleAt (s : State) (a : Word) : Option DWord := do
  let v ← s.word a
  let w ← s.word (a + 4#32)
  pure (if s.cfg.bigEndian then v ++ w else w ++ v)

end Sys2Proof.Machine

namespace Sys2Proof

/-! ## The instructions as syntax -/

/-- The condition of a conditional instruction (R35, R452). -/
def Instr.condition : Instr → Option Cond
  | .pldReg _ _ _ _ _ => none
  | .pldImm _ _ _ => none
  | .mcr2 _ _ _ _ _ _ => none
  | .mrc2 _ _ _ _ _ _ => none
  | .ldc2Post _ _ _ _ _ _ => none
  | .stc2Post _ _ _ _ _ _ => none
  | .cdp2 _ _ _ _ _ _ => none
  | .ldc2Pre _ _ _ _ _ _ _ => none
  | .stc2Pre _ _ _ _ _ _ _ => none
  | .blxLabel _ _ => none
  | .unallocatedUncond _ => none
  | .fmstat c => some c
  | .fcpys c _ _ => some c
  | .fcpyd c _ _ => some c
  | .fabss c _ _ => some c
  | .fabsd c _ _ => some c
  | .fnegs c _ _ => some c
  | .fnegd c _ _ => some c
  | .fsqrts c _ _ => some c
  | .fsqrtd c _ _ => some c
  | .fcmps c _ _ => some c
  | .fcmpd c _ _ => some c
  | .fcmpes c _ _ => some c
  | .fcmped c _ _ => some c
  | .fcmpzs c _ => some c
  | .fcmpzd c _ => some c
  | .fcmpezs c _ => some c
  | .fcmpezd c _ => some c
  | .fcvtds c _ _ => some c
  | .fcvtsd c _ _ => some c
  | .fuitos c _ _ => some c
  | .fuitod c _ _ => some c
  | .fsitos c _ _ => some c
  | .fsitod c _ _ => some c
  | .ftouis c _ _ => some c
  | .ftouid c _ _ => some c
  | .ftouizs c _ _ => some c
  | .ftouizd c _ _ => some c
  | .ftosis c _ _ => some c
  | .ftosid c _ _ => some c
  | .ftosizs c _ _ => some c
  | .ftosizd c _ _ => some c
  | .mia c _ _ => some c
  | .miaph c _ _ => some c
  | .miaXY c _ _ _ _ => some c
  | .fmacs c _ _ _ => some c
  | .fmacd c _ _ _ => some c
  | .fnmacs c _ _ _ => some c
  | .fnmacd c _ _ _ => some c
  | .fmscs c _ _ _ => some c
  | .fmscd c _ _ _ => some c
  | .fnmscs c _ _ _ => some c
  | .fnmscd c _ _ _ => some c
  | .fmuls c _ _ _ => some c
  | .fmuld c _ _ _ => some c
  | .fnmuls c _ _ _ => some c
  | .fnmuld c _ _ _ => some c
  | .fadds c _ _ _ => some c
  | .faddd c _ _ _ => some c
  | .fsubs c _ _ _ => some c
  | .fsubd c _ _ _ => some c
  | .fdivs c _ _ _ => some c
  | .fdivd c _ _ _ => some c
  | .fmsr c _ _ => some c
  | .fmrs c _ _ => some c
  | .fmdlr c _ _ => some c
  | .fmrdl c _ _ => some c
  | .fmdhr c _ _ => some c
  | .fmrdh c _ _ => some c
  | .fmxr c _ _ => some c
  | .fmrx c _ _ => some c
  | .qadd c _ _ _ => some c
  | .qsub c _ _ _ => some c
  | .qdadd c _ _ _ => some c
  | .qdsub c _ _ _ => some c
  | .bx c _ => some c
  | .blxReg c _ => some c
  | .clz c _ _ => some c
  | .bkpt c _ _ => some c
  | .swp c _ _ _ => some c
  | .swpb c _ _ _ => some c
  | .mar c _ _ => some c
  | .mra c _ _ => some c
  | .fldmdbd c _ _ _ => some c
  | .fldmdbx c _ _ _ => some c
  | .fstmdbd c _ _ _ => some c
  | .fstmdbx c _ _ _ => some c
  | .mul c _ _ _ _ => some c
  | .mla c _ _ _ _ _ => some c
  | .umull c _ _ _ _ _ => some c
  | .umlal c _ _ _ _ _ => some c
  | .smull c _ _ _ _ _ => some c
  | .smlal c _ _ _ _ _ => some c
  | .smlawY c _ _ _ _ _ => some c
  | .smulwY c _ _ _ _ => some c
  | .mrs c _ _ => some c
  | .msrReg c _ _ _ => some c
  | .fldmiad c _ _ _ _ => some c
  | .fldmiax c _ _ _ _ => some c
  | .fldmdbs c _ _ _ => some c
  | .fstmiad c _ _ _ _ => some c
  | .fstmiax c _ _ _ _ => some c
  | .fstmdbs c _ _ _ => some c
  | .tstRegReg c _ _ _ _ => some c
  | .teqRegReg c _ _ _ _ => some c
  | .cmpRegReg c _ _ _ _ => some c
  | .cmnRegReg c _ _ _ _ => some c
  | .smlaXY c _ _ _ _ _ _ => some c
  | .smlalXY c _ _ _ _ _ _ => some c
  | .smulXY c _ _ _ _ _ => some c
  | .flds c _ _ _ _ => some c
  | .fldd c _ _ _ _ => some c
  | .fsts c _ _ _ _ => some c
  | .fstd c _ _ _ _ => some c
  | .fldmias c _ _ _ _ => some c
  | .fstmias c _ _ _ _ => some c
  | .andRegReg c _ _ _ _ _ _ => some c
  | .eorRegReg c _ _ _ _ _ _ => some c
  | .subRegReg c _ _ _ _ _ _ => some c
  | .rsbRegReg c _ _ _ _ _ _ => some c
  | .addRegReg c _ _ _ _ _ _ => some c
  | .adcRegReg c _ _ _ _ _ _ => some c
  | .sbcRegReg c _ _ _ _ _ _ => some c
  | .rscRegReg c _ _ _ _ _ _ => some c
  | .tstRegImm c _ _ _ _ => some c
  | .teqRegImm c _ _ _ _ => some c
  | .cmpRegImm c _ _ _ _ => some c
  | .cmnRegImm c _ _ _ _ => some c
  | .orrRegReg c _ _ _ _ _ _ => some c
  | .movRegReg c _ _ _ _ _ => some c
  | .bicRegReg c _ _ _ _ _ _ => some c
  | .mvnRegReg c _ _ _ _ _ => some c
  | .strhImm c _ _ _ _ _ _ _ => some c
  | .strhReg c _ _ _ _ _ _ => some c
  | .ldrhImm c _ _ _ _ _ _ _ => some c
  | .ldrhReg c _ _ _ _ _ _ => some c
  | .ldrsbImm c _ _ _ _ _ _ _ => some c
  | .ldrsbReg c _ _ _ _ _ _ => some c
  | .ldrshImm c _ _ _ _ _ _ _ => some c
  | .ldrshReg c _ _ _ _ _ _ => some c
  | .ldrdImm c _ _ _ _ _ _ _ => some c
  | .ldrdReg c _ _ _ _ _ _ => some c
  | .strdImm c _ _ _ _ _ _ _ => some c
  | .strdReg c _ _ _ _ _ _ => some c
  | .andRegImm c _ _ _ _ _ _ => some c
  | .eorRegImm c _ _ _ _ _ _ => some c
  | .subRegImm c _ _ _ _ _ _ => some c
  | .rsbRegImm c _ _ _ _ _ _ => some c
  | .addRegImm c _ _ _ _ _ _ => some c
  | .adcRegImm c _ _ _ _ _ _ => some c
  | .sbcRegImm c _ _ _ _ _ _ => some c
  | .rscRegImm c _ _ _ _ _ _ => some c
  | .tstImm c _ _ _ => some c
  | .teqImm c _ _ _ => some c
  | .cmpImm c _ _ _ => some c
  | .cmnImm c _ _ _ => some c
  | .orrRegImm c _ _ _ _ _ _ => some c
  | .movRegImm c _ _ _ _ _ => some c
  | .bicRegImm c _ _ _ _ _ _ => some c
  | .mvnRegImm c _ _ _ _ _ => some c
  | .ldrtReg c _ _ _ _ _ _ => some c
  | .strtReg c _ _ _ _ _ _ => some c
  | .ldrbtReg c _ _ _ _ _ _ => some c
  | .strbtReg c _ _ _ _ _ _ => some c
  | .mcrr c _ _ _ _ _ => some c
  | .mrrc c _ _ _ _ _ => some c
  | .andImm c _ _ _ _ _ => some c
  | .eorImm c _ _ _ _ _ => some c
  | .subImm c _ _ _ _ _ => some c
  | .rsbImm c _ _ _ _ _ => some c
  | .addImm c _ _ _ _ _ => some c
  | .adcImm c _ _ _ _ _ => some c
  | .sbcImm c _ _ _ _ _ => some c
  | .rscImm c _ _ _ _ _ => some c
  | .orrImm c _ _ _ _ _ => some c
  | .movImm c _ _ _ _ => some c
  | .bicImm c _ _ _ _ _ => some c
  | .mvnImm c _ _ _ _ => some c
  | .msrImm c _ _ _ _ => some c
  | .ldrtImm c _ _ _ _ => some c
  | .strtImm c _ _ _ _ => some c
  | .ldrbtImm c _ _ _ _ => some c
  | .strbtImm c _ _ _ _ => some c
  | .ldrReg c _ _ _ _ _ _ _ _ => some c
  | .strReg c _ _ _ _ _ _ _ _ => some c
  | .ldrbReg c _ _ _ _ _ _ _ _ => some c
  | .strbReg c _ _ _ _ _ _ _ _ => some c
  | .ldmUser c _ _ _ _ _ => some c
  | .ldmReturn c _ _ _ _ _ => some c
  | .mcr c _ _ _ _ _ _ => some c
  | .mrc c _ _ _ _ _ _ => some c
  | .ldcPost c _ _ _ _ _ _ => some c
  | .stcPost c _ _ _ _ _ _ => some c
  | .ldrImm c _ _ _ _ _ _ => some c
  | .strImm c _ _ _ _ _ _ => some c
  | .ldrbImm c _ _ _ _ _ _ => some c
  | .strbImm c _ _ _ _ _ _ => some c
  | .ldm c _ _ _ _ _ => some c
  | .stm c _ _ _ _ _ => some c
  | .stmUser c _ _ _ _ _ => some c
  | .cdp c _ _ _ _ _ _ => some c
  | .ldcPre c _ _ _ _ _ _ _ => some c
  | .stcPre c _ _ _ _ _ _ _ => some c
  | .b c _ => some c
  | .bl c _ => some c
  | .swi c _ => some c
  | .tAnd _ _ => none
  | .tEor _ _ => none
  | .tLslReg _ _ => none
  | .tLsrReg _ _ => none
  | .tAsrReg _ _ => none
  | .tAdc _ _ => none
  | .tSbc _ _ => none
  | .tRor _ _ => none
  | .tTst _ _ => none
  | .tNeg _ _ => none
  | .tCmpLow _ _ => none
  | .tCmn _ _ => none
  | .tOrr _ _ => none
  | .tMul _ _ => none
  | .tBic _ _ => none
  | .tMvn _ _ => none
  | .tBx _ _ => none
  | .tBlxReg _ _ => none
  | .tAddSp _ => none
  | .tSubSp _ => none
  | .tAddHigh _ _ _ _ => none
  | .tCmpHigh _ _ _ _ => none
  | .tMovHigh _ _ _ _ => none
  | .tBkpt _ => none
  | .tSwi _ => none
  | .tUnallocated _ => none
  | .tAddReg3 _ _ _ => none
  | .tSubReg3 _ _ _ => none
  | .tAddImm3 _ _ _ => none
  | .tSubImm3 _ _ _ => none
  | .tStrReg _ _ _ => none
  | .tStrhReg _ _ _ => none
  | .tStrbReg _ _ _ => none
  | .tLdrsbReg _ _ _ => none
  | .tLdrReg _ _ _ => none
  | .tLdrhReg _ _ _ => none
  | .tLdrbReg _ _ _ => none
  | .tLdrshReg _ _ _ => none
  | .tPush _ _ => none
  | .tPop _ _ => none
  | .tBlxSecond _ => none
  | .tLslImm _ _ _ => none
  | .tLsrImm _ _ _ => none
  | .tAsrImm _ _ _ => none
  | .tMovImm8 _ _ => none
  | .tCmpImm8 _ _ => none
  | .tAddImm8 _ _ => none
  | .tSubImm8 _ _ => none
  | .tLdrPc _ _ => none
  | .tStrImm _ _ _ => none
  | .tLdrImm _ _ _ => none
  | .tStrbImm _ _ _ => none
  | .tLdrbImm _ _ _ => none
  | .tStrhImm _ _ _ => none
  | .tLdrhImm _ _ _ => none
  | .tStrSpRel _ _ => none
  | .tLdrSpRel _ _ => none
  | .tAddPcImm _ _ => none
  | .tAddSpImm _ _ => none
  | .tStmia _ _ => none
  | .tLdmia _ _ => none
  | .tB _ => none
  | .tBlFirst _ => none
  | .tBlSecond _ => none
  | .tBCond c _ => some c

/-- Whether an instruction is one of Thumb state (R24). -/
def Instr.inThumb : Instr → Bool
  | .pldReg _ _ _ _ _ => false
  | .pldImm _ _ _ => false
  | .mcr2 _ _ _ _ _ _ => false
  | .mrc2 _ _ _ _ _ _ => false
  | .ldc2Post _ _ _ _ _ _ => false
  | .stc2Post _ _ _ _ _ _ => false
  | .cdp2 _ _ _ _ _ _ => false
  | .ldc2Pre _ _ _ _ _ _ _ => false
  | .stc2Pre _ _ _ _ _ _ _ => false
  | .blxLabel _ _ => false
  | .unallocatedUncond _ => false
  | .fmstat _ => false
  | .fcpys _ _ _ => false
  | .fcpyd _ _ _ => false
  | .fabss _ _ _ => false
  | .fabsd _ _ _ => false
  | .fnegs _ _ _ => false
  | .fnegd _ _ _ => false
  | .fsqrts _ _ _ => false
  | .fsqrtd _ _ _ => false
  | .fcmps _ _ _ => false
  | .fcmpd _ _ _ => false
  | .fcmpes _ _ _ => false
  | .fcmped _ _ _ => false
  | .fcmpzs _ _ => false
  | .fcmpzd _ _ => false
  | .fcmpezs _ _ => false
  | .fcmpezd _ _ => false
  | .fcvtds _ _ _ => false
  | .fcvtsd _ _ _ => false
  | .fuitos _ _ _ => false
  | .fuitod _ _ _ => false
  | .fsitos _ _ _ => false
  | .fsitod _ _ _ => false
  | .ftouis _ _ _ => false
  | .ftouid _ _ _ => false
  | .ftouizs _ _ _ => false
  | .ftouizd _ _ _ => false
  | .ftosis _ _ _ => false
  | .ftosid _ _ _ => false
  | .ftosizs _ _ _ => false
  | .ftosizd _ _ _ => false
  | .mia _ _ _ => false
  | .miaph _ _ _ => false
  | .miaXY _ _ _ _ _ => false
  | .fmacs _ _ _ _ => false
  | .fmacd _ _ _ _ => false
  | .fnmacs _ _ _ _ => false
  | .fnmacd _ _ _ _ => false
  | .fmscs _ _ _ _ => false
  | .fmscd _ _ _ _ => false
  | .fnmscs _ _ _ _ => false
  | .fnmscd _ _ _ _ => false
  | .fmuls _ _ _ _ => false
  | .fmuld _ _ _ _ => false
  | .fnmuls _ _ _ _ => false
  | .fnmuld _ _ _ _ => false
  | .fadds _ _ _ _ => false
  | .faddd _ _ _ _ => false
  | .fsubs _ _ _ _ => false
  | .fsubd _ _ _ _ => false
  | .fdivs _ _ _ _ => false
  | .fdivd _ _ _ _ => false
  | .fmsr _ _ _ => false
  | .fmrs _ _ _ => false
  | .fmdlr _ _ _ => false
  | .fmrdl _ _ _ => false
  | .fmdhr _ _ _ => false
  | .fmrdh _ _ _ => false
  | .fmxr _ _ _ => false
  | .fmrx _ _ _ => false
  | .qadd _ _ _ _ => false
  | .qsub _ _ _ _ => false
  | .qdadd _ _ _ _ => false
  | .qdsub _ _ _ _ => false
  | .bx _ _ => false
  | .blxReg _ _ => false
  | .clz _ _ _ => false
  | .bkpt _ _ _ => false
  | .swp _ _ _ _ => false
  | .swpb _ _ _ _ => false
  | .mar _ _ _ => false
  | .mra _ _ _ => false
  | .fldmdbd _ _ _ _ => false
  | .fldmdbx _ _ _ _ => false
  | .fstmdbd _ _ _ _ => false
  | .fstmdbx _ _ _ _ => false
  | .mul _ _ _ _ _ => false
  | .mla _ _ _ _ _ _ => false
  | .umull _ _ _ _ _ _ => false
  | .umlal _ _ _ _ _ _ => false
  | .smull _ _ _ _ _ _ => false
  | .smlal _ _ _ _ _ _ => false
  | .smlawY _ _ _ _ _ _ => false
  | .smulwY _ _ _ _ _ => false
  | .mrs _ _ _ => false
  | .msrReg _ _ _ _ => false
  | .fldmiad _ _ _ _ _ => false
  | .fldmiax _ _ _ _ _ => false
  | .fldmdbs _ _ _ _ => false
  | .fstmiad _ _ _ _ _ => false
  | .fstmiax _ _ _ _ _ => false
  | .fstmdbs _ _ _ _ => false
  | .tstRegReg _ _ _ _ _ => false
  | .teqRegReg _ _ _ _ _ => false
  | .cmpRegReg _ _ _ _ _ => false
  | .cmnRegReg _ _ _ _ _ => false
  | .smlaXY _ _ _ _ _ _ _ => false
  | .smlalXY _ _ _ _ _ _ _ => false
  | .smulXY _ _ _ _ _ _ => false
  | .flds _ _ _ _ _ => false
  | .fldd _ _ _ _ _ => false
  | .fsts _ _ _ _ _ => false
  | .fstd _ _ _ _ _ => false
  | .fldmias _ _ _ _ _ => false
  | .fstmias _ _ _ _ _ => false
  | .andRegReg _ _ _ _ _ _ _ => false
  | .eorRegReg _ _ _ _ _ _ _ => false
  | .subRegReg _ _ _ _ _ _ _ => false
  | .rsbRegReg _ _ _ _ _ _ _ => false
  | .addRegReg _ _ _ _ _ _ _ => false
  | .adcRegReg _ _ _ _ _ _ _ => false
  | .sbcRegReg _ _ _ _ _ _ _ => false
  | .rscRegReg _ _ _ _ _ _ _ => false
  | .tstRegImm _ _ _ _ _ => false
  | .teqRegImm _ _ _ _ _ => false
  | .cmpRegImm _ _ _ _ _ => false
  | .cmnRegImm _ _ _ _ _ => false
  | .orrRegReg _ _ _ _ _ _ _ => false
  | .movRegReg _ _ _ _ _ _ => false
  | .bicRegReg _ _ _ _ _ _ _ => false
  | .mvnRegReg _ _ _ _ _ _ => false
  | .strhImm _ _ _ _ _ _ _ _ => false
  | .strhReg _ _ _ _ _ _ _ => false
  | .ldrhImm _ _ _ _ _ _ _ _ => false
  | .ldrhReg _ _ _ _ _ _ _ => false
  | .ldrsbImm _ _ _ _ _ _ _ _ => false
  | .ldrsbReg _ _ _ _ _ _ _ => false
  | .ldrshImm _ _ _ _ _ _ _ _ => false
  | .ldrshReg _ _ _ _ _ _ _ => false
  | .ldrdImm _ _ _ _ _ _ _ _ => false
  | .ldrdReg _ _ _ _ _ _ _ => false
  | .strdImm _ _ _ _ _ _ _ _ => false
  | .strdReg _ _ _ _ _ _ _ => false
  | .andRegImm _ _ _ _ _ _ _ => false
  | .eorRegImm _ _ _ _ _ _ _ => false
  | .subRegImm _ _ _ _ _ _ _ => false
  | .rsbRegImm _ _ _ _ _ _ _ => false
  | .addRegImm _ _ _ _ _ _ _ => false
  | .adcRegImm _ _ _ _ _ _ _ => false
  | .sbcRegImm _ _ _ _ _ _ _ => false
  | .rscRegImm _ _ _ _ _ _ _ => false
  | .tstImm _ _ _ _ => false
  | .teqImm _ _ _ _ => false
  | .cmpImm _ _ _ _ => false
  | .cmnImm _ _ _ _ => false
  | .orrRegImm _ _ _ _ _ _ _ => false
  | .movRegImm _ _ _ _ _ _ => false
  | .bicRegImm _ _ _ _ _ _ _ => false
  | .mvnRegImm _ _ _ _ _ _ => false
  | .ldrtReg _ _ _ _ _ _ _ => false
  | .strtReg _ _ _ _ _ _ _ => false
  | .ldrbtReg _ _ _ _ _ _ _ => false
  | .strbtReg _ _ _ _ _ _ _ => false
  | .mcrr _ _ _ _ _ _ => false
  | .mrrc _ _ _ _ _ _ => false
  | .andImm _ _ _ _ _ _ => false
  | .eorImm _ _ _ _ _ _ => false
  | .subImm _ _ _ _ _ _ => false
  | .rsbImm _ _ _ _ _ _ => false
  | .addImm _ _ _ _ _ _ => false
  | .adcImm _ _ _ _ _ _ => false
  | .sbcImm _ _ _ _ _ _ => false
  | .rscImm _ _ _ _ _ _ => false
  | .orrImm _ _ _ _ _ _ => false
  | .movImm _ _ _ _ _ => false
  | .bicImm _ _ _ _ _ _ => false
  | .mvnImm _ _ _ _ _ => false
  | .msrImm _ _ _ _ _ => false
  | .ldrtImm _ _ _ _ _ => false
  | .strtImm _ _ _ _ _ => false
  | .ldrbtImm _ _ _ _ _ => false
  | .strbtImm _ _ _ _ _ => false
  | .ldrReg _ _ _ _ _ _ _ _ _ => false
  | .strReg _ _ _ _ _ _ _ _ _ => false
  | .ldrbReg _ _ _ _ _ _ _ _ _ => false
  | .strbReg _ _ _ _ _ _ _ _ _ => false
  | .ldmUser _ _ _ _ _ _ => false
  | .ldmReturn _ _ _ _ _ _ => false
  | .mcr _ _ _ _ _ _ _ => false
  | .mrc _ _ _ _ _ _ _ => false
  | .ldcPost _ _ _ _ _ _ _ => false
  | .stcPost _ _ _ _ _ _ _ => false
  | .ldrImm _ _ _ _ _ _ _ => false
  | .strImm _ _ _ _ _ _ _ => false
  | .ldrbImm _ _ _ _ _ _ _ => false
  | .strbImm _ _ _ _ _ _ _ => false
  | .ldm _ _ _ _ _ _ => false
  | .stm _ _ _ _ _ _ => false
  | .stmUser _ _ _ _ _ _ => false
  | .cdp _ _ _ _ _ _ _ => false
  | .ldcPre _ _ _ _ _ _ _ _ => false
  | .stcPre _ _ _ _ _ _ _ _ => false
  | .b _ _ => false
  | .bl _ _ => false
  | .swi _ _ => false
  | .tAnd _ _ => true
  | .tEor _ _ => true
  | .tLslReg _ _ => true
  | .tLsrReg _ _ => true
  | .tAsrReg _ _ => true
  | .tAdc _ _ => true
  | .tSbc _ _ => true
  | .tRor _ _ => true
  | .tTst _ _ => true
  | .tNeg _ _ => true
  | .tCmpLow _ _ => true
  | .tCmn _ _ => true
  | .tOrr _ _ => true
  | .tMul _ _ => true
  | .tBic _ _ => true
  | .tMvn _ _ => true
  | .tBx _ _ => true
  | .tBlxReg _ _ => true
  | .tAddSp _ => true
  | .tSubSp _ => true
  | .tAddHigh _ _ _ _ => true
  | .tCmpHigh _ _ _ _ => true
  | .tMovHigh _ _ _ _ => true
  | .tBkpt _ => true
  | .tSwi _ => true
  | .tUnallocated _ => true
  | .tAddReg3 _ _ _ => true
  | .tSubReg3 _ _ _ => true
  | .tAddImm3 _ _ _ => true
  | .tSubImm3 _ _ _ => true
  | .tStrReg _ _ _ => true
  | .tStrhReg _ _ _ => true
  | .tStrbReg _ _ _ => true
  | .tLdrsbReg _ _ _ => true
  | .tLdrReg _ _ _ => true
  | .tLdrhReg _ _ _ => true
  | .tLdrbReg _ _ _ => true
  | .tLdrshReg _ _ _ => true
  | .tPush _ _ => true
  | .tPop _ _ => true
  | .tBlxSecond _ => true
  | .tLslImm _ _ _ => true
  | .tLsrImm _ _ _ => true
  | .tAsrImm _ _ _ => true
  | .tMovImm8 _ _ => true
  | .tCmpImm8 _ _ => true
  | .tAddImm8 _ _ => true
  | .tSubImm8 _ _ => true
  | .tLdrPc _ _ => true
  | .tStrImm _ _ _ => true
  | .tLdrImm _ _ _ => true
  | .tStrbImm _ _ _ => true
  | .tLdrbImm _ _ _ => true
  | .tStrhImm _ _ _ => true
  | .tLdrhImm _ _ _ => true
  | .tStrSpRel _ _ => true
  | .tLdrSpRel _ _ => true
  | .tAddPcImm _ _ => true
  | .tAddSpImm _ _ => true
  | .tStmia _ _ => true
  | .tLdmia _ _ => true
  | .tB _ => true
  | .tBlFirst _ => true
  | .tBlSecond _ => true
  | .tBCond _ _ => true

end Sys2Proof

namespace Sys2Proof.Machine

/-! ## The invariant -/

/-- FPSCR has no bit set that R42 gives no meaning (D26). -/
abbrev State.fpscrDefined (s : State) : Prop := s.fpscr &&& 0xF1F71F1F#32 = s.fpscr

/-- FPEXC has no bit set but EN (R43, D14). -/
abbrev State.fpexcDefined (s : State) : Prop := s.fpexc &&& 0x40000000#32 = s.fpexc

/-- The pc is aligned to the instruction size of the current state (R26). -/
abbrev State.pcAligned (s : State) : Prop := s.pc &&& (if s.cpsr.t then 1#32 else 3#32) = 0#32

/-- The exception vectors are words (R601). -/
abbrev State.vectorsAligned (s : State) : Prop := s.cfg.vectorBase &&& 3#32 = 0#32

/-- Thumb state exists only where the processor has it (R24). -/
abbrev State.thumbLegal (s : State) : Prop := s.cpsr.t = true → s.cfg.arch.thumb = true

/-- The mode number is a mode of the processor (R32). -/
abbrev State.modeOk (s : State) : Prop := modeLegal s.cfg.arch s.cpsr.m = true

/-- What every step keeps: the memory in canonical form, the mode and the state legal, the pc aligned, the bits of FPSCR
and FPEXC that are not defined 0. -/
structure State.Inv (s : State) : Prop where
  memory : s.mem.wf = true
  mode : s.modeOk
  thumb : s.thumbLegal
  pc : s.pcAligned
  vectors : s.vectorsAligned
  fpscr : s.fpscrDefined
  fpexc : s.fpexcDefined

end Sys2Proof.Machine
end

