-- ==== Sys2Proof/Certificates/Slice0/Obligations.lean ====
section
/-! DEFINITION. What is to be proved of the machine, one proposition for each obligation of OBLIGATIONS.json. The words
are those of `Sys2Proof.Safety`. -/

section

open Sys2Proof Sys2Proof.Machine

/-! ## The step (60_exceptions.md) -/

/-- A step runs the instruction that the decoder reads at the pc (R620, R100): in Thumb state a halfword; in ARM state a
word, unless its condition field names a condition that fails, when the pc alone moves on. Where nothing has been written
at the pc the step faults (R51, R860; for a fetch by inference, notes/assumptions/3). -/
def Obligations.StepRunsDecodedInstruction : Prop :=
  ∀ (s : State) (i : Instr), s.exited = none → s.interrupted s.input.lines = none → s.fetchAllowed = true →
    (s.cpsr.t = true → ∀ h, s.half s.pc = some h → decodeThumb s.cfg.arch h = .instr i →
      step s = exec i s.nextInputs) ∧
    (s.cpsr.t = false → ∀ w, s.word s.pc = some w → decodeArm s.cfg.arch s.vfpEnabled w = .instr i →
      (∀ c, Cond.ofBits (w.extractLsb' 28 4) = some c → s.cpsr.passed c = true) → step s = exec i s.nextInputs) ∧
    (s.cpsr.t = false → s.CanGoOn → ∀ w, s.word s.pc = some w →
      (∀ c, Cond.ofBits (w.extractLsb' 28 4) = some c → s.cpsr.passed c = false →
        step s = .next (s.nextInputs.setPc s.next))) ∧
    ((if s.cpsr.t then s.half s.pc = none else s.word s.pc = none) → step s = .fault .unwritten)

/-- What comes before the instruction (R612, R613, R605, R604, R102): reset, FIQ and IRQ in this order; a refused fetch; a
word that is no instruction. That a run which has ended stays as it is, whatever the lines say, is the model's choice
(notes/assumptions/17). -/
def Obligations.StepTakesExceptionsInOrder : Prop :=
  ∀ s : State,
    (s.exited ≠ none → step s = .next s) ∧
    (s.exited = none → s.input.lines.reset = true → step s = .next (s.nextInputs.takeException .reset)) ∧
    (s.exited = none → s.input.lines.reset = false → s.input.lines.fiq = true → s.cpsr.f = false →
      step s = .next (s.nextInputs.takeException .fiq)) ∧
    (s.exited = none → s.input.lines.reset = false → (s.input.lines.fiq = false ∨ s.cpsr.f = true) →
      s.input.lines.irq = true → s.cpsr.i = false → step s = .next (s.nextInputs.takeException .irq)) ∧
    (s.exited = none → s.input.lines.reset = false → (s.input.lines.fiq = false ∨ s.cpsr.f = true) →
      (s.input.lines.irq = false ∨ s.cpsr.i = true) →
      (s.fetchAllowed = false → step s = .next (s.nextInputs.takeException .prefetchAbort)) ∧
      (∀ d, s.fetchAllowed = true →
        (if s.cpsr.t then (s.half s.pc).map (decodeThumb s.cfg.arch) = some d
          else ∃ w, s.word s.pc = some w ∧ decodeArm s.cfg.arch s.vfpEnabled w = d ∧
            ∀ c, Cond.ofBits (w.extractLsb' 28 4) = some c → s.cpsr.passed c = true) →
        (d = .undefined → step s = .next (s.nextInputs.takeException .undefined)) ∧
        (d = .unpredictable → step s = .fault .shouldBeBits)))

/-- A conditional instruction whose condition fails only moves the pc on (R11, R35); at the last instruction of the
address space that is a fault (R29). -/
def Obligations.FailedConditionDoesNothing : Prop :=
  ∀ (i : Instr) (c : Cond) (s : State), i.condition = some c → s.cpsr.passed c = false →
    (s.CanGoOn → exec i s = .next (s.setPc s.next)) ∧ (¬s.CanGoOn → exec i s = .fault .pcWrap)

/-- The flag test of each condition (R35); the Q flag is never tested. -/
def Obligations.ConditionTable : Prop :=
  ∀ p : Psr,
    (p.passed .eq = true ↔ p.z = true) ∧ (p.passed .ne = true ↔ p.z = false) ∧
    (p.passed .cs = true ↔ p.c = true) ∧ (p.passed .cc = true ↔ p.c = false) ∧
    (p.passed .mi = true ↔ p.n = true) ∧ (p.passed .pl = true ↔ p.n = false) ∧
    (p.passed .vs = true ↔ p.v = true) ∧ (p.passed .vc = true ↔ p.v = false) ∧
    (p.passed .hi = true ↔ p.c = true ∧ p.z = false) ∧ (p.passed .ls = true ↔ p.c = false ∨ p.z = true) ∧
    (p.passed .ge = true ↔ p.n = p.v) ∧ (p.passed .lt = true ↔ p.n ≠ p.v) ∧
    (p.passed .gt = true ↔ p.z = false ∧ p.n = p.v) ∧ (p.passed .le = true ↔ p.z = true ∨ p.n ≠ p.v) ∧
    p.passed .al = true ∧ ∀ (c : Cond) (b : Bool), ({ p with q := b } : Psr).passed c = p.passed c

/-- Taking an exception (R603, R601): the mode, the vector and the masks of each; the link value in r14 and the old CPSR
in the SPSR of the mode entered; everything else as before. -/
def Obligations.ExceptionEntry : Prop :=
  ∀ (s : State) (e : Exc) (mode : BitVec 5) (offset ret : Word) (masksFiq : Bool),
    (e, mode, offset, ret, masksFiq) ∈
      [(Exc.undefined, (0b11011#5, 0x04#32, s.next, false)), (Exc.swi, (0b10011#5, 0x08#32, s.next, false)),
        (Exc.prefetchAbort, (0b10111#5, 0x0C#32, s.pc + 4#32, false)),
        (Exc.dataAbort, (0b10111#5, 0x10#32, s.pc + 8#32, false)),
        (Exc.irq, (0b10010#5, 0x18#32, s.pc + 4#32, false)), (Exc.fiq, (0b10001#5, 0x1C#32, s.pc + 4#32, true))] →
    let t := s.takeException e
    t.cpsr = { s.cpsr with m := mode, t := false, i := true, f := s.cpsr.f || masksFiq } ∧
      t.pc = s.cfg.vectorBase + offset ∧ t.reg 14#4 = ret ∧ t.spsr = s.cpsr ∧
      (∀ i : Fin 30, i ≠ physReg (bankOf mode) 14#4 → t.gpr.get i = s.gpr.get i) ∧
      (∀ b, b ≠ .usr → b ≠ bankOf mode → t.spsrOf b = s.spsrOf b) ∧
      t = { s with
        gpr := t.gpr, pc := t.pc, cpsr := t.cpsr, spsrFiq := t.spsrFiq, spsrIrq := t.spsrIrq, spsrSvc := t.spsrSvc
        spsrAbt := t.spsrAbt, spsrUnd := t.spsrUnd }

/-- Reset (R50, R701, R613(c)): Supervisor mode, ARM state, IRQ and FIQ disabled, the pc at the reset vector, FPSCR and
FPEXC 0; memory stays. `State.reset` is so too, in the model's default configuration (notes/assumptions/2). -/
def Obligations.ResetState : Prop :=
  ∀ s : State,
    let t := s.takeException .reset
    t.cpsr.m = 0b10011#5 ∧ t.cpsr.t = false ∧ t.cpsr.i = true ∧ t.cpsr.f = true ∧ t.pc = s.cfg.vectorBase ∧
      t.fpscr = 0#32 ∧ t.fpexc = 0#32 ∧ s.MemKept t ∧ t.cfg = s.cfg ∧ t.fpsid = s.fpsid ∧
      State.reset.cpsr.m = 0b10011#5 ∧ State.reset.cpsr.t = false ∧ State.reset.cpsr.i = true ∧
      State.reset.cpsr.f = true ∧ State.reset.pc = State.reset.cfg.vectorBase ∧ State.reset.fpscr = 0#32 ∧
      State.reset.fpexc = 0#32

/-- The state after reset meets the invariant. -/
def Obligations.ResetMeetsInvariant : Prop := State.reset.Inv

/-- Every step keeps the invariant: the memory in canonical form, a legal mode and state, an aligned pc, no undefined bit
in FPSCR and FPEXC. And no step changes the parameters of the run (R9) or FPSID, which is read-only (R44). -/
def Obligations.StepKeepsInvariant : Prop :=
  (∀ s t : State, s.Inv → step s = .next t → t.Inv) ∧
  (∀ s t : State, step s = .next t → t.cfg = s.cfg ∧ t.fpsid = s.fpsid)

/-- What a step from User mode can do (R32, R80, R362, R543, R616): it takes an exception; or it stays in User mode with
the interrupt masks, the SPSRs, FPEXC and the registers of the other modes as before, and every byte that User mode may
not write as before. -/
def Obligations.UserModeIsConfined : Prop :=
  ∀ s t : State, s.cpsr.m = 0b10000#5 → step s = .next t →
    (∃ e : Exc, t = s.nextInputs.takeException e) ∨
    (t.cpsr.m = 0b10000#5 ∧ t.cpsr.i = s.cpsr.i ∧ t.cpsr.f = s.cpsr.f ∧ t.spsrFiq = s.spsrFiq ∧
      t.spsrIrq = s.spsrIrq ∧ t.spsrSvc = s.spsrSvc ∧ t.spsrAbt = s.spsrAbt ∧ t.spsrUnd = s.spsrUnd ∧
      t.fpexc = s.fpexc ∧ (∀ i : Fin 30, (∀ r : Reg, i ≠ physReg .usr r) → t.gpr.get i = s.gpr.get i) ∧
      ∀ a : Word, s.UserProtected a → t.byte a = s.byte a)

/-! ## Encoding (30_encoding.md) -/

/-- Decoding the encoding of a well-formed instruction gives it back, on the processor that has every instruction and
with the VFP enabled. -/
def Obligations.DecodeOfEncode : Prop :=
  ∀ i : Instr, i.wf = true → decode Arch.full true (encode i) = .instr i

/-- An instruction that decodes is encoded by the bits it came from: decoding drops no bit, on every processor. -/
def Obligations.EncodeOfDecode : Prop :=
  ∀ (a : Arch) (en : Bool) (code : Code) (i : Instr), decode a en code = .instr i → encode i = code

/-- Each state decodes its own instructions (R24, R100), and Thumb instructions exist only with Thumb. -/
def Obligations.DecodeStaysInState : Prop :=
  (∀ (a : Arch) (en : Bool) (w : Word) (i : Instr), decodeArm a en w = .instr i → i.inThumb = false) ∧
  (∀ (a : Arch) (h : Half) (i : Instr), decodeThumb a h = .instr i → i.inThumb = true ∧ a.thumb = true)

/-- Words that the spec writes out decode to the instructions they stand for: CLZ r4,r9 (R290); LDMIA r8 with r0, r2, r9
(R250); MULS r0,r2,r2 (R301); STRD r0,[r9,-r2]! (R248); MCR p15 (R343); MSR CPSR_f,r5 (R364); FMACD d8,d0,d8 (R520);
Thumb ADD r3,r1,r5 (R411), LDRB r2,[r4,#5] (R385), SWI 12 (R457). -/
def Obligations.DecodeWords : Prop :=
  decode Arch.full true (.arm 0xE16F4F19#32) = .instr (.clz .al 4#4 9#4) ∧
  decode Arch.full true (.arm 0xE8980205#32) = .instr (.ldm .al false true false 8#4 0x0205#16) ∧
  decode Arch.full true (.arm 0xE0100292#32) = .instr (.mul .al true 0#4 2#4 2#4) ∧
  decode Arch.full true (.arm 0xE12900F2#32) = .instr (.strdReg .al true false true 9#4 0#4 2#4) ∧
  decode Arch.full true (.arm 0xEE010F10#32) = .instr (.mcr .al 0#3 1#4 0#4 15#4 0#3 0#4) ∧
  decode Arch.full true (.arm 0xE128F005#32) = .instr (.msrReg .al false 8#4 5#4) ∧
  decode Arch.full true (.arm 0xEE008B08#32) = .instr (.fmacd .al 0#4 8#4 8#4) ∧
  decode Arch.full true (.thumb 0x194B#16) = .instr (.tAddReg3 5#3 1#3 3#3) ∧
  decode Arch.full true (.thumb 0x7962#16) = .instr (.tLdrbImm 5#5 4#3 2#3) ∧
  decode Arch.full true (.thumb 0xDF0C#16) = .instr (.tSwi 12#8)

/-! ## ARM data processing (41_arm_data_processing.md) -/

/-- Operand2 shifted by a constant (R263 to R267): LSL by 0 to 31, LSR and ASR by 1 to 32, ROR by 1 to 31, RRX. -/
def Obligations.ShiftByConstant : Prop :=
  ∀ (s : State) (rm : Reg),
    let v := s.reg rm
    (∀ n < 32,
      let o := s.op2Const (BitVec.ofNat 5 n) .lsl rm
      o.value.toNat = v.toNat * 2 ^ n % 2 ^ 32 ∧ o.carry = if n = 0 then s.cpsr.c else v.getLsbD (32 - n)) ∧
    (∀ n, 1 ≤ n → n ≤ 32 →
      let o := s.op2Const (BitVec.ofNat 5 n) .lsr rm
      o.value.toNat = v.toNat / 2 ^ n ∧ o.carry = v.getLsbD (n - 1)) ∧
    (∀ n, 1 ≤ n → n ≤ 32 →
      let o := s.op2Const (BitVec.ofNat 5 n) .asr rm
      o.value.toInt = v.toInt / 2 ^ n ∧ o.carry = v.getLsbD (n - 1)) ∧
    (∀ n, 1 ≤ n → n ≤ 31 →
      let o := s.op2Const (BitVec.ofNat 5 n) .ror rm
      o.value = v >>> n ||| v <<< (32 - n) ∧ o.carry = v.getLsbD (n - 1) ∧ o.carry = o.value.msb) ∧
    (let o := s.op2Const 0#5 .ror rm;
      o.value = bitWord s.cpsr.c <<< 31 ||| v >>> 1 ∧ o.carry = v.getLsbD 0)

/-- Operand2 shifted by a register (R268), by the least significant byte of Rs: 0, 1 to 31, 32, more; and the rotated
8-bit constant (R269, R104). -/
def Obligations.ShiftByRegisterAndRotatedConstant : Prop :=
  (∀ (s : State) (rs rm : Reg) (t : ShiftType),
    let v := s.reg rm
    let n := (s.reg rs).toNat % 256
    let top := v.getLsbD 31
    let o := s.op2Reg rs t rm
    (n = 0 → o.value = v ∧ o.carry = s.cpsr.c) ∧
    (1 ≤ n → n ≤ 31 → o = s.op2Const (BitVec.ofNat 5 n) t rm) ∧
    (n = 32 →
      (t = .lsl → o.value = 0#32 ∧ o.carry = v.getLsbD 0) ∧ (t = .lsr → o.value = 0#32 ∧ o.carry = top) ∧
      (t = .ror → o.value = v ∧ o.carry = top)) ∧
    (32 < n →
      (t = .lsl → o.value = 0#32 ∧ o.carry = false) ∧ (t = .lsr → o.value = 0#32 ∧ o.carry = false) ∧
      (t = .ror → n % 32 ≠ 0 → o = s.op2Const (BitVec.ofNat 5 (n % 32)) t rm) ∧
      (t = .ror → n % 32 = 0 → o.value = v ∧ o.carry = top)) ∧
    (32 ≤ n → t = .asr → o.value = (if top then 0xFFFFFFFF#32 else 0#32) ∧ o.carry = top)) ∧
  (∀ (s : State) (rot : BitVec 4) (imm8 : BitVec 8),
    let o := s.op2Imm rot imm8
    let v := imm8.zeroExtend 32
    (rot = 0#4 → o.value = v ∧ o.carry = s.cpsr.c) ∧
    (rot ≠ 0#4 → o.value = v >>> (2 * rot.toNat) ||| v <<< (32 - 2 * rot.toNat) ∧ o.carry = o.value.msb))

/-- ADD, SUB, RSB, ADC, SBC and RSC (R273 to R279) in their three forms, Rd not r15: the result goes to Rd, the flags
change under S only, by exact arithmetic (R34). With a shift by a register any r15 faults (R268). -/
def Obligations.ArithmeticResult : Prop :=
  ∀ (op : ArithOp) (o : Op2) (cond : Cond) (setFlags : Bool) (rn rd : Reg) (s : State),
    s.cpsr.passed cond = true →
    let i := op.instr o cond setFlags rn rd
    let a := s.reg rn
    let b := (o.eval s).value
    (o.pcFree [rn, rd] = false → Faults i s) ∧
    (o.pcFree [rn, rd] = true → rd ≠ 15#4 →
      (s.CanGoOn → WritesReg i s rd (op.value a b s.cpsr.c)
        (if setFlags then op.flags a b s.cpsr.c else s.cpsr.nzcv)) ∧
      (¬s.CanGoOn → exec i s = .fault .pcWrap))

/-- AND, EOR, ORR, BIC, MOV and MVN (R270, R273, R280 to R285) in their three forms, Rd not r15: under S, N and Z of the
result, C the shifter's carry, V kept. -/
def Obligations.LogicalResult : Prop :=
  ∀ (op : LogicOp) (o : Op2) (cond : Cond) (setFlags : Bool) (rn rd : Reg) (s : State),
    s.cpsr.passed cond = true →
    let i := op.instr o cond setFlags rn rd
    let r := op.value (s.reg rn) (o.eval s).value
    (o.pcFree (op.others rn rd) = false → Faults i s) ∧
    (o.pcFree (op.others rn rd) = true → rd ≠ 15#4 →
      (s.CanGoOn → WritesReg i s rd r
        (if setFlags then resultFlags r (o.eval s).carry s.cpsr.v else s.cpsr.nzcv)) ∧
      (¬s.CanGoOn → exec i s = .fault .pcWrap))

/-- CMP, CMN, TST and TEQ (R286 to R289) in their three forms: only the flags change. -/
def Obligations.CompareFlags : Prop :=
  ∀ (op : CompareOp) (o : Op2) (cond : Cond) (rn : Reg) (s : State),
    s.cpsr.passed cond = true →
    let i := op.instr o cond rn
    (o.pcFree [rn] = false → Faults i s) ∧
    (o.pcFree [rn] = true →
      (s.CanGoOn → WritesFlags i s (op.flags (s.reg rn) (o.eval s) s.cpsr.v)) ∧
      (¬s.CanGoOn → exec i s = .fault .pcWrap))

/-- Rd = r15 in a data-processing instruction (R272): without S a branch to the result, its low bits ignored or
forbidden by version; with S the exception return, a fault where the mode has no SPSR. -/
def Obligations.DataProcessingWritesPc : Prop :=
  (∀ (op : ArithOp) (o : Op2) (cond : Cond) (rn : Reg) (s : State), s.cpsr.passed cond = true →
    o.pcFree [rn, 15#4] = true →
    let v := op.value (s.reg rn) (o.eval s).value s.cpsr.c
    exec (op.instr o cond false rn 15#4) s = s.pcWritten v ∧
      ((∃ t, s.returnTo v = .next t) → exec (op.instr o cond true rn 15#4) s = s.returnTo v) ∧
      ((¬∃ t, s.returnTo v = .next t) → Faults (op.instr o cond true rn 15#4) s)) ∧
  (∀ (op : LogicOp) (o : Op2) (cond : Cond) (rn : Reg) (s : State), s.cpsr.passed cond = true →
    o.pcFree (op.others rn 15#4) = true →
    let v := op.value (s.reg rn) (o.eval s).value
    exec (op.instr o cond false rn 15#4) s = s.pcWritten v ∧
      ((∃ t, s.returnTo v = .next t) → exec (op.instr o cond true rn 15#4) s = s.returnTo v) ∧
      ((¬∃ t, s.returnTo v = .next t) → Faults (op.instr o cond true rn 15#4) s))

/-- CLZ (R290): the number of zero bits above the highest set bit, 32 for 0; the flags are kept. -/
def Obligations.CountLeadingZeros : Prop :=
  ∀ (cond : Cond) (rd rm : Reg) (s : State), s.cpsr.passed cond = true →
    (rd = 15#4 ∨ rm = 15#4 → Faults (.clz cond rd rm) s) ∧
    (rd ≠ 15#4 → rm ≠ 15#4 → s.CanGoOn → ∃ k ≤ 32,
      (k < 32 → (s.reg rm).getLsbD (31 - k) = true) ∧ (∀ j < k, (s.reg rm).getLsbD (31 - j) = false) ∧
      WritesReg (.clz cond rd rm) s rd (BitVec.ofNat 32 k) s.cpsr.nzcv)

/-! ## Multiplies and saturating arithmetic (42_arm_multiply_and_saturating.md) -/

/-- MUL, MLA (R300 to R302) and the long multiplies (R303 to R306): the product or sum modulo 2^32 or 2^64; under S, N
and Z of it; C, and for the long ones V, are kept from version 5 and free before. -/
def Obligations.Multiplies : Prop :=
  (∀ (cond : Cond) (setFlags : Bool) (rd rn rs rm : Reg) (s : State), s.cpsr.passed cond = true →
    (rd = 15#4 ∨ rs = 15#4 ∨ rm = 15#4 ∨ rd = rm →
      Faults (.mul cond setFlags rd rs rm) s ∧ Faults (.mla cond setFlags rd rn rs rm) s) ∧
    (rn = 15#4 → Faults (.mla cond setFlags rd rn rs rm) s) ∧
    (rd ≠ 15#4 → rs ≠ 15#4 → rm ≠ 15#4 → rd ≠ rm → s.CanGoOn →
      (let r := s.reg rm * s.reg rs;
        Completes (.mul cond setFlags rd rs rm) s fun t =>
          t.reg rd = r ∧ s.MulFlags t setFlags r.msb (decide (r = 0#32)) ∧ s.GoesOnDrawing t [rd]) ∧
      (rn ≠ 15#4 →
        let r := s.reg rm * s.reg rs + s.reg rn
        Completes (.mla cond setFlags rd rn rs rm) s fun t =>
          t.reg rd = r ∧ s.MulFlags t setFlags r.msb (decide (r = 0#32)) ∧ s.GoesOnDrawing t [rd]))) ∧
  (∀ (op : LongOp) (cond : Cond) (setFlags : Bool) (rdHi rdLo rs rm : Reg) (s : State), s.cpsr.passed cond = true →
    let i := op.instr cond setFlags rdHi rdLo rs rm
    (rdHi = 15#4 ∨ rdLo = 15#4 ∨ rs = 15#4 ∨ rm = 15#4 ∨ rdLo = rdHi ∨ rdLo = rm ∨ rdHi = rm → Faults i s) ∧
    (rdHi ≠ 15#4 → rdLo ≠ 15#4 → rs ≠ 15#4 → rm ≠ 15#4 → rdLo ≠ rdHi → rdLo ≠ rm → rdHi ≠ rm → s.CanGoOn →
      let r := BitVec.ofInt 64 (op.value (s.reg rdHi ++ s.reg rdLo) (s.reg rm) (s.reg rs))
      Completes i s fun t =>
        t.reg rdHi ++ t.reg rdLo = r ∧ s.LongMulFlags t setFlags r.msb (decide (r = 0#64)) ∧
          s.GoesOnDrawing t [rdLo, rdHi]))

/-- SMULxy, SMULWy, SMLAxy, SMLAWy and SMLALxy (R307 to R311): signed halves; the accumulating ones wrap, and set Q when
the signed sum does not fit. -/
def Obligations.HalfwordMultiplies : Prop :=
  ∀ (cond : Cond) (rd rn rs rm : Reg) (y x : Bool) (s : State), s.cpsr.passed cond = true →
    let product := halfInt (s.reg rm) x * halfInt (s.reg rs) y
    let wide := (s.reg rm).toInt * halfInt (s.reg rs) y / 2 ^ 16
    (rd = 15#4 ∨ rs = 15#4 ∨ rm = 15#4 →
      Faults (.smulXY cond rd rs y x rm) s ∧ Faults (.smulwY cond rd rs y rm) s ∧
      Faults (.smlaXY cond rd rn rs y x rm) s ∧ Faults (.smlawY cond rd rn rs y rm) s ∧
      Faults (.smlalXY cond rd rn rs y x rm) s) ∧
    (rn = 15#4 →
      Faults (.smlaXY cond rd rn rs y x rm) s ∧ Faults (.smlawY cond rd rn rs y rm) s ∧
      Faults (.smlalXY cond rd rn rs y x rm) s) ∧
    (rd = rn → Faults (.smlalXY cond rd rn rs y x rm) s) ∧
    (rd ≠ 15#4 → rs ≠ 15#4 → rm ≠ 15#4 → s.CanGoOn →
      WritesReg (.smulXY cond rd rs y x rm) s rd (BitVec.ofInt 32 product) s.cpsr.nzcv ∧
      WritesReg (.smulwY cond rd rs y rm) s rd (BitVec.ofInt 32 wide) s.cpsr.nzcv ∧
      (rn ≠ 15#4 →
        (let sum := product + (s.reg rn).toInt;
          WritesRegQ (.smlaXY cond rd rn rs y x rm) s rd (BitVec.ofInt 32 sum) (!fits32 sum)) ∧
        (let sum := wide + (s.reg rn).toInt;
          WritesRegQ (.smlawY cond rd rn rs y rm) s rd (BitVec.ofInt 32 sum) (!fits32 sum)) ∧
        (rd ≠ rn → Completes (.smlalXY cond rd rn rs y x rm) s fun t =>
          t.reg rd ++ t.reg rn = BitVec.ofInt 64 ((s.reg rd ++ s.reg rn).toInt + product) ∧
            s.FlagsKept t ∧ s.GoesOn t [rd, rn])))

/-- QADD, QSUB, QDADD and QDSUB (R315 to R319): the nearest signed word, Q set when any step saturated, never cleared. -/
def Obligations.SaturatingArithmetic : Prop :=
  ∀ (cond : Cond) (rn rd rm : Reg) (s : State), s.cpsr.passed cond = true →
    let m := (s.reg rm).toInt
    let n := (s.reg rn).toInt
    let d := clamp32 (2 * n)
    (rn = 15#4 ∨ rd = 15#4 ∨ rm = 15#4 →
      Faults (.qadd cond rn rd rm) s ∧ Faults (.qsub cond rn rd rm) s ∧ Faults (.qdadd cond rn rd rm) s ∧
      Faults (.qdsub cond rn rd rm) s) ∧
    (rn ≠ 15#4 → rd ≠ 15#4 → rm ≠ 15#4 → s.CanGoOn →
      WritesRegQ (.qadd cond rn rd rm) s rd (BitVec.ofInt 32 (clamp32 (m + n))) (!fits32 (m + n)) ∧
      WritesRegQ (.qsub cond rn rd rm) s rd (BitVec.ofInt 32 (clamp32 (m - n))) (!fits32 (m - n)) ∧
      WritesRegQ (.qdadd cond rn rd rm) s rd (BitVec.ofInt 32 (clamp32 (m + d)))
        (!fits32 (2 * n) || !fits32 (m + d)) ∧
      WritesRegQ (.qdsub cond rn rd rm) s rd (BitVec.ofInt 32 (clamp32 (m - d)))
        (!fits32 (2 * n) || !fits32 (m - d)))

/-- MIA, MIAPH, MIAxy (R312 to R314), MAR and MRA (R366, R367): the 40-bit accumulator adds the exact product modulo 2^40;
the moves take and give its 40 bits, sign-extended on the way out. -/
def Obligations.Accumulator : Prop :=
  ∀ (cond : Cond) (rs rm : Reg) (y x : Bool) (s : State), s.cpsr.passed cond = true →
    let m := s.reg rm
    let r := s.reg rs
    let acc := s.acc0.toInt
    (rs = 15#4 ∨ rm = 15#4 →
      Faults (.mia cond rs rm) s ∧ Faults (.miaph cond rs rm) s ∧ Faults (.miaXY cond x y rs rm) s ∧
      Faults (.mar cond rs rm) s ∧ Faults (.mra cond rs rm) s) ∧
    (rs = rm → Faults (.mra cond rs rm) s) ∧
    (rs ≠ 15#4 → rm ≠ 15#4 → s.CanGoOn →
      WritesAcc (.mia cond rs rm) s (BitVec.ofInt 40 (acc + m.toInt * r.toInt)) ∧
      WritesAcc (.miaph cond rs rm) s
        (BitVec.ofInt 40 (acc + halfInt m false * halfInt r false + halfInt m true * halfInt r true)) ∧
      WritesAcc (.miaXY cond x y rs rm) s (BitVec.ofInt 40 (acc + halfInt m x * halfInt r y)) ∧
      WritesAcc (.mar cond rs rm) s (BitVec.ofNat 40 (r.toNat % 2 ^ 8 * 2 ^ 32 + m.toNat)) ∧
      (rs ≠ rm → Completes (.mra cond rs rm) s fun t =>
        (t.reg rs ++ t.reg rm).toInt = acc ∧ s.FlagsKept t ∧ s.GoesOn t [rs, rm]))

/-! ## Memory (20_memory.md) and the ARM transfers (40_arm_memory_access.md) -/

/-- Memory reads back what was written, in either byte order (R72), and a write leaves every other byte alone; the bytes
of a word lie at its address and the three after it, least significant first or last. A halfword or word with a byte that
nothing has written has no value (R51, R860), and no byte of the memory after reset has one. -/
def Obligations.MemoryReadsBack : Prop :=
  ∀ (s : State) (a : Word) (b : Byte) (h : Half) (w : Word),
    (s.setByte a b).byte a = some b ∧ (s.setHalf a h).half a = some h ∧ (s.setWord a w).word a = some w ∧
      s.MemKeptOutside (s.setByte a b) a 1 ∧ s.MemKeptOutside (s.setHalf a h) a 2 ∧
      s.MemKeptOutside (s.setWord a w) a 4 ∧
      (∀ v, s.word a = some v → ∀ j < 4, s.byte (a + BitVec.ofNat 32 j) =
        some (v.extractLsb' (if s.cfg.bigEndian then 24 - 8 * j else 8 * j) 8)) ∧
      (∀ v, s.half a = some v → ∀ j < 2, s.byte (a + BitVec.ofNat 32 j) =
        some (v.extractLsb' (if s.cfg.bigEndian then 8 - 8 * j else 8 * j) 8)) ∧
      (s.word a = none ↔ ∃ j < 4, s.byte (a + BitVec.ofNat 32 j) = none) ∧
      (s.half a = none ↔ ∃ j < 2, s.byte (a + BitVec.ofNat 32 j) = none) ∧ State.reset.byte a = none

/-- LDR, LDRT, LDRB and LDRBT (R230 to R238, R240, R75) to a register other than r15: the word at the address rounded
down, rotated by the low bits, or the byte zero-extended; the base after it where the form says so. Where memory has no
value they fault (R51, R860). -/
def Obligations.LoadsWordAndByte : Prop :=
  ∀ (f : WordForm) (cond : Cond) (rd : Reg) (s : State), s.cpsr.passed cond = true →
    let a := (f.address s).addr
    (f.regsOk rd = false → Faults (f.ldr cond rd) s ∧ Faults (f.ldrb cond rd) s) ∧
    (rd = 15#4 → Faults (f.ldrb cond rd) s) ∧
    (f.regsOk rd = true → s.WordAlignOk a → s.allowed (a &&& 0xFFFFFFFC#32) 4 .read (f.privileged s) = true →
      s.word (a &&& 0xFFFFFFFC#32) = none → exec (f.ldr cond rd) s = .fault .unwritten) ∧
    (f.regsOk rd = true → rd ≠ 15#4 → s.allowed a 1 .read (f.privileged s) = true → s.byte a = none →
      exec (f.ldrb cond rd) s = .fault .unwritten) ∧
    (f.regsOk rd = true → rd ≠ 15#4 → s.CanGoOn →
      (s.WordAlignOk a → s.allowed (a &&& 0xFFFFFFFC#32) 4 .read (f.privileged s) = true →
        ∀ v, s.word (a &&& 0xFFFFFFFC#32) = some v → Completes (f.ldr cond rd) s fun t =>
          t.reg rd = v.rotateRight (8 * (a.toNat % 4)) ∧
          (f.writeback = true → t.reg f.base = (f.address s).target) ∧ s.FlagsKept t ∧ s.GoesOn t (f.written rd)) ∧
      (s.allowed a 1 .read (f.privileged s) = true →
        ∀ v, s.byte a = some v → Completes (f.ldrb cond rd) s fun t =>
          t.reg rd = v.zeroExtend 32 ∧
          (f.writeback = true → t.reg f.base = (f.address s).target) ∧ s.FlagsKept t ∧ s.GoesOn t (f.written rd)))

/-- LDR with Rd = r15 (R232): a branch to the loaded word, which selects the state in v5T; a forbidden word faults. -/
def Obligations.LoadOfPc : Prop :=
  ∀ (f : WordForm) (cond : Cond) (s : State), s.cpsr.passed cond = true →
    let a := (f.address s).addr
    (f.regsOk 15#4 = false → Faults (f.ldr cond 15#4) s) ∧
    (f.regsOk 15#4 = true → s.WordAlignOk a → s.allowed (a &&& 0xFFFFFFFC#32) 4 .read (f.privileged s) = true →
      ∀ data, s.word (a &&& 0xFFFFFFFC#32) = some data →
      let v := data.rotateRight (8 * (a.toNat % 4))
      (s.loadTarget v = none → Faults (f.ldr cond 15#4) s) ∧
      (∀ thumb target, s.loadTarget v = some (thumb, target) → Completes (f.ldr cond 15#4) s fun t =>
        t.pc = target ∧ t.cpsr = { s.cpsr with t := thumb } ∧
        (f.writeback = true → t.reg f.base = (f.address s).target) ∧ s.RegsKept t f.writtenBase ∧
        t = { s with gpr := t.gpr, pc := t.pc, cpsr := t.cpsr }))

/-- STR, STRT, STRB and STRBT (R230, R233, R235, R237, R239, R241, R75): the word goes to the address rounded down, the
low byte to the address; r15 is stored as the word `PCSTOREOFFSET` says. -/
def Obligations.StoresWordAndByte : Prop :=
  ∀ (f : WordForm) (cond : Cond) (rd : Reg) (s : State), s.cpsr.passed cond = true →
    let a := (f.address s).addr
    let stored := if rd = 15#4 then s.pc + (if s.cfg.pcStoreOffset = .eight then 8#32 else 12#32) else s.reg rd
    (f.regsOk rd = false → Faults (f.str cond rd) s ∧ Faults (f.strb cond rd) s) ∧
    (rd = 15#4 → Faults (f.strb cond rd) s) ∧
    (f.regsOk rd = true → s.CanGoOn →
      (s.WordAlignOk a → s.allowed (a &&& 0xFFFFFFFC#32) 4 .write (f.privileged s) = true →
        Completes (f.str cond rd) s fun t =>
          t.word (a &&& 0xFFFFFFFC#32) = some stored ∧
          (f.writeback = true → t.reg f.base = (f.address s).target) ∧
          s.GoesOnStoring t f.writtenBase (a &&& 0xFFFFFFFC#32) 4) ∧
      (rd ≠ 15#4 → s.allowed a 1 .write (f.privileged s) = true →
        Completes (f.strb cond rd) s fun t =>
          t.byte a = some ((s.reg rd).extractLsb' 0 8) ∧
          (f.writeback = true → t.reg f.base = (f.address s).target) ∧ s.GoesOnStoring t f.writtenBase a 1))

/-- LDRH, LDRSH, LDRSB and LDRD (R242, R243, R245 to R247, R75); where memory has no value they fault (R51, R860). -/
def Obligations.LoadsHalfByteAndDouble : Prop :=
  ∀ (f : HalfForm) (cond : Cond) (rd : Reg) (s : State), s.cpsr.passed cond = true →
    let a := (f.address s).addr
    let based (t : State) : Prop := f.writeback = true → t.reg f.base = (f.address s).target
    (f.regsOk rd = false →
      Faults (f.ldrh cond rd) s ∧ Faults (f.ldrsh cond rd) s ∧ Faults (f.ldrsb cond rd) s) ∧
    (f.pairOk rd = false ∨ f.offsetFree rd = false → Faults (f.ldrd cond rd) s) ∧
    (f.regsOk rd = true → s.CanGoOn →
      (a &&& 1#32 = 0#32 → s.allowed a 2 .read s.privileged = true →
        ∀ v, s.half a = some v →
          (Completes (f.ldrh cond rd) s fun t => t.reg rd = v.zeroExtend 32 ∧ based t ∧ s.FlagsKept t ∧
            s.GoesOn t (rd :: f.writtenBase)) ∧
          (Completes (f.ldrsh cond rd) s fun t => t.reg rd = v.signExtend 32 ∧ based t ∧ s.FlagsKept t ∧
            s.GoesOn t (rd :: f.writtenBase))) ∧
      (s.allowed a 1 .read s.privileged = true → ∀ v, s.byte a = some v →
        Completes (f.ldrsb cond rd) s fun t => t.reg rd = v.signExtend 32 ∧ based t ∧ s.FlagsKept t ∧
          s.GoesOn t (rd :: f.writtenBase))) ∧
    (f.regsOk rd = true →
      (a &&& 1#32 = 0#32 → s.allowed a 2 .read s.privileged = true → s.half a = none →
        exec (f.ldrh cond rd) s = .fault .unwritten ∧ exec (f.ldrsh cond rd) s = .fault .unwritten) ∧
      (s.allowed a 1 .read s.privileged = true → s.byte a = none → exec (f.ldrsb cond rd) s = .fault .unwritten)) ∧
    (f.pairOk rd = true → f.offsetFree rd = true → a &&& 7#32 = 0#32 →
      s.allowed a 4 .read s.privileged = true → s.allowed (a + 4#32) 4 .read s.privileged = true →
      (s.word a = none ∨ s.word (a + 4#32) = none → exec (f.ldrd cond rd) s = .fault .unwritten) ∧
      (s.CanGoOn → ∀ v w, s.word a = some v → s.word (a + 4#32) = some w →
        Completes (f.ldrd cond rd) s fun t => t.reg rd = v ∧ t.reg (rd + 1#4) = w ∧ based t ∧
          s.FlagsKept t ∧ s.GoesOn t (rd :: (rd + 1#4) :: f.writtenBase)))

/-- STRH and STRD (R242, R244, R248, R75). -/
def Obligations.StoresHalfAndDouble : Prop :=
  ∀ (f : HalfForm) (cond : Cond) (rd : Reg) (s : State), s.cpsr.passed cond = true →
    let a := (f.address s).addr
    let based (t : State) : Prop := f.writeback = true → t.reg f.base = (f.address s).target
    (f.regsOk rd = false → Faults (f.strh cond rd) s) ∧
    (f.pairOk rd = false → Faults (f.strd cond rd) s) ∧
    (f.regsOk rd = true → s.CanGoOn → a &&& 1#32 = 0#32 →
      s.allowed a 2 .write s.privileged = true →
      Completes (f.strh cond rd) s fun t =>
        t.half a = some ((s.reg rd).extractLsb' 0 16) ∧ based t ∧ s.GoesOnStoring t f.writtenBase a 2) ∧
    (f.pairOk rd = true → s.CanGoOn → a &&& 7#32 = 0#32 →
      s.allowed a 4 .write s.privileged = true → s.allowed (a + 4#32) 4 .write s.privileged = true →
      Completes (f.strd cond rd) s fun t =>
        t.word a = some (s.reg rd) ∧ t.word (a + 4#32) = some (s.reg (rd + 1#4)) ∧ based t ∧
          s.GoesOnStoring t f.writtenBase a 8)

/-- Where a single transfer takes the Data Abort exception instead (R75, R80): a refused access, a misaligned one under
alignment checking; misaligned halfwords and double words fault without it. That a refused access comes before memory
without a value is the model's choice (notes/assumptions/10). -/
def Obligations.DataAbortsOfSingleTransfers : Prop :=
  (∀ (f : WordForm) (cond : Cond) (rd : Reg) (s : State), s.cpsr.passed cond = true → f.regsOk rd = true →
    let a := (f.address s).addr
    (¬s.WordAlignOk a → Takes (f.ldr cond rd) s .dataAbort ∧ Takes (f.str cond rd) s .dataAbort) ∧
    (s.allowed (a &&& 0xFFFFFFFC#32) 4 .read (f.privileged s) = false → Takes (f.ldr cond rd) s .dataAbort) ∧
    (s.allowed (a &&& 0xFFFFFFFC#32) 4 .write (f.privileged s) = false → Takes (f.str cond rd) s .dataAbort) ∧
    (rd ≠ 15#4 → s.allowed a 1 .read (f.privileged s) = false → Takes (f.ldrb cond rd) s .dataAbort) ∧
    (rd ≠ 15#4 → s.allowed a 1 .write (f.privileged s) = false → Takes (f.strb cond rd) s .dataAbort)) ∧
  (∀ (f : HalfForm) (cond : Cond) (rd : Reg) (s : State), s.cpsr.passed cond = true → f.regsOk rd = true →
    let a := (f.address s).addr
    (s.allowed a 1 .read s.privileged = false → Takes (f.ldrsb cond rd) s .dataAbort) ∧
    (a &&& 1#32 = 0#32 → s.allowed a 2 .read s.privileged = false →
      Takes (f.ldrh cond rd) s .dataAbort ∧ Takes (f.ldrsh cond rd) s .dataAbort) ∧
    (a &&& 1#32 = 0#32 → s.allowed a 2 .write s.privileged = false → Takes (f.strh cond rd) s .dataAbort) ∧
    (a &&& 1#32 ≠ 0#32 → s.cfg.alignCheck = true → Takes (f.ldrh cond rd) s .dataAbort ∧
      Takes (f.ldrsh cond rd) s .dataAbort ∧ Takes (f.strh cond rd) s .dataAbort) ∧
    (a &&& 1#32 ≠ 0#32 → s.cfg.alignCheck = false → exec (f.ldrh cond rd) s = .fault .misaligned ∧
      exec (f.ldrsh cond rd) s = .fault .misaligned ∧ exec (f.strh cond rd) s = .fault .misaligned)) ∧
  (∀ (f : HalfForm) (cond : Cond) (rd : Reg) (s : State), s.cpsr.passed cond = true → f.pairOk rd = true →
    let a := (f.address s).addr
    (a &&& 7#32 = 0#32 →
      (s.allowed a 4 .read s.privileged = false ∨ s.allowed (a + 4#32) 4 .read s.privileged = false) →
      f.offsetFree rd = true → Takes (f.ldrd cond rd) s .dataAbort) ∧
    (a &&& 7#32 = 0#32 →
      (s.allowed a 4 .write s.privileged = false ∨ s.allowed (a + 4#32) 4 .write s.privileged = false) →
      Takes (f.strd cond rd) s .dataAbort) ∧
    (a &&& 7#32 ≠ 0#32 → s.cfg.alignCheck = true → Takes (f.strd cond rd) s .dataAbort ∧
      (f.offsetFree rd = true → Takes (f.ldrd cond rd) s .dataAbort)) ∧
    (a &&& 7#32 ≠ 0#32 → s.cfg.alignCheck = false → exec (f.strd cond rd) s = .fault .misaligned ∧
      (f.offsetFree rd = true → exec (f.ldrd cond rd) s = .fault .misaligned)))

/-- SWP and SWPB (R257, R258): Rd takes the old word, rotated as LDR rotates it, or byte; memory takes Rm. Where memory
has no value they fault (R51, R860), after a refused access by the model's choice (notes/assumptions/10). -/
def Obligations.Swap : Prop :=
  ∀ (cond : Cond) (rn rd rm : Reg) (s : State), s.cpsr.passed cond = true →
    let a := s.reg rn
    let w := a &&& 0xFFFFFFFC#32
    (rn = 15#4 ∨ rd = 15#4 ∨ rm = 15#4 ∨ rn = rd ∨ rn = rm →
      Faults (.swp cond rn rd rm) s ∧ Faults (.swpb cond rn rd rm) s) ∧
    (rn ≠ 15#4 → rd ≠ 15#4 → rm ≠ 15#4 → rn ≠ rd → rn ≠ rm →
      (¬s.WordAlignOk a → Takes (.swp cond rn rd rm) s .dataAbort) ∧
      (s.allowed w 4 .read s.privileged = false ∨ s.allowed w 4 .write s.privileged = false →
        Takes (.swp cond rn rd rm) s .dataAbort) ∧
      (s.allowed a 1 .read s.privileged = false ∨ s.allowed a 1 .write s.privileged = false →
        Takes (.swpb cond rn rd rm) s .dataAbort) ∧
      (s.WordAlignOk a → s.allowed w 4 .read s.privileged = true → s.allowed w 4 .write s.privileged = true →
        (s.word w = none → exec (.swp cond rn rd rm) s = .fault .unwritten) ∧
        (s.CanGoOn → ∀ v, s.word w = some v → Completes (.swp cond rn rd rm) s fun t =>
          t.reg rd = v.rotateRight (8 * (a.toNat % 4)) ∧ t.word w = some (s.reg rm) ∧
            s.GoesOnStoring t [rd] w 4)) ∧
      (s.allowed a 1 .read s.privileged = true → s.allowed a 1 .write s.privileged = true →
        (s.byte a = none → exec (.swpb cond rn rd rm) s = .fault .unwritten) ∧
        (s.CanGoOn → ∀ v, s.byte a = some v → Completes (.swpb cond rn rd rm) s fun t =>
          t.reg rd = v.zeroExtend 32 ∧ t.byte a = some ((s.reg rm).extractLsb' 0 8) ∧
            s.GoesOnStoring t [rd] a 1)))

/-- The registers of a list (R110, R249): those whose bit is set, each once, in ascending order; and the lowest address
and the final base of the four modes IA, IB, DA, DB. -/
def Obligations.BlockAddresses : Prop :=
  (∀ regs : BitVec 16,
    (∀ r : Reg, r ∈ regList regs ↔ regs.getLsbD r.toNat = true) ∧
    (regList regs).Pairwise fun a b => a.toNat < b.toNat) ∧
  (∀ (base : Word) (n : Nat),
    let size := BitVec.ofNat 32 (4 * n)
    blockStart false true base n = base ∧ blockStart true true base n = base + 4#32 ∧
      blockStart false false base n = base - size + 4#32 ∧ blockStart true false base n = base - size ∧
      blockEnd true base n = base + size ∧ blockEnd false base n = base - size)

/-- LDM without `^` and without r15 (R249, R250, R255): the registers of the list hold the words in ascending order; the
base is written with `!` only; where it faults, and where it takes the Data Abort exception (the order of these stops is
the model's choice, notes/assumptions/10). -/
def Obligations.LoadMultiple : Prop :=
  ∀ (cond : Cond) (p u w : Bool) (rn : Reg) (regs : BitVec 16) (s : State), s.cpsr.passed cond = true →
    let i := Instr.ldm cond p u w rn regs
    let list := regList regs
    let n := list.length
    let base := s.reg rn
    let a := blockStart p u base n &&& 0xFFFFFFFC#32
    (list = [] ∨ rn = 15#4 ∨ (w = true ∧ rn ∈ list) → Faults i s) ∧
    (list ≠ [] → rn ≠ 15#4 → (w = true → rn ∉ list) →
      BlockStops i s base a n .read ∧
      (s.BlockOk base a n .read → regs.getLsbD 15 = false → s.CanGoOn → Completes i s fun t =>
        s.LoadedFrom t a list ∧ (w = true → t.reg rn = blockEnd u base n) ∧ s.FlagsKept t ∧
          s.GoesOn t (if w then rn :: list else list)))

/-- LDM with r15 in the list (R250, R253, R232, R614): without `^` a branch to the last word as R232 says; with `^` the
exception return, the registers being those of the mode it leaves, and where it stops before that (the order of these
stops is the model's choice, notes/assumptions/10). -/
def Obligations.LoadMultipleOfPc : Prop :=
  (∀ (cond : Cond) (p u w : Bool) (rn : Reg) (regs : BitVec 16) (s : State), s.cpsr.passed cond = true →
    let i := Instr.ldm cond p u w rn regs
    let list := regList regs
    let n := list.length
    let base := s.reg rn
    let a := blockStart p u base n &&& 0xFFFFFFFC#32
    let written := list.filter (· ≠ 15#4)
    regs.getLsbD 15 = true → rn ≠ 15#4 → (w = true → rn ∉ list) → s.BlockOk base a n .read →
    ∀ v, s.word (a + BitVec.ofNat 32 (4 * (n - 1))) = some v →
    (s.loadTarget v = none → Faults i s) ∧
    (∀ thumb target, s.loadTarget v = some (thumb, target) → Completes i s fun t =>
      t.pc = target ∧ t.cpsr = { s.cpsr with t := thumb } ∧ s.LoadedFrom t a list ∧
        (w = true → t.reg rn = blockEnd u base n) ∧ s.RegsKept t (if w then rn :: written else written) ∧
        t = { s with gpr := t.gpr, pc := t.pc, cpsr := t.cpsr })) ∧
  (∀ (cond : Cond) (p u w : Bool) (rn : Reg) (regs : BitVec 15) (s : State), s.cpsr.passed cond = true →
    let i := Instr.ldmReturn cond p u w rn regs
    let list := regList regs
    let n := list.length
    let base := s.reg rn
    let bank := bankOf s.cpsr.m
    let a := blockStart p u base (n + 1) &&& 0xFFFFFFFC#32
    (rn = 15#4 ∨ s.hasSpsr = false ∨ (w = true ∧ rn ∈ list) → Faults i s) ∧
    (rn ≠ 15#4 → s.hasSpsr = true → (w = true → rn ∉ list) → BlockStops i s base a (n + 1) .read) ∧
    (rn ≠ 15#4 → s.hasSpsr = true → (w = true → rn ∉ list) → s.BlockOk base a (n + 1) .read →
      ∀ v, s.word (a + BitVec.ofNat 32 (4 * n)) = some v →
      (modeLegal s.cfg.arch s.spsr.m = false ∨ (s.spsr.t = true ∧ s.cfg.arch.thumb = false) → Faults i s) ∧
      (modeLegal s.cfg.arch s.spsr.m = true → (s.spsr.t = true → s.cfg.arch.thumb = true) → Completes i s fun t =>
        t.pc = v &&& (if s.spsr.t then 0xFFFFFFFE#32 else 0xFFFFFFFC#32) ∧ t.cpsr = s.spsr ∧
          (∀ j r, list[j]? = some r → s.word (a + BitVec.ofNat 32 (4 * j)) = some (t.bankReg bank r)) ∧
          (w = true → t.bankReg bank rn = blockEnd u base (n + 1)) ∧
          s.RegsKept t (if w then rn :: list else list) ∧
          t = { s with gpr := t.gpr, pc := t.pc, cpsr := t.cpsr })))

/-- STM without `^` (R249, R251, R255, R233): the words of the list in ascending order; with `!`, a base in the list is
its lowest register and is stored as it was; where it stops (in an order that is the model's choice,
notes/assumptions/10). -/
def Obligations.StoreMultiple : Prop :=
  ∀ (cond : Cond) (p u w : Bool) (rn : Reg) (regs : BitVec 16) (s : State), s.cpsr.passed cond = true →
    let i := Instr.stm cond p u w rn regs
    let list := regList regs
    let n := list.length
    let base := s.reg rn
    let a := blockStart p u base n &&& 0xFFFFFFFC#32
    (list = [] ∨ rn = 15#4 ∨ (w = true ∧ rn ∈ list ∧ list.head? ≠ some rn) → Faults i s) ∧
    (list ≠ [] → rn ≠ 15#4 → (w = true → rn ∈ list → list.head? = some rn) →
      BlockStops i s base a n .write ∧
      (s.BlockOk base a n .write → s.CanGoOn → Completes i s fun t =>
        t.WordsAt a (list.map s.regStored) ∧ (w = true → t.reg rn = blockEnd u base n) ∧
          s.GoesOnStoring t (if w then [rn] else []) a (4 * n)))

/-- LDM and STM with `^` for the User-mode registers (R252, R254): a fault with `!` and in User and System mode; else the
User-mode registers are loaded or stored, whatever the mode; where that stops (the order of the stops is the model's
choice, notes/assumptions/10). -/
def Obligations.UserBankTransfers : Prop :=
  (∀ (cond : Cond) (p u w : Bool) (rn : Reg) (regs : BitVec 15) (s : State), s.cpsr.passed cond = true →
    let i := Instr.ldmUser cond p u w rn regs
    let list := regList regs
    let n := list.length
    let a := blockStart p u (s.reg rn) n &&& 0xFFFFFFFC#32
    (list = [] ∨ rn = 15#4 ∨ w = true ∨ s.hasSpsr = false → Faults i s) ∧
    (list ≠ [] → rn ≠ 15#4 → w = false → s.hasSpsr = true → BlockStops i s (s.reg rn) a n .read) ∧
    (list ≠ [] → rn ≠ 15#4 → w = false → s.hasSpsr = true → s.BlockOk (s.reg rn) a n .read → s.CanGoOn →
      Completes i s fun t =>
        (∀ j r, list[j]? = some r → s.word (a + BitVec.ofNat 32 (4 * j)) = some (t.userReg r)) ∧ s.UserRegsKept t list ∧
          t = { s with gpr := t.gpr, pc := s.next })) ∧
  (∀ (cond : Cond) (p u w : Bool) (rn : Reg) (regs : BitVec 16) (s : State), s.cpsr.passed cond = true →
    let i := Instr.stmUser cond p u w rn regs
    let list := regList regs
    let n := list.length
    let a := blockStart p u (s.reg rn) n &&& 0xFFFFFFFC#32
    (list = [] ∨ rn = 15#4 ∨ w = true ∨ s.hasSpsr = false → Faults i s) ∧
    (list ≠ [] → rn ≠ 15#4 → w = false → s.hasSpsr = true → BlockStops i s (s.reg rn) a n .write) ∧
    (list ≠ [] → rn ≠ 15#4 → w = false → s.hasSpsr = true → s.BlockOk (s.reg rn) a n .write → s.CanGoOn →
      Completes i s fun t =>
        t.WordsAt a (list.map fun r => if r = 15#4 then s.regStored r else s.userReg r) ∧
          s.GoesOnStoring t [] a (4 * n)))

/-! ## ARM branches (43_arm_branch.md), SWI, status registers, BKPT, PLD (45_arm_misc_and_pseudo.md) -/

/-- The branches of both states. ARM (R330 to R334): B, BL, BX and both forms of BLX, the target, the link in r14, the
state. Thumb (R450 to R456): B with and without a condition, the halves of BL and BLX, BX and BLX of a register. -/
def Obligations.Branches : Prop :=
  (∀ (cond : Cond) (imm24 : BitVec 24) (rm : Reg) (s : State), s.cpsr.passed cond = true →
    let target := s.pc + 8#32 + BitVec.ofInt 32 (4 * imm24.toInt)
    let linked := s.setReg 14#4 (s.pc + 4#32)
    exec (.b cond imm24) s = .next (s.setPc target) ∧
      exec (.bl cond imm24) s = .next (linked.setPc target) ∧
      exec (.bx cond rm) s = s.interworked (s.reg rm) ∧
      (rm = 15#4 → Faults (.blxReg cond rm) s) ∧
      (rm ≠ 15#4 → exec (.blxReg cond rm) s = linked.interworked (s.reg rm))) ∧
  (∀ (h : Bool) (imm24 : BitVec 24) (s : State),
    exec (.blxLabel h imm24) s = .next (((s.setReg 14#4 (s.pc + 4#32)).setThumb true).setPc
      (s.pc + 8#32 + BitVec.ofInt 32 (4 * imm24.toInt) + (if h then 2#32 else 0#32)))) ∧
  (∀ (cond : Cond) (imm8 : BitVec 8) (imm11 : BitVec 11) (imm10 : BitVec 10) (h2 : Bool) (rm : LowReg) (s : State),
    let lr := s.reg 14#4
    let linked := s.setReg 14#4 ((s.pc + 2#32) ||| 1#32)
    let r := bit1 h2 ++ rm
    exec (.tB imm11) s = .next (s.setPc (s.pc + 4#32 + BitVec.ofInt 32 (2 * imm11.toInt))) ∧
    (s.cpsr.passed cond = true →
      exec (.tBCond cond imm8) s = .next (s.setPc (s.pc + 4#32 + BitVec.ofInt 32 (2 * imm8.toInt)))) ∧
    (s.CanGoOn → exec (.tBlFirst imm11) s =
      .next ((s.setReg 14#4 (s.pc + 4#32 + BitVec.ofInt 32 (4096 * imm11.toInt))).setPc s.next)) ∧
    exec (.tBlSecond imm11) s =
      .next (linked.setPc ((lr + BitVec.ofNat 32 (2 * imm11.toNat)) &&& 0xFFFFFFFE#32)) ∧
    exec (.tBlxSecond imm10) s =
      .next ((linked.setThumb false).setPc ((lr + BitVec.ofNat 32 (4 * imm10.toNat)) &&& 0xFFFFFFFC#32)) ∧
    exec (.tBx h2 rm) s = s.interworked (s.reg r) ∧
    (r = 15#4 → Faults (.tBlxReg h2 rm) s) ∧
    (r ≠ 15#4 → exec (.tBlxReg h2 rm) s = linked.interworked (s.reg r)))

/-- SWI in both states (R360, R457, R606, R15): the exception, but for the semihosting call that ends the run; BKPT in
both states (R365, R458, R608); the unallocated encodings (R117, R134, R604); PLD, a hint without effect (R256). -/
def Obligations.SoftwareInterruptBreakpointAndHint : Prop :=
  (∀ (cond : Cond) (imm24 : BitVec 24) (imm8 : BitVec 8) (s : State),
    let exits := s.cfg.semihosting = true ∧ s.reg 0#4 = 0x18#32
    let ended : Host.Outcome State Fault Refusal := .next { s with exited := some (s.reg 1#4) }
    (s.cpsr.passed cond = true →
      (exits ∧ imm24 = 0x123456#24 → exec (.swi cond imm24) s = ended) ∧
      (¬(exits ∧ imm24 = 0x123456#24) → Takes (.swi cond imm24) s .swi)) ∧
    (exits ∧ imm8 = 0xAB#8 → exec (.tSwi imm8) s = ended) ∧
    (¬(exits ∧ imm8 = 0xAB#8) → Takes (.tSwi imm8) s .swi)) ∧
  (∀ (cond : Cond) (immHi : BitVec 12) (immLo : BitVec 4) (imm8 : BitVec 8) (s : State),
    (s.cpsr.passed cond = true → cond ≠ .al → Faults (.bkpt cond immHi immLo) s) ∧
    (s.cfg.bkpt = .prefetchAbort →
      Takes (.bkpt .al immHi immLo) s .prefetchAbort ∧ Takes (.tBkpt imm8) s .prefetchAbort) ∧
    (s.cfg.bkpt = .debugStop → exec (.bkpt .al immHi immLo) s = .fault (.breakpoint (immHi ++ immLo)) ∧
      exec (.tBkpt imm8) s = .fault (.breakpoint (imm8.zeroExtend 16)))) ∧
  (∀ (bits : BitVec 28) (imm8 : BitVec 8) (s : State),
    Takes (.unallocatedUncond bits) s .undefined ∧ Takes (.tUnallocated imm8) s .undefined) ∧
  (∀ (u : Bool) (rn rm : Reg) (imm12 : BitVec 12) (n : BitVec 5) (shift : ShiftType) (s : State),
    (rm = 15#4 → Faults (.pldReg u rn n shift rm) s) ∧
    (s.CanGoOn → exec (.pldImm u rn imm12) s = .next (s.setPc s.next) ∧
      (rm ≠ 15#4 → exec (.pldReg u rn n shift rm) s = .next (s.setPc s.next))))

/-- MRS (R361, R31, R38): each bit of the status register, the SPSR only where the mode has one. MSR, both forms (R362
to R364): the selected bytes; in User mode only the flags; a change of T, where there is Thumb, and an illegal mode
fault. -/
def Obligations.StatusRegisterMoves : Prop :=
  (∀ (cond : Cond) (r : Bool) (rd : Reg) (s : State), s.cpsr.passed cond = true →
    (rd = 15#4 ∨ (r = true ∧ s.hasSpsr = false) → Faults (.mrs cond r rd) s) ∧
    (rd ≠ 15#4 → (r = true → s.hasSpsr = true) → s.CanGoOn → Completes (.mrs cond r rd) s fun t =>
      let v := t.reg rd
      let p := if r then s.spsr else s.cpsr
      v.getLsbD 31 = p.n ∧ v.getLsbD 30 = p.z ∧ v.getLsbD 29 = p.c ∧ v.getLsbD 28 = p.v ∧ v.getLsbD 27 = p.q ∧
        v.extractLsb' 8 19 = 0#19 ∧ v.getLsbD 7 = p.i ∧ v.getLsbD 6 = p.f ∧ v.getLsbD 5 = p.t ∧
        v.extractLsb' 0 5 = p.m ∧ s.FlagsKept t ∧ s.GoesOn t [rd])) ∧
  (∀ (cond : Cond) (r : Bool) (fields rot : BitVec 4) (imm8 : BitVec 8) (rm : Reg) (s : State),
    s.cpsr.passed cond = true →
    (rm = 15#4 → Faults (.msrReg cond r fields rm) s) ∧
    (rm ≠ 15#4 → s.MsrDoes (.msrReg cond r fields rm) r fields (s.reg rm)) ∧
    s.MsrDoes (.msrImm cond r fields rot imm8) r fields (s.op2Imm rot imm8).value)

/-! ## Coprocessors (44_arm_coprocessor.md) -/

/-- CDP, MCR, MRC, MCRR, MRRC and the unconditional forms (R340 to R348): with a present coprocessor that accepts, the
command reaches it with its operands and mode, and its answer the registers, or the flags for MRC of r15; otherwise the
Undefined Instruction exception. -/
def Obligations.CoprocessorTransfers : Prop :=
  ∀ (cond : Cond) (o4 crn crm cp : BitVec 4) (o3 opc2 : BitVec 3) (rd rn : Reg) (s : State),
    s.cpsr.passed cond = true →
    let done (c : CoprocCommand) : State :=
      { s with coproc := { cp := cp, mode := s.cpsr.m, command := c } :: s.coproc }
    let moved (t : State) : Host.Outcome State Fault Refusal := .next (t.setPc s.next)
    let v := s.answer.first
    let flags : Nzcv := { n := v.getLsbD 31, z := v.getLsbD 30, c := v.getLsbD 29, v := v.getLsbD 28 }
    (¬(s.coprocPresent cp = true ∧ s.answer.accept = true) →
      Takes (.cdp cond o4 crn rd cp opc2 crm) s .undefined ∧ Takes (.cdp2 o4 crn rd cp opc2 crm) s .undefined ∧
      Takes (.mcr cond o3 crn rd cp opc2 crm) s .undefined ∧ Takes (.mcr2 o3 crn rd cp opc2 crm) s .undefined ∧
      Takes (.mrc cond o3 crn rd cp opc2 crm) s .undefined ∧ Takes (.mrc2 o3 crn rd cp opc2 crm) s .undefined ∧
      Takes (.mcrr cond rn rd cp o4 crm) s .undefined ∧ Takes (.mrrc cond rn rd cp o4 crm) s .undefined) ∧
    (s.coprocPresent cp = true → s.answer.accept = true →
      (rd = 15#4 → Faults (.mcr cond o3 crn rd cp opc2 crm) s ∧ Faults (.mcr2 o3 crn rd cp opc2 crm) s) ∧
      (rd = 15#4 ∨ rn = 15#4 → Faults (.mcrr cond rn rd cp o4 crm) s ∧ Faults (.mrrc cond rn rd cp o4 crm) s) ∧
      (rd = rn → Faults (.mrrc cond rn rd cp o4 crm) s) ∧
      (s.CanGoOn →
        exec (.cdp cond o4 crn rd cp opc2 crm) s = moved (done (.dataOp false o4 crn rd opc2 crm)) ∧
        exec (.cdp2 o4 crn rd cp opc2 crm) s = moved (done (.dataOp true o4 crn rd opc2 crm)) ∧
        (rd ≠ 15#4 →
          exec (.mcr cond o3 crn rd cp opc2 crm) s = moved (done (.toCp false o3 crn opc2 crm (s.reg rd))) ∧
          exec (.mcr2 o3 crn rd cp opc2 crm) s = moved (done (.toCp true o3 crn opc2 crm (s.reg rd))) ∧
          exec (.mrc cond o3 crn rd cp opc2 crm) s =
            moved ((done (.fromCp false o3 crn opc2 crm)).setReg rd v) ∧
          exec (.mrc2 o3 crn rd cp opc2 crm) s = moved ((done (.fromCp true o3 crn opc2 crm)).setReg rd v)) ∧
        exec (.mrc cond o3 crn 15#4 cp opc2 crm) s =
          moved ((done (.fromCp false o3 crn opc2 crm)).setNzcv flags) ∧
        exec (.mrc2 o3 crn 15#4 cp opc2 crm) s = moved ((done (.fromCp true o3 crn opc2 crm)).setNzcv flags) ∧
        (rd ≠ 15#4 → rn ≠ 15#4 →
          exec (.mcrr cond rn rd cp o4 crm) s = moved (done (.toCp2 o4 crm (s.reg rd) (s.reg rn))) ∧
          (rd ≠ rn → exec (.mrrc cond rn rd cp o4 crm) s =
            moved (((done (.fromCp2 o4 crm)).setReg rd v).setReg rn s.answer.second)))))

/-- LDC, STC, LDC2 and STC2 (R349 to R352): with a present coprocessor that accepts, the words from the address, or to
it, in ascending order, and the base where the form says so; otherwise the Undefined Instruction exception. A misaligned
address (R75, R607(b)) comes before the top of memory and that before a refused word, by the model's choice
(notes/assumptions/10). -/
def Obligations.CoprocessorLoadsAndStores : Prop :=
  ∀ (cond : Cond) (u long w : Bool) (rn : Reg) (crd cp : BitVec 4) (offset8 : BitVec 8) (s : State),
    s.cpsr.passed cond = true →
    let off := BitVec.ofNat 32 (4 * offset8.toNat)
    let pre := s.addressForm true u w rn off
    let post := s.addressForm false u true rn off
    (¬(s.coprocPresent cp = true ∧ s.answer.accept = true) →
      ∀ i ∈ [Instr.ldcPre cond u long w rn crd cp offset8, .ldcPost cond u long rn crd cp offset8,
          .ldc2Pre u long w rn crd cp offset8, .ldc2Post u long rn crd cp offset8,
          .stcPre cond u long w rn crd cp offset8, .stcPost cond u long rn crd cp offset8,
          .stc2Pre u long w rn crd cp offset8, .stc2Post u long rn crd cp offset8],
        Takes i s .undefined) ∧
    (s.coprocPresent cp = true → s.answer.accept = true →
      CoprocLoads (.ldcPre cond u long w rn crd cp offset8) s false long cp crd rn pre ∧
      CoprocLoads (.ldcPost cond u long rn crd cp offset8) s false long cp crd rn post ∧
      CoprocLoads (.ldc2Pre u long w rn crd cp offset8) s true long cp crd rn pre ∧
      CoprocLoads (.ldc2Post u long rn crd cp offset8) s true long cp crd rn post ∧
      CoprocStores (.stcPre cond u long w rn crd cp offset8) s false long cp crd rn pre ∧
      CoprocStores (.stcPost cond u long rn crd cp offset8) s false long cp crd rn post ∧
      CoprocStores (.stc2Pre u long w rn crd cp offset8) s true long cp crd rn pre ∧
      CoprocStores (.stc2Post u long rn crd cp offset8) s true long cp crd rn post)

/-! ## Thumb (46_thumb_memory_access.md, 47_thumb_data_processing.md, 48_thumb_branch_swi_pseudo.md) -/

/-- The Thumb additions, subtractions and MUL on low registers (R411 to R416, R422 to R424, R443): result and flags; C
and V after MUL are kept from version 5 and free before; MUL of a register by itself into itself faults. -/
def Obligations.ThumbArithmetic : Prop :=
  ∀ (rm rn rd : LowReg) (imm3 : BitVec 3) (imm8 : BitVec 8) (s : State),
    let m := s.reg (lowReg rm)
    let n := s.reg (lowReg rn)
    let d := s.reg (lowReg rd)
    let i3 := imm3.zeroExtend 32
    let i8 := imm8.zeroExtend 32
    let c := s.cpsr.c
    (rm = rd → Faults (.tMul rm rd) s) ∧
    (s.CanGoOn →
      WritesReg (.tAddReg3 rm rn rd) s (lowReg rd) (n + m) (sumFlags n m false) ∧
      WritesReg (.tSubReg3 rm rn rd) s (lowReg rd) (n - m) (differenceFlags n m false) ∧
      WritesReg (.tAddImm3 imm3 rn rd) s (lowReg rd) (n + i3) (sumFlags n i3 false) ∧
      WritesReg (.tSubImm3 imm3 rn rd) s (lowReg rd) (n - i3) (differenceFlags n i3 false) ∧
      WritesReg (.tAddImm8 rd imm8) s (lowReg rd) (d + i8) (sumFlags d i8 false) ∧
      WritesReg (.tSubImm8 rd imm8) s (lowReg rd) (d - i8) (differenceFlags d i8 false) ∧
      WritesReg (.tAdc rm rd) s (lowReg rd) (d + m + bitWord c) (sumFlags d m c) ∧
      WritesReg (.tSbc rm rd) s (lowReg rd) (d - m - bitWord (!c)) (differenceFlags d m (!c)) ∧
      WritesReg (.tNeg rm rd) s (lowReg rd) (0#32 - m) (differenceFlags 0#32 m false) ∧
      (rm ≠ rd → Completes (.tMul rm rd) s fun t =>
        t.reg (lowReg rd) = d * m ∧ s.LongMulFlags t true (d * m).msb (decide (d * m = 0#32)) ∧
          s.GoesOnDrawing t [lowReg rd]))

/-- The Thumb logic, move and shift instructions on low registers (R425 to R436, R440, R442): N and Z of the result, V
kept; C is kept by logic and moves and is the last bit shifted out by a shift. -/
def Obligations.ThumbLogicAndShifts : Prop :=
  ∀ (rm rd : LowReg) (imm5 : BitVec 5) (imm8 : BitVec 8) (s : State), s.CanGoOn →
    let m := s.reg (lowReg rm)
    let d := s.reg (lowReg rd)
    let logic (i : Instr) (v : Word) : Prop := WritesReg i s (lowReg rd) v (resultFlags v s.cpsr.c s.cpsr.v)
    let shift (i : Instr) (o : Shifted) : Prop :=
      WritesReg i s (lowReg rd) o.value (resultFlags o.value o.carry s.cpsr.v)
    logic (.tAnd rm rd) (d &&& m) ∧ logic (.tOrr rm rd) (d ||| m) ∧ logic (.tEor rm rd) (d ^^^ m) ∧
      logic (.tBic rm rd) (d &&& ~~~m) ∧ logic (.tMvn rm rd) (~~~m) ∧
      logic (.tMovImm8 rd imm8) (imm8.zeroExtend 32) ∧
      shift (.tLslReg rm rd) (s.op2Reg (lowReg rm) .lsl (lowReg rd)) ∧
      shift (.tLsrReg rm rd) (s.op2Reg (lowReg rm) .lsr (lowReg rd)) ∧
      shift (.tAsrReg rm rd) (s.op2Reg (lowReg rm) .asr (lowReg rd)) ∧
      shift (.tRor rm rd) (s.op2Reg (lowReg rm) .ror (lowReg rd)) ∧
      shift (.tLslImm imm5 rm rd) (s.op2Const imm5 .lsl (lowReg rm)) ∧
      shift (.tLsrImm imm5 rm rd) (s.op2Const imm5 .lsr (lowReg rm)) ∧
      shift (.tAsrImm imm5 rm rd) (s.op2Const imm5 .asr (lowReg rm))

/-- The Thumb forms that leave the flags alone (R417 to R421, R441): ADD and MOV with a high register, where r15 is a
branch in Thumb state and two low registers fault; the sp and pc forms. -/
def Obligations.ThumbHighRegisters : Prop :=
  ∀ (h1 h2 : Bool) (rm rd : LowReg) (imm7 : BitVec 7) (imm8 : BitVec 8) (s : State),
    let d := bit1 h1 ++ rd
    let m := s.reg (bit1 h2 ++ rm)
    (h1 = false → h2 = false → Faults (.tAddHigh h1 h2 rm rd) s ∧ Faults (.tMovHigh h1 h2 rm rd) s) ∧
    ((h1 = true ∨ h2 = true) →
      (d = 15#4 →
        exec (.tAddHigh h1 h2 rm rd) s = .next (s.setPc ((s.reg d + m) &&& 0xFFFFFFFE#32)) ∧
        exec (.tMovHigh h1 h2 rm rd) s = .next (s.setPc (m &&& 0xFFFFFFFE#32))) ∧
      (d ≠ 15#4 → s.CanGoOn →
        WritesReg (.tAddHigh h1 h2 rm rd) s d (s.reg d + m) s.cpsr.nzcv ∧
        WritesReg (.tMovHigh h1 h2 rm rd) s d m s.cpsr.nzcv)) ∧
    (s.CanGoOn →
      WritesReg (.tAddSp imm7) s 13#4 (s.reg 13#4 + BitVec.ofNat 32 (4 * imm7.toNat)) s.cpsr.nzcv ∧
      WritesReg (.tSubSp imm7) s 13#4 (s.reg 13#4 - BitVec.ofNat 32 (4 * imm7.toNat)) s.cpsr.nzcv ∧
      WritesReg (.tAddPcImm rd imm8) s (lowReg rd)
        (((s.pc + 4#32) &&& 0xFFFFFFFC#32) + BitVec.ofNat 32 (4 * imm8.toNat)) s.cpsr.nzcv ∧
      WritesReg (.tAddSpImm rd imm8) s (lowReg rd) (s.reg 13#4 + BitVec.ofNat 32 (4 * imm8.toNat)) s.cpsr.nzcv)

/-- The Thumb comparisons and TST (R437 to R439, R444): only the flags change; CMP with a high-register encoding of two
low registers faults. -/
def Obligations.ThumbCompares : Prop :=
  ∀ (h1 h2 : Bool) (rm rd : LowReg) (imm8 : BitVec 8) (s : State),
    let m := s.reg (lowReg rm)
    let d := s.reg (lowReg rd)
    (h1 = false → h2 = false → Faults (.tCmpHigh h1 h2 rm rd) s) ∧
    (s.CanGoOn →
      WritesFlags (.tCmpImm8 rd imm8) s (differenceFlags d (imm8.zeroExtend 32) false) ∧
      WritesFlags (.tCmpLow rm rd) s (differenceFlags d m false) ∧
      WritesFlags (.tCmn rm rd) s (sumFlags d m false) ∧
      WritesFlags (.tTst rm rd) s (resultFlags (d &&& m) s.cpsr.c s.cpsr.v) ∧
      ((h1 = true ∨ h2 = true) → WritesFlags (.tCmpHigh h1 h2 rm rd) s
        (differenceFlags (s.reg (bit1 h1 ++ rd)) (s.reg (bit1 h2 ++ rm)) false)))

/-- The Thumb loads and stores of a word, halfword or byte (R380 to R397): the address, the alignment, the value. -/
def Obligations.ThumbSingleTransfers : Prop :=
  (∀ (imm5 : BitVec 5) (imm8 : BitVec 8) (rm rn rd : LowReg) (s : State),
    let n := s.reg (lowReg rn)
    let by5 (k : Nat) : Word := n + BitVec.ofNat 32 (k * imm5.toNat)
    let byReg := n + s.reg (lowReg rm)
    let byPc := ((s.pc + 4#32) &&& 0xFFFFFFFC#32) + BitVec.ofNat 32 (4 * imm8.toNat)
    let bySp := s.reg 13#4 + BitVec.ofNat 32 (4 * imm8.toNat)
    ThumbLoads (.tLdrImm imm5 rn rd) s rd (by5 4) 3#32 4 (s.word (by5 4)) ∧
    ThumbLoads (.tLdrReg rm rn rd) s rd byReg 3#32 4 (s.word byReg) ∧
    ThumbLoads (.tLdrPc rd imm8) s rd byPc 3#32 4 (s.word byPc) ∧
    ThumbLoads (.tLdrSpRel rd imm8) s rd bySp 3#32 4 (s.word bySp) ∧
    ThumbLoads (.tLdrhImm imm5 rn rd) s rd (by5 2) 1#32 2 ((s.half (by5 2)).map (·.zeroExtend 32)) ∧
    ThumbLoads (.tLdrhReg rm rn rd) s rd byReg 1#32 2 ((s.half byReg).map (·.zeroExtend 32)) ∧
    ThumbLoads (.tLdrshReg rm rn rd) s rd byReg 1#32 2 ((s.half byReg).map (·.signExtend 32)) ∧
    ThumbLoads (.tLdrbImm imm5 rn rd) s rd (by5 1) 0#32 1 ((s.byte (by5 1)).map (·.zeroExtend 32)) ∧
    ThumbLoads (.tLdrbReg rm rn rd) s rd byReg 0#32 1 ((s.byte byReg).map (·.zeroExtend 32)) ∧
    ThumbLoads (.tLdrsbReg rm rn rd) s rd byReg 0#32 1 ((s.byte byReg).map (·.signExtend 32))) ∧
  (∀ (imm5 : BitVec 5) (imm8 : BitVec 8) (rm rn rd : LowReg) (s : State),
    let n := s.reg (lowReg rn)
    let d := s.reg (lowReg rd)
    let by5 (k : Nat) : Word := n + BitVec.ofNat 32 (k * imm5.toNat)
    let byReg := n + s.reg (lowReg rm)
    let bySp := s.reg 13#4 + BitVec.ofNat 32 (4 * imm8.toNat)
    ThumbStores (.tStrImm imm5 rn rd) s (by5 4) 3#32 4 (fun t => t.word (by5 4) = some d) ∧
    ThumbStores (.tStrReg rm rn rd) s byReg 3#32 4 (fun t => t.word byReg = some d) ∧
    ThumbStores (.tStrSpRel rd imm8) s bySp 3#32 4 (fun t => t.word bySp = some d) ∧
    ThumbStores (.tStrhImm imm5 rn rd) s (by5 2) 1#32 2 (fun t => t.half (by5 2) = some (d.extractLsb' 0 16)) ∧
    ThumbStores (.tStrhReg rm rn rd) s byReg 1#32 2 (fun t => t.half byReg = some (d.extractLsb' 0 16)) ∧
    ThumbStores (.tStrbImm imm5 rn rd) s (by5 1) 0#32 1 (fun t => t.byte (by5 1) = some (d.extractLsb' 0 8)) ∧
    ThumbStores (.tStrbReg rm rn rd) s byReg 0#32 1 (fun t => t.byte byReg = some (d.extractLsb' 0 8)))

/-- PUSH and STMIA (R398, R401): the registers in ascending order, r14 last; sp or the base moves by their size; a base
in the list of STMIA must be its lowest register. The order of the stops is the model's choice
(notes/assumptions/10). -/
def Obligations.ThumbStoreMultiple : Prop :=
  (∀ (r : Bool) (regs : BitVec 8) (s : State),
    let list := regList regs ++ (if r then [14#4] else [])
    let n := list.length
    let start := s.reg 13#4 - BitVec.ofNat 32 (4 * n)
    let a := start &&& 0xFFFFFFFC#32
    (list = [] → Faults (.tPush r regs) s) ∧
    (list ≠ [] →
      BlockStops (.tPush r regs) s start a n .write ∧
      (s.BlockOk start a n .write → s.CanGoOn → Completes (.tPush r regs) s fun t =>
        t.WordsAt a (list.map s.reg) ∧ t.reg 13#4 = start ∧ s.GoesOnStoring t [13#4] a (4 * n)))) ∧
  (∀ (rn : LowReg) (regs : BitVec 8) (s : State),
    let list := regList regs
    let n := list.length
    let start := s.reg (lowReg rn)
    let a := start &&& 0xFFFFFFFC#32
    let i := Instr.tStmia rn regs
    (list = [] ∨ (lowReg rn ∈ list ∧ list.head? ≠ some (lowReg rn)) → Faults i s) ∧
    (list ≠ [] → (lowReg rn ∈ list → list.head? = some (lowReg rn)) →
      BlockStops i s start a n .write ∧
      (s.BlockOk start a n .write → s.CanGoOn → Completes i s fun t =>
        t.WordsAt a (list.map s.reg) ∧ t.reg (lowReg rn) = start + BitVec.ofNat 32 (4 * n) ∧
          s.GoesOnStoring t [lowReg rn] a (4 * n))))

/-- POP and LDMIA (R399, R400): the registers in ascending order; POP of the pc branches, and selects the state from
version 5; a base in the list of LDMIA takes the loaded word, else it moves by their size. The order of the stops is the
model's choice (notes/assumptions/10). -/
def Obligations.ThumbLoadMultiple : Prop :=
  (∀ (r : Bool) (regs : BitVec 8) (s : State),
    let list := regList regs
    let n := list.length + (if r then 1 else 0)
    let start := s.reg 13#4
    let a := start &&& 0xFFFFFFFC#32
    let i := Instr.tPop r regs
    let loaded (t : State) : Prop :=
      s.LoadedFrom t a list ∧ t.reg 13#4 = start + BitVec.ofNat 32 (4 * n) ∧ s.RegsKept t (13#4 :: list)
    (n = 0 → Faults i s) ∧
    (n ≠ 0 →
      BlockStops i s start a n .read ∧
      (s.BlockOk start a n .read →
        (r = false → s.CanGoOn → Completes i s fun t =>
          loaded t ∧ t = { s with gpr := t.gpr, pc := s.next }) ∧
        (∀ v, r = true → s.word (a + BitVec.ofNat 32 (4 * (n - 1))) = some v →
          (s.cfg.arch.version = .v5 → v &&& 3#32 = 2#32 → Faults i s) ∧
          (s.cfg.arch.version = .v5 → v &&& 3#32 ≠ 2#32 → Completes i s fun t =>
            loaded t ∧ t = { s with
              gpr := t.gpr, pc := v &&& 0xFFFFFFFE#32, cpsr := { s.cpsr with t := v.getLsbD 0 } }) ∧
          (s.cfg.arch.version ≠ .v5 → Completes i s fun t =>
            loaded t ∧ t = { s with gpr := t.gpr, pc := v &&& 0xFFFFFFFE#32 }))))) ∧
  (∀ (rn : LowReg) (regs : BitVec 8) (s : State),
    let list := regList regs
    let n := list.length
    let start := s.reg (lowReg rn)
    let a := start &&& 0xFFFFFFFC#32
    let i := Instr.tLdmia rn regs
    (list = [] → Faults i s) ∧
    (list ≠ [] →
      BlockStops i s start a n .read ∧
      (s.BlockOk start a n .read → s.CanGoOn → Completes i s fun t =>
        s.LoadedFrom t a list ∧ (lowReg rn ∉ list → t.reg (lowReg rn) = start + BitVec.ofNat 32 (4 * n)) ∧
          s.FlagsKept t ∧ s.GoesOn t (lowReg rn :: list))))

/-! ## The VFP (49_vfp.md) -/

/-- What the patterns of the registers stand for, and the results on operands that are not ordinary numbers (R501, R504,
R505, R513 to R518): the fields of a pattern; a denormalized number read as +0 in flush-to-zero mode; NaNs; sums,
products, quotients and roots with an infinity; the invalid operations; the division by zero. -/
def Obligations.VfpSpecialOperands : Prop :=
  (∀ w : Word, fpSingle.PatternMeans w.toNat (w.getLsbD 31) (w.extractLsb' 23 8).toNat (w.extractLsb' 0 23).toNat 127) ∧
  (∀ w : DWord,
    fpDouble.PatternMeans w.toNat (w.getLsbD 63) (w.extractLsb' 52 11).toNat (w.extractLsb' 0 52).toNat 1023) ∧
  fpSingle.infBits = 0x7F800000 ∧ fpDouble.infBits = 0x7FF0000000000000 ∧
  fpSingle.defaultNan = 0x7FC00000 ∧ fpDouble.defaultNan = 0x7FF8000000000000 ∧
  (∀ f ∈ [fpSingle, fpDouble], ∀ (m : FpMode) (a b : Nat), a < 2 ^ f.width → b < 2 ^ f.width →
    let va := f.unpack (f.operand m a)
    let vb := f.unpack (f.operand m b)
    let e := f.operandExc m a ||| f.operandExc m b
    let inf (x : Bool) : FpResult := { bits := f.infBits + f.signBits x, exc := e }
    let invalid : FpResult := { bits := f.defaultNan, exc := excIOC ||| e }
    f.NanRule a b e (f.add m a b) ∧ f.NanRule a b e (f.sub m a b) ∧ f.NanRule a b e (f.mul m a b) ∧
    f.NanRule a b e (f.div m a b) ∧ f.NanRule a a (f.operandExc m a) (f.sqrt m a) ∧
    (∀ x y, va = .inf x → vb = .inf y →
      f.add m a b = (if x = y then inf x else invalid) ∧ f.sub m a b = (if x = y then invalid else inf x) ∧
      f.mul m a b = inf (x != y) ∧ f.div m a b = invalid) ∧
    (∀ x y mant exp, va = .inf x → vb = .fin y mant exp →
      f.add m a b = inf x ∧ f.sub m a b = inf x ∧ f.mul m a b = (if mant = 0 then invalid else inf (x != y)) ∧
      f.div m a b = inf (x != y)) ∧
    (∀ x y mant exp, va = .fin x mant exp → vb = .inf y →
      f.add m a b = inf y ∧ f.sub m a b = inf (!y) ∧ f.mul m a b = (if mant = 0 then invalid else inf (x != y)) ∧
      f.div m a b = { bits := f.signBits (x != y), exc := e }) ∧
    (∀ x y ma ea eb, va = .fin x ma ea → vb = .fin y 0 eb →
      f.div m a b =
        if ma = 0 then invalid else { bits := f.infBits + f.signBits (x != y), exc := excDZC ||| e }) ∧
    (va = .inf false → f.sqrt m a = { bits := f.infBits, exc := f.operandExc m a }) ∧
    (va = .inf true ∨ (∃ mant exp, mant ≠ 0 ∧ va = .fin true mant exp) →
      f.sqrt m a = { bits := f.defaultNan, exc := excIOC ||| f.operandExc m a }))

/-- The arithmetic on finite numbers is the exact result rounded once, with its exceptions (R504, R505, R513 to R518): sums,
differences, products, quotients and square roots, with the signs of zero results. FNMUL flips the sign of the rounded
product, that of a flushed one too (notes/assumptions/26). The multiply-accumulate family rounds the product, then the sum
(R519 to R523, D32), the signs flipped as notes/assumptions/13 says. -/
def Obligations.VfpArithmeticIsCorrect : Prop :=
  ∀ f ∈ [fpSingle, fpDouble], ∀ (m : FpMode) (a b d : Nat), a < 2 ^ f.width → b < 2 ^ f.width → d < 2 ^ f.width →
    let ea := f.operandExc m a
    let e := ea ||| f.operandExc m b
    (∀ (sa sb : Bool) (x y : ℝ), f.ReadsAs m a sa x → f.ReadsAs m b sb y →
      f.Yields m (x + y) (if sa = sb then sa else decide (m.rounding = .minusInfinity)) e (f.add m a b) ∧
      f.Yields m (x - y) (if sa ≠ sb then sa else decide (m.rounding = .minusInfinity)) e (f.sub m a b) ∧
      f.Yields m (x * y) (sa != sb) e (f.mul m a b) ∧
      (y ≠ 0 → f.Yields m (x / y) (sa != sb) e (f.div m a b))) ∧
    (∀ (sa : Bool) (x : ℝ), f.ReadsAs m a sa x → 0 ≤ x → f.Yields m (Real.sqrt x) sa ea (f.sqrt m a)) ∧
    (let p := f.mul m a b
     f.nmul m a b = { bits := f.otherSign p.bits, exc := p.exc } ∧
     ∀ negD negP : Bool,
       let d' := f.operand m d
       let r := f.add m (if negD then f.otherSign d' else d') (if negP then f.otherSign p.bits else p.bits)
       f.mulAdd m negD negP d a b = { bits := r.bits, exc := r.exc ||| p.exc ||| f.operandExc m d })

/-- The VFP arithmetic on scalars (R503, R504, R510 to R523): Fd takes the result, FPSCR the exceptions. What the results
are `VfpArithmeticIsCorrect` and `VfpSpecialOperands` say. -/
def Obligations.VfpScalarArithmetic : Prop :=
  ∀ (cond : Cond) (s : State), s.cpsr.passed cond = true → s.vfpEnabled = true → s.CanGoOn →
    (s.trapEnables = 0#5 → ∀ op : VfpOp,
      (∀ fn fd fm : SReg, s.scalar .single fd.toNat →
        let r := op.result fpSingle s.fpMode (s.sreg fd.toNat).toNat (s.sreg fn.toNat).toNat (s.sreg fm.toNat).toNat
        WritesSingle (op.single cond fn fd fm) s fd.toNat (BitVec.ofNat 32 r.bits) r.exc) ∧
      (∀ fn fd fm : DReg, s.scalar .double fd.toNat →
        let r := op.result fpDouble s.fpMode (s.dreg fd.toNat).toNat (s.dreg fn.toNat).toNat (s.dreg fm.toNat).toNat
        WritesDouble (op.double cond fn fd fm) s fd.toNat (BitVec.ofNat 64 r.bits) r.exc)) ∧
    (∀ op : VfpUnary, (op.arithmetic = true → s.trapEnables = 0#5) →
      (∀ fd fm : SReg, s.scalar .single fd.toNat →
        let r := op.result fpSingle s.fpMode (s.sreg fm.toNat).toNat
        WritesSingle (op.single cond fd fm) s fd.toNat (BitVec.ofNat 32 r.bits) r.exc) ∧
      (∀ fd fm : DReg, s.scalar .double fd.toNat →
        let r := op.result fpDouble s.fpMode (s.dreg fm.toNat).toNat
        WritesDouble (op.double cond fd fm) s fd.toNat (BitVec.ofNat 64 r.bits) r.exc))

/-- The VFP arithmetic on vectors (R502, R503): element by element, Fm a scalar where it is in the first bank; each
result goes to its place, the other registers stay, the exceptions of all elements are added; an illegal length, stride
or overlap faults. -/
def Obligations.VfpVectorArithmetic : Prop :=
  ∀ (cond : Cond) (sn sd sm : SReg) (dn dd dm : DReg) (s : State), s.cpsr.passed cond = true →
    s.vfpEnabled = true →
    (s.trapEnables = 0#5 → ∀ op : VfpOp,
      VectorDoes .single (op.single cond sn sd sm) s sd.toNat sn.toNat sm.toNat (op.result fpSingle s.fpMode) ∧
      VectorDoes .double (op.double cond dn dd dm) s dd.toNat dn.toNat dm.toNat (op.result fpDouble s.fpMode)) ∧
    (∀ op : VfpUnary, (op.arithmetic = true → s.trapEnables = 0#5) →
      VectorDoes .single (op.single cond sd sm) s sd.toNat sd.toNat sm.toNat
        (fun _ _ m => op.result fpSingle s.fpMode m) ∧
      VectorDoes .double (op.double cond dd dm) s dd.toNat dd.toNat dm.toNat
        (fun _ _ m => op.result fpDouble s.fpMode m))

/-- The VFP comparisons (R506, R524, R525): FPSCR[31:28] says how the two values compare as numbers; an invalid operand
raises Invalid Operation. -/
def Obligations.VfpCompares : Prop :=
  ∀ (cond : Cond) (s : State), s.cpsr.passed cond = true → s.vfpEnabled = true →
    (∀ fd fm : SReg,
      let d := (s.sreg fd.toNat).toNat
      let m := (s.sreg fm.toNat).toNat
      ComparesTo (.fcmps cond fd fm) s fpSingle false d m ∧ ComparesTo (.fcmpes cond fd fm) s fpSingle true d m ∧
        ComparesTo (.fcmpzs cond fd) s fpSingle false d 0 ∧ ComparesTo (.fcmpezs cond fd) s fpSingle true d 0) ∧
    (∀ fd fm : DReg,
      let d := (s.dreg fd.toNat).toNat
      let m := (s.dreg fm.toNat).toNat
      ComparesTo (.fcmpd cond fd fm) s fpDouble false d m ∧ ComparesTo (.fcmped cond fd fm) s fpDouble true d m ∧
        ComparesTo (.fcmpzd cond fd) s fpDouble false d 0 ∧ ComparesTo (.fcmpezd cond fd) s fpDouble true d 0)

/-- The VFP conversions (R526 to R531). Of a NaN, FCVTSD keeps the sign and the quiet bit, and the other fraction bits
are free (notes/assumptions/12). -/
def Obligations.VfpConversions : Prop :=
  ∀ (cond : Cond) (sn sm : SReg) (dn dm : DReg) (s : State), s.cpsr.passed cond = true → s.vfpEnabled = true →
    let m := s.fpMode
    let x := (s.sreg sm.toNat).toNat
    let y := (s.dreg dm.toNat).toNat
    let toDouble (i : Instr) (r : FpResult) : Prop := ConvertsToDouble i s dn.toNat (BitVec.ofNat 64 r.bits) r.exc
    let toSingle (i : Instr) (r : FpResult) : Prop := ConvertsToSingle i s sn.toNat (BitVec.ofNat 32 r.bits) r.exc
    let toInt (i : Instr) (r : Int × FpExc) : Prop := ConvertsToSingle i s sn.toNat (BitVec.ofInt 32 r.1) r.2
    toDouble (.fcvtds cond dn sm) (singleToDouble m x) ∧
    (fpDouble.isNan y = false → toSingle (.fcvtsd cond sn dm) (doubleToSingle m 0 y)) ∧
    (fpDouble.isNan y = true → s.CanGoOn →
      (s.trapEnables.getLsbD 0 = false ∨ fpDouble.signalling y = false) → Completes (.fcvtsd cond sn dm) s fun t =>
        (t.sreg sn.toNat).getLsbD 31 = fpDouble.negative y ∧
          (t.sreg sn.toNat).extractLsb' 22 9 = 0x1FF#9 ∧
          t.fpscr = s.fpscr ||| (if fpDouble.signalling y then 1#32 else 0#32) ∧
          (∀ j < 32, j ≠ sn.toNat → t.sreg j = s.sreg j) ∧
          t = { s with vfp := t.vfp, fpscr := t.fpscr, pc := s.next, draws := t.draws }) ∧
    (fpDouble.signalling y = true → s.trapEnables.getLsbD 0 = true →
      exec (.fcvtsd cond sn dm) s = .refused .vfpTrapEnabled) ∧
    toSingle (.fsitos cond sn sm) (fpSingle.ofInt m (s.sreg sm.toNat).toInt) ∧
    toSingle (.fuitos cond sn sm) (fpSingle.ofInt m (s.sreg sm.toNat).toNat) ∧
    toDouble (.fsitod cond dn sm) (fpDouble.ofInt m (s.sreg sm.toNat).toInt) ∧
    toDouble (.fuitod cond dn sm) (fpDouble.ofInt m (s.sreg sm.toNat).toNat) ∧
    toInt (.ftosis cond sn sm) (fpSingle.toInt m m.rounding (-2 ^ 31) (2 ^ 31 - 1) x) ∧
    toInt (.ftosizs cond sn sm) (fpSingle.toInt m .zero (-2 ^ 31) (2 ^ 31 - 1) x) ∧
    toInt (.ftouis cond sn sm) (fpSingle.toInt m m.rounding 0 (2 ^ 32 - 1) x) ∧
    toInt (.ftouizs cond sn sm) (fpSingle.toInt m .zero 0 (2 ^ 32 - 1) x) ∧
    toInt (.ftosid cond sn dm) (fpDouble.toInt m m.rounding (-2 ^ 31) (2 ^ 31 - 1) y) ∧
    toInt (.ftosizd cond sn dm) (fpDouble.toInt m .zero (-2 ^ 31) (2 ^ 31 - 1) y) ∧
    toInt (.ftouid cond sn dm) (fpDouble.toInt m m.rounding 0 (2 ^ 32 - 1) y) ∧
    toInt (.ftouizd cond sn dm) (fpDouble.toInt m .zero 0 (2 ^ 32 - 1) y)

/-- Rounding (R504, R505, D31) and the conversions (R526 to R531). A magnitude `mant * 2^exp` with a sign becomes the
multiple of `2^q` that the rounding mode asks for, called inexact exactly when it changed; and a number not 0 becomes the
correctly rounded one of a format, or its overflow, with the exceptions. FCVTDS is exact; FCVTSD, FSITO and FUITO deliver
the rounded value; FTOSI and FTOUI the rounded integer, or Invalid Operation and the near end of the range, 0 for a NaN. -/
def Obligations.RoundingIsCorrect : Prop :=
  (∀ (r : Rounding) (negative : Bool) (mant : Nat) (exp q : Int),
    let x := finValue negative mant (exp - q)
    let v := roundQuantum r negative mant exp q
    let signedV : Int := if negative then -(v.1 : Int) else v.1
    RoundedTo r x signedV ∧ (v.2 = true ↔ x ≠ signedV)) ∧
  (∀ f ∈ [fpSingle, fpDouble], ∀ (m : FpMode) (negative : Bool) (mant : Nat) (exp : Int), mant ≠ 0 →
    f.Delivers m (finValue negative mant exp) (f.round m negative mant exp)) ∧
  (∀ f ∈ [fpSingle, fpDouble], ∀ (m : FpMode) (v : Int), f.Yields m v false 0#5 (f.ofInt m v)) ∧
  (∀ f ∈ [fpSingle, fpDouble], ∀ (m : FpMode) (r : Rounding) (lo hi : Int) (a : Nat),
    (f.isNan a = true → f.toInt m r lo hi a = (0, excIOC)) ∧
    (∀ s, f.unpack a = .inf s → f.toInt m r lo hi a = (if s then lo else hi, excIOC)) ∧
    (∀ (s : Bool) (x : ℝ), f.ReadsAs m a s x → ∃ v : ℤ, RoundedTo r x v ∧
      (hi < v → f.toInt m r lo hi a = (hi, excIOC)) ∧ (v ≤ hi → v < lo → f.toInt m r lo hi a = (lo, excIOC)) ∧
      (lo ≤ v → v ≤ hi → x = v → f.toInt m r lo hi a = (v, f.operandExc m a)) ∧
      (lo ≤ v → v ≤ hi → x ≠ v → f.toInt m r lo hi a = (v, excIXC ||| f.operandExc m a)))) ∧
  (∀ (m : FpMode) (a : Nat), a < 2 ^ 32 →
    (∀ s x, fpSingle.ReadsAs m a s x →
      (singleToDouble m a).bits < 2 ^ 64 ∧ (singleToDouble m a).exc = fpSingle.operandExc m a ∧
        ∃ mant exp, fpDouble.unpack (singleToDouble m a).bits = .fin s mant exp ∧ x = finValue s mant exp) ∧
    (∀ s, fpSingle.unpack a = .inf s → singleToDouble m a = { bits := fpDouble.infBits + fpDouble.signBits s, exc := 0#5 }) ∧
    (∀ s frac, fpSingle.unpack a = .nan s frac → singleToDouble m a =
      { bits := fpDouble.signBits s + (0x7FF8000000000000 ||| frac * 2 ^ 29)
        exc := if fpSingle.signalling a then excIOC else 0#5 })) ∧
  (∀ (m : FpMode) (payload a : Nat), a < 2 ^ 64 →
    (∀ s x, fpDouble.ReadsAs m a s x →
      fpSingle.Yields m x s (fpDouble.operandExc m a) (doubleToSingle m payload a)) ∧
    (∀ s, fpDouble.unpack a = .inf s →
      doubleToSingle m payload a = { bits := fpSingle.infBits + fpSingle.signBits s, exc := 0#5 }))

/-- The VFP register transfers (R536 to R544, R500): FMSR, FMRS and the halves of a double register; FMRX and FMXR of
FPSID, FPSCR and FPEXC with what each needs; FMSTAT. -/
def Obligations.VfpRegisterTransfers : Prop :=
  ∀ (cond : Cond) (sn : SReg) (dn : DReg) (rd : Reg) (s : State), s.cpsr.passed cond = true →
    (s.vfpEnabled = true → rd = 15#4 → ∀ i ∈ [Instr.fmsr cond sn rd, .fmrs cond sn rd, .fmdlr cond dn rd,
      .fmrdl cond dn rd, .fmdhr cond dn rd, .fmrdh cond dn rd, .fmrx cond 1#4 rd, .fmxr cond 1#4 rd], Faults i s) ∧
    (s.vfpEnabled = true → s.CanGoOn →
      WritesFlags (.fmstat cond) s
        { n := s.fpscr.getLsbD 31, z := s.fpscr.getLsbD 30, c := s.fpscr.getLsbD 29, v := s.fpscr.getLsbD 28 } ∧
      (rd ≠ 15#4 →
        exec (.fmsr cond sn rd) s = .next ((s.setSreg sn.toNat (s.reg rd)).setPc s.next) ∧
        exec (.fmdlr cond dn rd) s =
          .next ((s.setDreg dn.toNat ((s.dreg dn.toNat).extractLsb' 32 32 ++ s.reg rd)).setPc s.next) ∧
        exec (.fmdhr cond dn rd) s =
          .next ((s.setDreg dn.toNat (s.reg rd ++ (s.dreg dn.toNat).extractLsb' 0 32)).setPc s.next) ∧
        WritesReg (.fmrs cond sn rd) s rd (s.sreg sn.toNat) s.cpsr.nzcv ∧
        WritesReg (.fmrdl cond dn rd) s rd ((s.dreg dn.toNat).extractLsb' 0 32) s.cpsr.nzcv ∧
        WritesReg (.fmrdh cond dn rd) s rd ((s.dreg dn.toNat).extractLsb' 32 32) s.cpsr.nzcv ∧
        WritesReg (.fmrx cond 1#4 rd) s rd s.fpscr s.cpsr.nzcv ∧
        exec (.fmxr cond 1#4 rd) s = .next { s with fpscr := s.reg rd &&& 0xF1F71F1F#32, pc := s.next })) ∧
    (s.cfg.arch.fpu ≠ .none →
      (rd = 15#4 → Faults (.fmrx cond 0#4 rd) s ∧ Faults (.fmxr cond 0#4 rd) s) ∧
      (rd ≠ 15#4 → s.CanGoOn → WritesReg (.fmrx cond 0#4 rd) s rd s.fpsid s.cpsr.nzcv ∧
        exec (.fmxr cond 0#4 rd) s = .next (s.setPc s.next)) ∧
      (s.privileged = true → rd = 15#4 → Faults (.fmrx cond 8#4 rd) s ∧ Faults (.fmxr cond 8#4 rd) s) ∧
      (s.privileged = true → rd ≠ 15#4 → s.CanGoOn → WritesReg (.fmrx cond 8#4 rd) s rd s.fpexc s.cpsr.nzcv ∧
        exec (.fmxr cond 8#4 rd) s = .next { s with fpexc := s.reg rd &&& 0x40000000#32, pc := s.next })) ∧
    (s.privileged = false → Takes (.fmrx cond 8#4 rd) s .undefined ∧ Takes (.fmxr cond 8#4 rd) s .undefined) ∧
    (∀ reg : BitVec 4, reg ≠ 0#4 → reg ≠ 1#4 → reg ≠ 8#4 → s.vfpEnabled = true →
      Faults (.fmrx cond reg rd) s ∧ Faults (.fmxr cond reg rd) s)

/-- FLDS, FLDD, FSTS and FSTD (R532, R533): a word, or two in the order of the byte order, at base plus or minus four
times the offset; no writeback. Under alignment checking a misaligned one is the Data Abort exception (R75, R607(b)). At
0xFFFFFFFC the second word of FLDD and FSTD is the one at 0: the spec computes addresses modulo 2^32 (R78), and that this
holds for them is the model's inference (notes/assumptions/14). A load where memory has no value faults (R51, R860). -/
def Obligations.VfpLoadsAndStores : Prop :=
  ∀ (cond : Cond) (u : Bool) (rn : Reg) (sd : SReg) (dd : DReg) (offset8 : BitVec 8) (s : State),
    s.cpsr.passed cond = true → s.vfpEnabled = true →
    let off := BitVec.ofNat 32 (4 * offset8.toNat)
    let a := if u then s.reg rn + off else s.reg rn - off
    (a &&& 3#32 ≠ 0#32 → ∀ i ∈ [Instr.flds cond u rn sd offset8, .fldd cond u rn dd offset8,
        .fsts cond u rn sd offset8, .fstd cond u rn dd offset8],
      (s.cfg.alignCheck = true → Takes i s .dataAbort) ∧ (s.cfg.alignCheck = false → exec i s = .fault .misaligned)) ∧
    (a &&& 3#32 = 0#32 →
      (s.allowed a 4 .read s.privileged = false → Takes (.flds cond u rn sd offset8) s .dataAbort) ∧
      (s.allowed a 4 .read s.privileged = false ∨ s.allowed (a + 4#32) 4 .read s.privileged = false →
        Takes (.fldd cond u rn dd offset8) s .dataAbort) ∧
      (s.allowed a 4 .write s.privileged = false → Takes (.fsts cond u rn sd offset8) s .dataAbort) ∧
      (s.allowed a 4 .write s.privileged = false ∨ s.allowed (a + 4#32) 4 .write s.privileged = false →
        Takes (.fstd cond u rn dd offset8) s .dataAbort) ∧
      (s.allowed a 4 .read s.privileged = true → s.word a = none →
        exec (.flds cond u rn sd offset8) s = .fault .unwritten) ∧
      (s.allowed a 4 .read s.privileged = true → s.allowed (a + 4#32) 4 .read s.privileged = true →
        s.doubleAt a = none → exec (.fldd cond u rn dd offset8) s = .fault .unwritten) ∧
      (s.CanGoOn →
        (s.allowed a 4 .read s.privileged = true → ∀ v, s.word a = some v →
          WritesSingle (.flds cond u rn sd offset8) s sd.toNat v 0#5) ∧
        (s.allowed a 4 .read s.privileged = true → s.allowed (a + 4#32) 4 .read s.privileged = true →
          ∀ v, s.doubleAt a = some v → WritesDouble (.fldd cond u rn dd offset8) s dd.toNat v 0#5) ∧
        (s.allowed a 4 .write s.privileged = true →
          Completes (.fsts cond u rn sd offset8) s fun t =>
            t.word a = some (s.sreg sd.toNat) ∧ s.GoesOnStoring t [] a 4) ∧
        (s.allowed a 4 .write s.privileged = true → s.allowed (a + 4#32) 4 .write s.privileged = true →
          Completes (.fstd cond u rn dd offset8) s fun t =>
            t.doubleAt a = some (s.dreg dd.toNat) ∧ s.GoesOnStoring t [] a 8)))

/-- FLDM and FSTM of single and double registers (R534, R535), and of unknown precision with their extra word (R560):
consecutive registers at ascending addresses, and the base where the form says so. A misaligned address (R75, R607(b))
comes before the top of memory and that before a refused word, by the model's choice (notes/assumptions/10). -/
def Obligations.VfpBlockTransfers : Prop :=
  ∀ (f : VfpBlock) (cond : Cond) (rn : Reg) (sd : SReg) (dd : DReg) (count8 : BitVec 8) (count7 : BitVec 7) (s : State),
    s.cpsr.passed cond = true → s.vfpEnabled = true →
    let n := count8.toNat
    let k := count7.toNat
    let sf := sd.toNat
    let df := dd.toNat
    let extra := if s.cfg.fldmxExtraWord then 1 else 0
    let badS := n = 0 ∨ 32 < sf + n
    let badD := k = 0 ∨ 16 < df + k
    let loadedS (a : Word) (t : State) : Prop :=
      (∀ j < n, s.word (a + BitVec.ofNat 32 (4 * j)) = some (t.sreg (sf + j))) ∧
      (∀ j < 32, j < sf ∨ sf + n ≤ j → t.sreg j = s.sreg j)
    let loadedD (a : Word) (t : State) : Prop :=
      (∀ j < k, s.doubleAt (a + BitVec.ofNat 32 (8 * j)) = some (t.dreg (df + j))) ∧
      (∀ j < 16, j < df ∨ df + k ≤ j → t.dreg j = s.dreg j)
    let storedS (a : Word) (t : State) : Prop := ∀ j < n, t.word (a + BitVec.ofNat 32 (4 * j)) = some (s.sreg (sf + j))
    let storedD (a : Word) (t : State) : Prop :=
      ∀ j < k, t.doubleAt (a + BitVec.ofNat 32 (8 * j)) = some (s.dreg (df + j))
    VfpBlockLoads (f.fldms cond rn sd count8) s f rn badS n n loadedS ∧
    VfpBlockLoads (f.fldmd cond rn dd count7) s f rn badD (2 * k) (2 * k) loadedD ∧
    VfpBlockLoads (f.fldmx cond rn dd count7) s f rn badD (2 * k + 1) (2 * k + extra) loadedD ∧
    VfpBlockStores (f.fstms cond rn sd count8) s f rn badS n n 0 storedS ∧
    VfpBlockStores (f.fstmd cond rn dd count7) s f rn badD (2 * k) (2 * k) 0 storedD ∧
    VfpBlockStores (f.fstmx cond rn dd count7) s f rn badD (2 * k + 1) (2 * k + extra) extra storedD

/-- Where the VFP instructions do not run: the Undefined Instruction exception while the VFP is absent or disabled
(R500, R542); the refusal of arithmetic while a trap is enabled, which the spec leaves out of scope (R42, R504, D14). -/
def Obligations.VfpDisabledOrTrapping : Prop :=
  (∀ (cond : Cond) (sn sd sm : SReg) (dn dd dm : DReg) (rn rd : Reg) (u : Bool) (off : BitVec 8) (f : VfpBlock)
    (count8 : BitVec 8) (count7 : BitVec 7) (reg : BitVec 4) (s : State),
    s.cpsr.passed cond = true → s.vfpEnabled = false →
    (∀ op : VfpOp, Takes (op.single cond sn sd sm) s .undefined ∧ Takes (op.double cond dn dd dm) s .undefined) ∧
    (∀ op : VfpUnary, Takes (op.single cond sd sm) s .undefined ∧ Takes (op.double cond dd dm) s .undefined) ∧
    (∀ i ∈ [Instr.fcmps cond sd sm, .fcmpd cond dd dm, .fcmpes cond sd sm, .fcmped cond dd dm, .fcmpzs cond sd,
        .fcmpzd cond dd, .fcmpezs cond sd, .fcmpezd cond dd, .fcvtds cond dd sm, .fcvtsd cond sd dm,
        .fuitos cond sd sm, .fuitod cond dd sm, .fsitos cond sd sm, .fsitod cond dd sm, .ftouis cond sd sm,
        .ftouid cond sd dm, .ftouizs cond sd sm, .ftouizd cond sd dm, .ftosis cond sd sm, .ftosid cond sd dm,
        .ftosizs cond sd sm, .ftosizd cond sd dm, .fmsr cond sn rd, .fmrs cond sn rd, .fmdlr cond dn rd,
        .fmrdl cond dn rd, .fmdhr cond dn rd, .fmrdh cond dn rd, .fmstat cond, .flds cond u rn sd off,
        .fldd cond u rn dd off, .fsts cond u rn sd off, .fstd cond u rn dd off, f.fldms cond rn sd count8,
        f.fldmd cond rn dd count7, f.fldmx cond rn dd count7, f.fstms cond rn sd count8, f.fstmd cond rn dd count7,
        f.fstmx cond rn dd count7], Takes i s .undefined) ∧
    (reg ≠ 0#4 → reg ≠ 8#4 → Takes (.fmrx cond reg rd) s .undefined ∧ Takes (.fmxr cond reg rd) s .undefined) ∧
    (s.cfg.arch.fpu = .none → Takes (.fmrx cond reg rd) s .undefined ∧ Takes (.fmxr cond reg rd) s .undefined)) ∧
  (∀ (cond : Cond) (sn sd sm : SReg) (dn dd dm : DReg) (s : State), s.cpsr.passed cond = true →
    s.vfpEnabled = true → s.trapEnables ≠ 0#5 →
    (∀ op : VfpOp, exec (op.single cond sn sd sm) s = .refused .vfpTrapEnabled ∧
      exec (op.double cond dn dd dm) s = .refused .vfpTrapEnabled) ∧
    exec (.fsqrts cond sd sm) s = .refused .vfpTrapEnabled ∧
    exec (.fsqrtd cond dd dm) s = .refused .vfpTrapEnabled)

end
end

