-- ==== Sys2Proof/Laws/Decode.lean ====
section
/-! SUPPORT. Taking a word apart and putting it together are inverse, for ARM words, Thumb halfwords, conditions and shift
types; and the pieces of a field that the encoder splits join again. -/

namespace Sys2Proof

theorem ArmWord.ofWord_toWord (f : ArmWord) : ArmWord.ofWord f.toWord = f := by
  obtain ⟨c, b27, b26, b25, b24, b23, b22, b21, b20, n16, n12, n8, b7, b6, b5, b4, n0⟩ := f
  simp only [ArmWord.ofWord, ArmWord.toWord, bit4, ArmWord.mk.injEq]
  refine ⟨?_, ?_, ?_, ?_, ?_, ?_, ?_, ?_, ?_, ?_, ?_, ?_, ?_, ?_, ?_, ?_, ?_⟩
  all_goals first
    | (rw [BitVec.getLsbD_append]; simp only [BitVec.getLsbD_append, BitVec.getLsbD_ofBool]; simp)
    | (ext i hi
       simp only [BitVec.getElem_extractLsb', BitVec.getLsbD_append, BitVec.getLsbD_ofBool]
       interval_cases i <;> simp)

theorem ThumbWord.ofHalf_toHalf (f : ThumbWord) : ThumbWord.ofHalf f.toHalf = f := by
  obtain ⟨b15, b14, b13, b12, b11, b10, b9, b8, b7, b6, m3, l3⟩ := f
  simp only [ThumbWord.ofHalf, ThumbWord.toHalf, bit4, bit2, ThumbWord.mk.injEq]
  refine ⟨?_, ?_, ?_, ?_, ?_, ?_, ?_, ?_, ?_, ?_, ?_, ?_⟩
  all_goals first
    | (rw [BitVec.getLsbD_append]; simp only [BitVec.getLsbD_append, BitVec.getLsbD_ofBool]; simp)
    | (ext i hi
       simp only [BitVec.getElem_extractLsb', BitVec.getLsbD_append, BitVec.getLsbD_ofBool]
       interval_cases i <;> simp)

theorem ArmWord.toWord_ofWord (w : Word) : (ArmWord.ofWord w).toWord = w := by
  ext i hi
  rw [← BitVec.getLsbD_eq_getElem]
  simp only [ArmWord.ofWord, ArmWord.toWord, bit4, BitVec.getLsbD_append, BitVec.getLsbD_ofBool, BitVec.getLsbD_extractLsb']
  interval_cases i <;> simp

theorem ThumbWord.toHalf_ofHalf (h : Half) : (ThumbWord.ofHalf h).toHalf = h := by
  ext i hi
  rw [← BitVec.getLsbD_eq_getElem]
  simp only [ThumbWord.ofHalf, ThumbWord.toHalf, bit4, bit2, BitVec.getLsbD_append, BitVec.getLsbD_ofBool,
    BitVec.getLsbD_extractLsb']
  interval_cases i <;> simp

theorem Cond.ofBits_bits (c : Cond) : Cond.ofBits c.bits = some c := by cases c <;> rfl

theorem Cond.bits_ofBits {n : BitVec 4} {c : Cond} (h : Cond.ofBits n = some c) : c.bits = n := by
  revert c; revert n; decide

theorem Cond.ofBits_eq_none {n : BitVec 4} (h : Cond.ofBits n = none) : n = 15#4 := by
  revert n; decide

theorem ShiftType.ofBits_bits (t : ShiftType) : ShiftType.ofBits t.bit1 t.bit0 = t := by cases t <;> rfl
theorem ShiftType.bit1_ofBits (a b : Bool) : (ShiftType.ofBits a b).bit1 = a := by cases a <;> cases b <;> rfl
theorem ShiftType.bit0_ofBits (a b : Bool) : (ShiftType.ofBits a b).bit0 = b := by cases a <;> cases b <;> rfl

theorem join_bits3 (v : BitVec 3) : bit3 v[2] v[1] v[0] = v := by
  ext i hi
  rw [← BitVec.getLsbD_eq_getElem]
  simp only [bit3, BitVec.getLsbD_append, BitVec.getLsbD_ofBool]
  interval_cases i <;> simp
theorem join_bits4 (v : BitVec 4) : bit4 v[3] v[2] v[1] v[0] = v := by
  ext i hi
  rw [← BitVec.getLsbD_eq_getElem]
  simp only [bit4, BitVec.getLsbD_append, BitVec.getLsbD_ofBool]
  interval_cases i <;> simp
theorem join_bits5 (v : BitVec 5) : v.extractLsb' 1 4 ++ bit1 v[0] = v := by
  ext i hi
  rw [← BitVec.getLsbD_eq_getElem]
  simp only [bit1, BitVec.getLsbD_append, BitVec.getLsbD_ofBool, BitVec.getLsbD_extractLsb']
  interval_cases i <;> simp
theorem join_bits8 (v : BitVec 8) : bit4 v[7] v[6] v[5] v[4] ++ v.extractLsb' 0 4 = v := by
  ext i hi
  rw [← BitVec.getLsbD_eq_getElem]
  simp only [bit4, BitVec.getLsbD_append, BitVec.getLsbD_ofBool, BitVec.getLsbD_extractLsb']
  interval_cases i <;> simp
theorem join_bits12 (v : BitVec 12) : v.extractLsb' 8 4 ++ bit4 v[7] v[6] v[5] v[4] ++ v.extractLsb' 0 4 = v := by
  ext i hi
  rw [← BitVec.getLsbD_eq_getElem]
  simp only [bit4, BitVec.getLsbD_append, BitVec.getLsbD_ofBool, BitVec.getLsbD_extractLsb']
  interval_cases i <;> simp
@[simp] theorem bit1_getLsbD_0 (a : Bool) : (bit1 a).getLsbD 0 = a := by
  cases a <;> rfl
@[simp] theorem bit2_getLsbD_0 (a b : Bool) : (bit2 a b).getLsbD 0 = b := by
  cases a <;> cases b <;> rfl
@[simp] theorem bit2_getLsbD_1 (a b : Bool) : (bit2 a b).getLsbD 1 = a := by
  cases a <;> cases b <;> rfl
@[simp] theorem bit3_getLsbD_0 (a b c : Bool) : (bit3 a b c).getLsbD 0 = c := by
  cases a <;> cases b <;> cases c <;> rfl
@[simp] theorem bit3_getLsbD_1 (a b c : Bool) : (bit3 a b c).getLsbD 1 = b := by
  cases a <;> cases b <;> cases c <;> rfl
@[simp] theorem bit3_getLsbD_2 (a b c : Bool) : (bit3 a b c).getLsbD 2 = a := by
  cases a <;> cases b <;> cases c <;> rfl
@[simp] theorem bit4_getLsbD_0 (a b c d : Bool) : (bit4 a b c d).getLsbD 0 = d := by
  cases a <;> cases b <;> cases c <;> cases d <;> rfl
@[simp] theorem bit4_getLsbD_1 (a b c d : Bool) : (bit4 a b c d).getLsbD 1 = c := by
  cases a <;> cases b <;> cases c <;> cases d <;> rfl
@[simp] theorem bit4_getLsbD_2 (a b c d : Bool) : (bit4 a b c d).getLsbD 2 = b := by
  cases a <;> cases b <;> cases c <;> cases d <;> rfl
@[simp] theorem bit4_getLsbD_3 (a b c d : Bool) : (bit4 a b c d).getLsbD 3 = a := by
  cases a <;> cases b <;> cases c <;> cases d <;> rfl

/-- An instruction that needs no should-be bit to be right is one whose should-be bits are right. -/
theorem shouldBe_eq_instr {ok : Bool} {i j : Instr} (h : shouldBe ok i = .instr j) : ok = true ∧ j = i := by
  unfold shouldBe at h
  split at h
  · exact ⟨by assumption, by simpa using h.symm⟩
  · cases h

end Sys2Proof
end

