-- ==== Sys2Proof/Laws/Exec.lean ====
section
/-! SUPPORT. The arms of `exec`, one equation for each: the instruction's own meaning. -/

namespace Sys2Proof.Machine

@[simp] theorem exec_pldReg (u : Bool) (rn : Reg) (shiftImm : BitVec 5) (shift : ShiftType) (rm : Reg) (s : State) :
    exec (.pldReg u rn shiftImm shift rm) s = execPldReg u rn shiftImm shift rm s := rfl
@[simp] theorem exec_pldImm (u : Bool) (rn : Reg) (imm12 : BitVec 12) (s : State) :
    exec (.pldImm u rn imm12) s = execPldImm u rn imm12 s := rfl
@[simp] theorem exec_mcr2 (opc1 : BitVec 3) (crn : BitVec 4) (rd : Reg) (cp : BitVec 4) (opc2 : BitVec 3)
    (crm : BitVec 4) (s : State) : exec (.mcr2 opc1 crn rd cp opc2 crm) s = execMcr2 opc1 crn rd cp opc2 crm s := rfl
@[simp] theorem exec_mrc2 (opc1 : BitVec 3) (crn : BitVec 4) (rd : Reg) (cp : BitVec 4) (opc2 : BitVec 3)
    (crm : BitVec 4) (s : State) : exec (.mrc2 opc1 crn rd cp opc2 crm) s = execMrc2 opc1 crn rd cp opc2 crm s := rfl
@[simp] theorem exec_ldc2Post (u long : Bool) (rn : Reg) (crd cp : BitVec 4) (offset8 : BitVec 8) (s : State) :
    exec (.ldc2Post u long rn crd cp offset8) s = execLdc2Post u long rn crd cp offset8 s := rfl
@[simp] theorem exec_stc2Post (u long : Bool) (rn : Reg) (crd cp : BitVec 4) (offset8 : BitVec 8) (s : State) :
    exec (.stc2Post u long rn crd cp offset8) s = execStc2Post u long rn crd cp offset8 s := rfl
@[simp] theorem exec_cdp2 (opc1 crn crd cp : BitVec 4) (opc2 : BitVec 3) (crm : BitVec 4) (s : State) :
    exec (.cdp2 opc1 crn crd cp opc2 crm) s = execCdp2 opc1 crn crd cp opc2 crm s := rfl
@[simp] theorem exec_ldc2Pre (u long w : Bool) (rn : Reg) (crd cp : BitVec 4) (offset8 : BitVec 8) (s : State) :
    exec (.ldc2Pre u long w rn crd cp offset8) s = execLdc2Pre u long w rn crd cp offset8 s := rfl
@[simp] theorem exec_stc2Pre (u long w : Bool) (rn : Reg) (crd cp : BitVec 4) (offset8 : BitVec 8) (s : State) :
    exec (.stc2Pre u long w rn crd cp offset8) s = execStc2Pre u long w rn crd cp offset8 s := rfl
@[simp] theorem exec_blxLabel (h : Bool) (imm24 : BitVec 24) (s : State) :
    exec (.blxLabel h imm24) s = execBlxLabel h imm24 s := rfl
@[simp] theorem exec_unallocatedUncond (bits : BitVec 28) (s : State) :
    exec (.unallocatedUncond bits) s = execUnallocatedUncond bits s := rfl
@[simp] theorem exec_fmstat (cond : Cond) (s : State) : exec (.fmstat cond) s = execFmstat cond s := rfl
@[simp] theorem exec_fcpys (cond : Cond) (fd fm : SReg) (s : State) :
    exec (.fcpys cond fd fm) s = execFcpys cond fd fm s := rfl
@[simp] theorem exec_fcpyd (cond : Cond) (fd fm : DReg) (s : State) :
    exec (.fcpyd cond fd fm) s = execFcpyd cond fd fm s := rfl
@[simp] theorem exec_fabss (cond : Cond) (fd fm : SReg) (s : State) :
    exec (.fabss cond fd fm) s = execFabss cond fd fm s := rfl
@[simp] theorem exec_fabsd (cond : Cond) (fd fm : DReg) (s : State) :
    exec (.fabsd cond fd fm) s = execFabsd cond fd fm s := rfl
@[simp] theorem exec_fnegs (cond : Cond) (fd fm : SReg) (s : State) :
    exec (.fnegs cond fd fm) s = execFnegs cond fd fm s := rfl
@[simp] theorem exec_fnegd (cond : Cond) (fd fm : DReg) (s : State) :
    exec (.fnegd cond fd fm) s = execFnegd cond fd fm s := rfl
@[simp] theorem exec_fsqrts (cond : Cond) (fd fm : SReg) (s : State) :
    exec (.fsqrts cond fd fm) s = execFsqrts cond fd fm s := rfl
@[simp] theorem exec_fsqrtd (cond : Cond) (fd fm : DReg) (s : State) :
    exec (.fsqrtd cond fd fm) s = execFsqrtd cond fd fm s := rfl
@[simp] theorem exec_fcmps (cond : Cond) (fd fm : SReg) (s : State) :
    exec (.fcmps cond fd fm) s = execFcmps cond fd fm s := rfl
@[simp] theorem exec_fcmpd (cond : Cond) (fd fm : DReg) (s : State) :
    exec (.fcmpd cond fd fm) s = execFcmpd cond fd fm s := rfl
@[simp] theorem exec_fcmpes (cond : Cond) (fd fm : SReg) (s : State) :
    exec (.fcmpes cond fd fm) s = execFcmpes cond fd fm s := rfl
@[simp] theorem exec_fcmped (cond : Cond) (fd fm : DReg) (s : State) :
    exec (.fcmped cond fd fm) s = execFcmped cond fd fm s := rfl
@[simp] theorem exec_fcmpzs (cond : Cond) (fd : SReg) (s : State) :
    exec (.fcmpzs cond fd) s = execFcmpzs cond fd s := rfl
@[simp] theorem exec_fcmpzd (cond : Cond) (fd : DReg) (s : State) :
    exec (.fcmpzd cond fd) s = execFcmpzd cond fd s := rfl
@[simp] theorem exec_fcmpezs (cond : Cond) (fd : SReg) (s : State) :
    exec (.fcmpezs cond fd) s = execFcmpezs cond fd s := rfl
@[simp] theorem exec_fcmpezd (cond : Cond) (fd : DReg) (s : State) :
    exec (.fcmpezd cond fd) s = execFcmpezd cond fd s := rfl
@[simp] theorem exec_fcvtds (cond : Cond) (fd : DReg) (fm : SReg) (s : State) :
    exec (.fcvtds cond fd fm) s = execFcvtds cond fd fm s := rfl
@[simp] theorem exec_fcvtsd (cond : Cond) (fd : SReg) (fm : DReg) (s : State) :
    exec (.fcvtsd cond fd fm) s = execFcvtsd cond fd fm s := rfl
@[simp] theorem exec_fuitos (cond : Cond) (fd fm : SReg) (s : State) :
    exec (.fuitos cond fd fm) s = execFuitos cond fd fm s := rfl
@[simp] theorem exec_fuitod (cond : Cond) (fd : DReg) (fm : SReg) (s : State) :
    exec (.fuitod cond fd fm) s = execFuitod cond fd fm s := rfl
@[simp] theorem exec_fsitos (cond : Cond) (fd fm : SReg) (s : State) :
    exec (.fsitos cond fd fm) s = execFsitos cond fd fm s := rfl
@[simp] theorem exec_fsitod (cond : Cond) (fd : DReg) (fm : SReg) (s : State) :
    exec (.fsitod cond fd fm) s = execFsitod cond fd fm s := rfl
@[simp] theorem exec_ftouis (cond : Cond) (fd fm : SReg) (s : State) :
    exec (.ftouis cond fd fm) s = execFtouis cond fd fm s := rfl
@[simp] theorem exec_ftouid (cond : Cond) (fd : SReg) (fm : DReg) (s : State) :
    exec (.ftouid cond fd fm) s = execFtouid cond fd fm s := rfl
@[simp] theorem exec_ftouizs (cond : Cond) (fd fm : SReg) (s : State) :
    exec (.ftouizs cond fd fm) s = execFtouizs cond fd fm s := rfl
@[simp] theorem exec_ftouizd (cond : Cond) (fd : SReg) (fm : DReg) (s : State) :
    exec (.ftouizd cond fd fm) s = execFtouizd cond fd fm s := rfl
@[simp] theorem exec_ftosis (cond : Cond) (fd fm : SReg) (s : State) :
    exec (.ftosis cond fd fm) s = execFtosis cond fd fm s := rfl
@[simp] theorem exec_ftosid (cond : Cond) (fd : SReg) (fm : DReg) (s : State) :
    exec (.ftosid cond fd fm) s = execFtosid cond fd fm s := rfl
@[simp] theorem exec_ftosizs (cond : Cond) (fd fm : SReg) (s : State) :
    exec (.ftosizs cond fd fm) s = execFtosizs cond fd fm s := rfl
@[simp] theorem exec_ftosizd (cond : Cond) (fd : SReg) (fm : DReg) (s : State) :
    exec (.ftosizd cond fd fm) s = execFtosizd cond fd fm s := rfl
@[simp] theorem exec_mia (cond : Cond) (rs rm : Reg) (s : State) :
    exec (.mia cond rs rm) s = execMia cond rs rm s := rfl
@[simp] theorem exec_miaph (cond : Cond) (rs rm : Reg) (s : State) :
    exec (.miaph cond rs rm) s = execMiaph cond rs rm s := rfl
@[simp] theorem exec_miaXY (cond : Cond) (x y : Bool) (rs rm : Reg) (s : State) :
    exec (.miaXY cond x y rs rm) s = execMiaXY cond x y rs rm s := rfl
@[simp] theorem exec_fmacs (cond : Cond) (fn fd fm : SReg) (s : State) :
    exec (.fmacs cond fn fd fm) s = execFmacs cond fn fd fm s := rfl
@[simp] theorem exec_fmacd (cond : Cond) (fn fd fm : DReg) (s : State) :
    exec (.fmacd cond fn fd fm) s = execFmacd cond fn fd fm s := rfl
@[simp] theorem exec_fnmacs (cond : Cond) (fn fd fm : SReg) (s : State) :
    exec (.fnmacs cond fn fd fm) s = execFnmacs cond fn fd fm s := rfl
@[simp] theorem exec_fnmacd (cond : Cond) (fn fd fm : DReg) (s : State) :
    exec (.fnmacd cond fn fd fm) s = execFnmacd cond fn fd fm s := rfl
@[simp] theorem exec_fmscs (cond : Cond) (fn fd fm : SReg) (s : State) :
    exec (.fmscs cond fn fd fm) s = execFmscs cond fn fd fm s := rfl
@[simp] theorem exec_fmscd (cond : Cond) (fn fd fm : DReg) (s : State) :
    exec (.fmscd cond fn fd fm) s = execFmscd cond fn fd fm s := rfl
@[simp] theorem exec_fnmscs (cond : Cond) (fn fd fm : SReg) (s : State) :
    exec (.fnmscs cond fn fd fm) s = execFnmscs cond fn fd fm s := rfl
@[simp] theorem exec_fnmscd (cond : Cond) (fn fd fm : DReg) (s : State) :
    exec (.fnmscd cond fn fd fm) s = execFnmscd cond fn fd fm s := rfl
@[simp] theorem exec_fmuls (cond : Cond) (fn fd fm : SReg) (s : State) :
    exec (.fmuls cond fn fd fm) s = execFmuls cond fn fd fm s := rfl
@[simp] theorem exec_fmuld (cond : Cond) (fn fd fm : DReg) (s : State) :
    exec (.fmuld cond fn fd fm) s = execFmuld cond fn fd fm s := rfl
@[simp] theorem exec_fnmuls (cond : Cond) (fn fd fm : SReg) (s : State) :
    exec (.fnmuls cond fn fd fm) s = execFnmuls cond fn fd fm s := rfl
@[simp] theorem exec_fnmuld (cond : Cond) (fn fd fm : DReg) (s : State) :
    exec (.fnmuld cond fn fd fm) s = execFnmuld cond fn fd fm s := rfl
@[simp] theorem exec_fadds (cond : Cond) (fn fd fm : SReg) (s : State) :
    exec (.fadds cond fn fd fm) s = execFadds cond fn fd fm s := rfl
@[simp] theorem exec_faddd (cond : Cond) (fn fd fm : DReg) (s : State) :
    exec (.faddd cond fn fd fm) s = execFaddd cond fn fd fm s := rfl
@[simp] theorem exec_fsubs (cond : Cond) (fn fd fm : SReg) (s : State) :
    exec (.fsubs cond fn fd fm) s = execFsubs cond fn fd fm s := rfl
@[simp] theorem exec_fsubd (cond : Cond) (fn fd fm : DReg) (s : State) :
    exec (.fsubd cond fn fd fm) s = execFsubd cond fn fd fm s := rfl
@[simp] theorem exec_fdivs (cond : Cond) (fn fd fm : SReg) (s : State) :
    exec (.fdivs cond fn fd fm) s = execFdivs cond fn fd fm s := rfl
@[simp] theorem exec_fdivd (cond : Cond) (fn fd fm : DReg) (s : State) :
    exec (.fdivd cond fn fd fm) s = execFdivd cond fn fd fm s := rfl
@[simp] theorem exec_fmsr (cond : Cond) (fn : SReg) (rd : Reg) (s : State) :
    exec (.fmsr cond fn rd) s = execFmsr cond fn rd s := rfl
@[simp] theorem exec_fmrs (cond : Cond) (fn : SReg) (rd : Reg) (s : State) :
    exec (.fmrs cond fn rd) s = execFmrs cond fn rd s := rfl
@[simp] theorem exec_fmdlr (cond : Cond) (fn : DReg) (rd : Reg) (s : State) :
    exec (.fmdlr cond fn rd) s = execFmdlr cond fn rd s := rfl
@[simp] theorem exec_fmrdl (cond : Cond) (fn : DReg) (rd : Reg) (s : State) :
    exec (.fmrdl cond fn rd) s = execFmrdl cond fn rd s := rfl
@[simp] theorem exec_fmdhr (cond : Cond) (fn : DReg) (rd : Reg) (s : State) :
    exec (.fmdhr cond fn rd) s = execFmdhr cond fn rd s := rfl
@[simp] theorem exec_fmrdh (cond : Cond) (fn : DReg) (rd : Reg) (s : State) :
    exec (.fmrdh cond fn rd) s = execFmrdh cond fn rd s := rfl
@[simp] theorem exec_fmxr (cond : Cond) (reg : BitVec 4) (rd : Reg) (s : State) :
    exec (.fmxr cond reg rd) s = execFmxr cond reg rd s := rfl
@[simp] theorem exec_fmrx (cond : Cond) (reg : BitVec 4) (rd : Reg) (s : State) :
    exec (.fmrx cond reg rd) s = execFmrx cond reg rd s := rfl
@[simp] theorem exec_qadd (cond : Cond) (rn rd rm : Reg) (s : State) :
    exec (.qadd cond rn rd rm) s = execQadd cond rn rd rm s := rfl
@[simp] theorem exec_qsub (cond : Cond) (rn rd rm : Reg) (s : State) :
    exec (.qsub cond rn rd rm) s = execQsub cond rn rd rm s := rfl
@[simp] theorem exec_qdadd (cond : Cond) (rn rd rm : Reg) (s : State) :
    exec (.qdadd cond rn rd rm) s = execQdadd cond rn rd rm s := rfl
@[simp] theorem exec_qdsub (cond : Cond) (rn rd rm : Reg) (s : State) :
    exec (.qdsub cond rn rd rm) s = execQdsub cond rn rd rm s := rfl
@[simp] theorem exec_bx (cond : Cond) (rm : Reg) (s : State) : exec (.bx cond rm) s = execBx cond rm s := rfl
@[simp] theorem exec_blxReg (cond : Cond) (rm : Reg) (s : State) :
    exec (.blxReg cond rm) s = execBlxReg cond rm s := rfl
@[simp] theorem exec_clz (cond : Cond) (rd rm : Reg) (s : State) :
    exec (.clz cond rd rm) s = execClz cond rd rm s := rfl
@[simp] theorem exec_bkpt (cond : Cond) (immHi : BitVec 12) (immLo : BitVec 4) (s : State) :
    exec (.bkpt cond immHi immLo) s = execBkpt cond immHi immLo s := rfl
@[simp] theorem exec_swp (cond : Cond) (rn rd rm : Reg) (s : State) :
    exec (.swp cond rn rd rm) s = execSwp cond rn rd rm s := rfl
@[simp] theorem exec_swpb (cond : Cond) (rn rd rm : Reg) (s : State) :
    exec (.swpb cond rn rd rm) s = execSwpb cond rn rd rm s := rfl
@[simp] theorem exec_mar (cond : Cond) (rdHi rdLo : Reg) (s : State) :
    exec (.mar cond rdHi rdLo) s = execMar cond rdHi rdLo s := rfl
@[simp] theorem exec_mra (cond : Cond) (rdHi rdLo : Reg) (s : State) :
    exec (.mra cond rdHi rdLo) s = execMra cond rdHi rdLo s := rfl
@[simp] theorem exec_fldmdbd (cond : Cond) (rn : Reg) (fd : DReg) (count : BitVec 7) (s : State) :
    exec (.fldmdbd cond rn fd count) s = execFldmdbd cond rn fd count s := rfl
@[simp] theorem exec_fldmdbx (cond : Cond) (rn : Reg) (fd : DReg) (count : BitVec 7) (s : State) :
    exec (.fldmdbx cond rn fd count) s = execFldmdbx cond rn fd count s := rfl
@[simp] theorem exec_fstmdbd (cond : Cond) (rn : Reg) (fd : DReg) (count : BitVec 7) (s : State) :
    exec (.fstmdbd cond rn fd count) s = execFstmdbd cond rn fd count s := rfl
@[simp] theorem exec_fstmdbx (cond : Cond) (rn : Reg) (fd : DReg) (count : BitVec 7) (s : State) :
    exec (.fstmdbx cond rn fd count) s = execFstmdbx cond rn fd count s := rfl
@[simp] theorem exec_mul (cond : Cond) (setFlags : Bool) (rd rs rm : Reg) (s : State) :
    exec (.mul cond setFlags rd rs rm) s = execMul cond setFlags rd rs rm s := rfl
@[simp] theorem exec_mla (cond : Cond) (setFlags : Bool) (rd rn rs rm : Reg) (s : State) :
    exec (.mla cond setFlags rd rn rs rm) s = execMla cond setFlags rd rn rs rm s := rfl
@[simp] theorem exec_umull (cond : Cond) (setFlags : Bool) (rdHi rdLo rs rm : Reg) (s : State) :
    exec (.umull cond setFlags rdHi rdLo rs rm) s = execUmull cond setFlags rdHi rdLo rs rm s := rfl
@[simp] theorem exec_umlal (cond : Cond) (setFlags : Bool) (rdHi rdLo rs rm : Reg) (s : State) :
    exec (.umlal cond setFlags rdHi rdLo rs rm) s = execUmlal cond setFlags rdHi rdLo rs rm s := rfl
@[simp] theorem exec_smull (cond : Cond) (setFlags : Bool) (rdHi rdLo rs rm : Reg) (s : State) :
    exec (.smull cond setFlags rdHi rdLo rs rm) s = execSmull cond setFlags rdHi rdLo rs rm s := rfl
@[simp] theorem exec_smlal (cond : Cond) (setFlags : Bool) (rdHi rdLo rs rm : Reg) (s : State) :
    exec (.smlal cond setFlags rdHi rdLo rs rm) s = execSmlal cond setFlags rdHi rdLo rs rm s := rfl
@[simp] theorem exec_smlawY (cond : Cond) (rd rn rs : Reg) (y : Bool) (rm : Reg) (s : State) :
    exec (.smlawY cond rd rn rs y rm) s = execSmlawY cond rd rn rs y rm s := rfl
@[simp] theorem exec_smulwY (cond : Cond) (rd rs : Reg) (y : Bool) (rm : Reg) (s : State) :
    exec (.smulwY cond rd rs y rm) s = execSmulwY cond rd rs y rm s := rfl
@[simp] theorem exec_mrs (cond : Cond) (r : Bool) (rd : Reg) (s : State) :
    exec (.mrs cond r rd) s = execMrs cond r rd s := rfl
@[simp] theorem exec_msrReg (cond : Cond) (r : Bool) (fields : BitVec 4) (rm : Reg) (s : State) :
    exec (.msrReg cond r fields rm) s = execMsrReg cond r fields rm s := rfl
@[simp] theorem exec_fldmiad (cond : Cond) (w : Bool) (rn : Reg) (fd : DReg) (count : BitVec 7) (s : State) :
    exec (.fldmiad cond w rn fd count) s = execFldmiad cond w rn fd count s := rfl
@[simp] theorem exec_fldmiax (cond : Cond) (w : Bool) (rn : Reg) (fd : DReg) (count : BitVec 7) (s : State) :
    exec (.fldmiax cond w rn fd count) s = execFldmiax cond w rn fd count s := rfl
@[simp] theorem exec_fldmdbs (cond : Cond) (rn : Reg) (fd : SReg) (count : BitVec 8) (s : State) :
    exec (.fldmdbs cond rn fd count) s = execFldmdbs cond rn fd count s := rfl
@[simp] theorem exec_fstmiad (cond : Cond) (w : Bool) (rn : Reg) (fd : DReg) (count : BitVec 7) (s : State) :
    exec (.fstmiad cond w rn fd count) s = execFstmiad cond w rn fd count s := rfl
@[simp] theorem exec_fstmiax (cond : Cond) (w : Bool) (rn : Reg) (fd : DReg) (count : BitVec 7) (s : State) :
    exec (.fstmiax cond w rn fd count) s = execFstmiax cond w rn fd count s := rfl
@[simp] theorem exec_fstmdbs (cond : Cond) (rn : Reg) (fd : SReg) (count : BitVec 8) (s : State) :
    exec (.fstmdbs cond rn fd count) s = execFstmdbs cond rn fd count s := rfl
@[simp] theorem exec_tstRegReg (cond : Cond) (rn rs : Reg) (shift : ShiftType) (rm : Reg) (s : State) :
    exec (.tstRegReg cond rn rs shift rm) s = execTstRegReg cond rn rs shift rm s := rfl
@[simp] theorem exec_teqRegReg (cond : Cond) (rn rs : Reg) (shift : ShiftType) (rm : Reg) (s : State) :
    exec (.teqRegReg cond rn rs shift rm) s = execTeqRegReg cond rn rs shift rm s := rfl
@[simp] theorem exec_cmpRegReg (cond : Cond) (rn rs : Reg) (shift : ShiftType) (rm : Reg) (s : State) :
    exec (.cmpRegReg cond rn rs shift rm) s = execCmpRegReg cond rn rs shift rm s := rfl
@[simp] theorem exec_cmnRegReg (cond : Cond) (rn rs : Reg) (shift : ShiftType) (rm : Reg) (s : State) :
    exec (.cmnRegReg cond rn rs shift rm) s = execCmnRegReg cond rn rs shift rm s := rfl
@[simp] theorem exec_smlaXY (cond : Cond) (rd rn rs : Reg) (y x : Bool) (rm : Reg) (s : State) :
    exec (.smlaXY cond rd rn rs y x rm) s = execSmlaXY cond rd rn rs y x rm s := rfl
@[simp] theorem exec_smlalXY (cond : Cond) (rdHi rdLo rs : Reg) (y x : Bool) (rm : Reg) (s : State) :
    exec (.smlalXY cond rdHi rdLo rs y x rm) s = execSmlalXY cond rdHi rdLo rs y x rm s := rfl
@[simp] theorem exec_smulXY (cond : Cond) (rd rs : Reg) (y x : Bool) (rm : Reg) (s : State) :
    exec (.smulXY cond rd rs y x rm) s = execSmulXY cond rd rs y x rm s := rfl
@[simp] theorem exec_flds (cond : Cond) (u : Bool) (rn : Reg) (fd : SReg) (offset8 : BitVec 8) (s : State) :
    exec (.flds cond u rn fd offset8) s = execFlds cond u rn fd offset8 s := rfl
@[simp] theorem exec_fldd (cond : Cond) (u : Bool) (rn : Reg) (fd : DReg) (offset8 : BitVec 8) (s : State) :
    exec (.fldd cond u rn fd offset8) s = execFldd cond u rn fd offset8 s := rfl
@[simp] theorem exec_fsts (cond : Cond) (u : Bool) (rn : Reg) (fd : SReg) (offset8 : BitVec 8) (s : State) :
    exec (.fsts cond u rn fd offset8) s = execFsts cond u rn fd offset8 s := rfl
@[simp] theorem exec_fstd (cond : Cond) (u : Bool) (rn : Reg) (fd : DReg) (offset8 : BitVec 8) (s : State) :
    exec (.fstd cond u rn fd offset8) s = execFstd cond u rn fd offset8 s := rfl
@[simp] theorem exec_fldmias (cond : Cond) (w : Bool) (rn : Reg) (fd : SReg) (count : BitVec 8) (s : State) :
    exec (.fldmias cond w rn fd count) s = execFldmias cond w rn fd count s := rfl
@[simp] theorem exec_fstmias (cond : Cond) (w : Bool) (rn : Reg) (fd : SReg) (count : BitVec 8) (s : State) :
    exec (.fstmias cond w rn fd count) s = execFstmias cond w rn fd count s := rfl
@[simp] theorem exec_andRegReg (cond : Cond) (setFlags : Bool) (rn rd rs : Reg) (shift : ShiftType) (rm : Reg)
    (s : State) :
    exec (.andRegReg cond setFlags rn rd rs shift rm) s = execAndRegReg cond setFlags rn rd rs shift rm s := rfl
@[simp] theorem exec_eorRegReg (cond : Cond) (setFlags : Bool) (rn rd rs : Reg) (shift : ShiftType) (rm : Reg)
    (s : State) :
    exec (.eorRegReg cond setFlags rn rd rs shift rm) s = execEorRegReg cond setFlags rn rd rs shift rm s := rfl
@[simp] theorem exec_subRegReg (cond : Cond) (setFlags : Bool) (rn rd rs : Reg) (shift : ShiftType) (rm : Reg)
    (s : State) :
    exec (.subRegReg cond setFlags rn rd rs shift rm) s = execSubRegReg cond setFlags rn rd rs shift rm s := rfl
@[simp] theorem exec_rsbRegReg (cond : Cond) (setFlags : Bool) (rn rd rs : Reg) (shift : ShiftType) (rm : Reg)
    (s : State) :
    exec (.rsbRegReg cond setFlags rn rd rs shift rm) s = execRsbRegReg cond setFlags rn rd rs shift rm s := rfl
@[simp] theorem exec_addRegReg (cond : Cond) (setFlags : Bool) (rn rd rs : Reg) (shift : ShiftType) (rm : Reg)
    (s : State) :
    exec (.addRegReg cond setFlags rn rd rs shift rm) s = execAddRegReg cond setFlags rn rd rs shift rm s := rfl
@[simp] theorem exec_adcRegReg (cond : Cond) (setFlags : Bool) (rn rd rs : Reg) (shift : ShiftType) (rm : Reg)
    (s : State) :
    exec (.adcRegReg cond setFlags rn rd rs shift rm) s = execAdcRegReg cond setFlags rn rd rs shift rm s := rfl
@[simp] theorem exec_sbcRegReg (cond : Cond) (setFlags : Bool) (rn rd rs : Reg) (shift : ShiftType) (rm : Reg)
    (s : State) :
    exec (.sbcRegReg cond setFlags rn rd rs shift rm) s = execSbcRegReg cond setFlags rn rd rs shift rm s := rfl
@[simp] theorem exec_rscRegReg (cond : Cond) (setFlags : Bool) (rn rd rs : Reg) (shift : ShiftType) (rm : Reg)
    (s : State) :
    exec (.rscRegReg cond setFlags rn rd rs shift rm) s = execRscRegReg cond setFlags rn rd rs shift rm s := rfl
@[simp] theorem exec_tstRegImm (cond : Cond) (rn : Reg) (shiftImm : BitVec 5) (shift : ShiftType) (rm : Reg)
    (s : State) : exec (.tstRegImm cond rn shiftImm shift rm) s = execTstRegImm cond rn shiftImm shift rm s := rfl
@[simp] theorem exec_teqRegImm (cond : Cond) (rn : Reg) (shiftImm : BitVec 5) (shift : ShiftType) (rm : Reg)
    (s : State) : exec (.teqRegImm cond rn shiftImm shift rm) s = execTeqRegImm cond rn shiftImm shift rm s := rfl
@[simp] theorem exec_cmpRegImm (cond : Cond) (rn : Reg) (shiftImm : BitVec 5) (shift : ShiftType) (rm : Reg)
    (s : State) : exec (.cmpRegImm cond rn shiftImm shift rm) s = execCmpRegImm cond rn shiftImm shift rm s := rfl
@[simp] theorem exec_cmnRegImm (cond : Cond) (rn : Reg) (shiftImm : BitVec 5) (shift : ShiftType) (rm : Reg)
    (s : State) : exec (.cmnRegImm cond rn shiftImm shift rm) s = execCmnRegImm cond rn shiftImm shift rm s := rfl
@[simp] theorem exec_orrRegReg (cond : Cond) (setFlags : Bool) (rn rd rs : Reg) (shift : ShiftType) (rm : Reg)
    (s : State) :
    exec (.orrRegReg cond setFlags rn rd rs shift rm) s = execOrrRegReg cond setFlags rn rd rs shift rm s := rfl
@[simp] theorem exec_movRegReg (cond : Cond) (setFlags : Bool) (rd rs : Reg) (shift : ShiftType) (rm : Reg)
    (s : State) :
    exec (.movRegReg cond setFlags rd rs shift rm) s = execMovRegReg cond setFlags rd rs shift rm s := rfl
@[simp] theorem exec_bicRegReg (cond : Cond) (setFlags : Bool) (rn rd rs : Reg) (shift : ShiftType) (rm : Reg)
    (s : State) :
    exec (.bicRegReg cond setFlags rn rd rs shift rm) s = execBicRegReg cond setFlags rn rd rs shift rm s := rfl
@[simp] theorem exec_mvnRegReg (cond : Cond) (setFlags : Bool) (rd rs : Reg) (shift : ShiftType) (rm : Reg)
    (s : State) :
    exec (.mvnRegReg cond setFlags rd rs shift rm) s = execMvnRegReg cond setFlags rd rs shift rm s := rfl
@[simp] theorem exec_strhImm (cond : Cond) (p u w : Bool) (rn rd : Reg) (immH immL : BitVec 4) (s : State) :
    exec (.strhImm cond p u w rn rd immH immL) s = execStrhImm cond p u w rn rd immH immL s := rfl
@[simp] theorem exec_strhReg (cond : Cond) (p u w : Bool) (rn rd rm : Reg) (s : State) :
    exec (.strhReg cond p u w rn rd rm) s = execStrhReg cond p u w rn rd rm s := rfl
@[simp] theorem exec_ldrhImm (cond : Cond) (p u w : Bool) (rn rd : Reg) (immH immL : BitVec 4) (s : State) :
    exec (.ldrhImm cond p u w rn rd immH immL) s = execLdrhImm cond p u w rn rd immH immL s := rfl
@[simp] theorem exec_ldrhReg (cond : Cond) (p u w : Bool) (rn rd rm : Reg) (s : State) :
    exec (.ldrhReg cond p u w rn rd rm) s = execLdrhReg cond p u w rn rd rm s := rfl
@[simp] theorem exec_ldrsbImm (cond : Cond) (p u w : Bool) (rn rd : Reg) (immH immL : BitVec 4) (s : State) :
    exec (.ldrsbImm cond p u w rn rd immH immL) s = execLdrsbImm cond p u w rn rd immH immL s := rfl
@[simp] theorem exec_ldrsbReg (cond : Cond) (p u w : Bool) (rn rd rm : Reg) (s : State) :
    exec (.ldrsbReg cond p u w rn rd rm) s = execLdrsbReg cond p u w rn rd rm s := rfl
@[simp] theorem exec_ldrshImm (cond : Cond) (p u w : Bool) (rn rd : Reg) (immH immL : BitVec 4) (s : State) :
    exec (.ldrshImm cond p u w rn rd immH immL) s = execLdrshImm cond p u w rn rd immH immL s := rfl
@[simp] theorem exec_ldrshReg (cond : Cond) (p u w : Bool) (rn rd rm : Reg) (s : State) :
    exec (.ldrshReg cond p u w rn rd rm) s = execLdrshReg cond p u w rn rd rm s := rfl
@[simp] theorem exec_ldrdImm (cond : Cond) (p u w : Bool) (rn rd : Reg) (immH immL : BitVec 4) (s : State) :
    exec (.ldrdImm cond p u w rn rd immH immL) s = execLdrdImm cond p u w rn rd immH immL s := rfl
@[simp] theorem exec_ldrdReg (cond : Cond) (p u w : Bool) (rn rd rm : Reg) (s : State) :
    exec (.ldrdReg cond p u w rn rd rm) s = execLdrdReg cond p u w rn rd rm s := rfl
@[simp] theorem exec_strdImm (cond : Cond) (p u w : Bool) (rn rd : Reg) (immH immL : BitVec 4) (s : State) :
    exec (.strdImm cond p u w rn rd immH immL) s = execStrdImm cond p u w rn rd immH immL s := rfl
@[simp] theorem exec_strdReg (cond : Cond) (p u w : Bool) (rn rd rm : Reg) (s : State) :
    exec (.strdReg cond p u w rn rd rm) s = execStrdReg cond p u w rn rd rm s := rfl
@[simp] theorem exec_andRegImm (cond : Cond) (setFlags : Bool) (rn rd : Reg) (shiftImm : BitVec 5) (shift : ShiftType)
    (rm : Reg) (s : State) :
    exec (.andRegImm cond setFlags rn rd shiftImm shift rm) s = execAndRegImm cond setFlags rn rd shiftImm shift rm s :=
  rfl
@[simp] theorem exec_eorRegImm (cond : Cond) (setFlags : Bool) (rn rd : Reg) (shiftImm : BitVec 5) (shift : ShiftType)
    (rm : Reg) (s : State) :
    exec (.eorRegImm cond setFlags rn rd shiftImm shift rm) s = execEorRegImm cond setFlags rn rd shiftImm shift rm s :=
  rfl
@[simp] theorem exec_subRegImm (cond : Cond) (setFlags : Bool) (rn rd : Reg) (shiftImm : BitVec 5) (shift : ShiftType)
    (rm : Reg) (s : State) :
    exec (.subRegImm cond setFlags rn rd shiftImm shift rm) s = execSubRegImm cond setFlags rn rd shiftImm shift rm s :=
  rfl
@[simp] theorem exec_rsbRegImm (cond : Cond) (setFlags : Bool) (rn rd : Reg) (shiftImm : BitVec 5) (shift : ShiftType)
    (rm : Reg) (s : State) :
    exec (.rsbRegImm cond setFlags rn rd shiftImm shift rm) s = execRsbRegImm cond setFlags rn rd shiftImm shift rm s :=
  rfl
@[simp] theorem exec_addRegImm (cond : Cond) (setFlags : Bool) (rn rd : Reg) (shiftImm : BitVec 5) (shift : ShiftType)
    (rm : Reg) (s : State) :
    exec (.addRegImm cond setFlags rn rd shiftImm shift rm) s = execAddRegImm cond setFlags rn rd shiftImm shift rm s :=
  rfl
@[simp] theorem exec_adcRegImm (cond : Cond) (setFlags : Bool) (rn rd : Reg) (shiftImm : BitVec 5) (shift : ShiftType)
    (rm : Reg) (s : State) :
    exec (.adcRegImm cond setFlags rn rd shiftImm shift rm) s = execAdcRegImm cond setFlags rn rd shiftImm shift rm s :=
  rfl
@[simp] theorem exec_sbcRegImm (cond : Cond) (setFlags : Bool) (rn rd : Reg) (shiftImm : BitVec 5) (shift : ShiftType)
    (rm : Reg) (s : State) :
    exec (.sbcRegImm cond setFlags rn rd shiftImm shift rm) s = execSbcRegImm cond setFlags rn rd shiftImm shift rm s :=
  rfl
@[simp] theorem exec_rscRegImm (cond : Cond) (setFlags : Bool) (rn rd : Reg) (shiftImm : BitVec 5) (shift : ShiftType)
    (rm : Reg) (s : State) :
    exec (.rscRegImm cond setFlags rn rd shiftImm shift rm) s = execRscRegImm cond setFlags rn rd shiftImm shift rm s :=
  rfl
@[simp] theorem exec_tstImm (cond : Cond) (rn : Reg) (rot : BitVec 4) (imm8 : BitVec 8) (s : State) :
    exec (.tstImm cond rn rot imm8) s = execTstImm cond rn rot imm8 s := rfl
@[simp] theorem exec_teqImm (cond : Cond) (rn : Reg) (rot : BitVec 4) (imm8 : BitVec 8) (s : State) :
    exec (.teqImm cond rn rot imm8) s = execTeqImm cond rn rot imm8 s := rfl
@[simp] theorem exec_cmpImm (cond : Cond) (rn : Reg) (rot : BitVec 4) (imm8 : BitVec 8) (s : State) :
    exec (.cmpImm cond rn rot imm8) s = execCmpImm cond rn rot imm8 s := rfl
@[simp] theorem exec_cmnImm (cond : Cond) (rn : Reg) (rot : BitVec 4) (imm8 : BitVec 8) (s : State) :
    exec (.cmnImm cond rn rot imm8) s = execCmnImm cond rn rot imm8 s := rfl
@[simp] theorem exec_orrRegImm (cond : Cond) (setFlags : Bool) (rn rd : Reg) (shiftImm : BitVec 5) (shift : ShiftType)
    (rm : Reg) (s : State) :
    exec (.orrRegImm cond setFlags rn rd shiftImm shift rm) s = execOrrRegImm cond setFlags rn rd shiftImm shift rm s :=
  rfl
@[simp] theorem exec_movRegImm (cond : Cond) (setFlags : Bool) (rd : Reg) (shiftImm : BitVec 5) (shift : ShiftType)
    (rm : Reg) (s : State) :
    exec (.movRegImm cond setFlags rd shiftImm shift rm) s = execMovRegImm cond setFlags rd shiftImm shift rm s := rfl
@[simp] theorem exec_bicRegImm (cond : Cond) (setFlags : Bool) (rn rd : Reg) (shiftImm : BitVec 5) (shift : ShiftType)
    (rm : Reg) (s : State) :
    exec (.bicRegImm cond setFlags rn rd shiftImm shift rm) s = execBicRegImm cond setFlags rn rd shiftImm shift rm s :=
  rfl
@[simp] theorem exec_mvnRegImm (cond : Cond) (setFlags : Bool) (rd : Reg) (shiftImm : BitVec 5) (shift : ShiftType)
    (rm : Reg) (s : State) :
    exec (.mvnRegImm cond setFlags rd shiftImm shift rm) s = execMvnRegImm cond setFlags rd shiftImm shift rm s := rfl
@[simp] theorem exec_ldrtReg (cond : Cond) (u : Bool) (rn rd : Reg) (shiftImm : BitVec 5) (shift : ShiftType)
    (rm : Reg) (s : State) :
    exec (.ldrtReg cond u rn rd shiftImm shift rm) s = execLdrtReg cond u rn rd shiftImm shift rm s := rfl
@[simp] theorem exec_strtReg (cond : Cond) (u : Bool) (rn rd : Reg) (shiftImm : BitVec 5) (shift : ShiftType)
    (rm : Reg) (s : State) :
    exec (.strtReg cond u rn rd shiftImm shift rm) s = execStrtReg cond u rn rd shiftImm shift rm s := rfl
@[simp] theorem exec_ldrbtReg (cond : Cond) (u : Bool) (rn rd : Reg) (shiftImm : BitVec 5) (shift : ShiftType)
    (rm : Reg) (s : State) :
    exec (.ldrbtReg cond u rn rd shiftImm shift rm) s = execLdrbtReg cond u rn rd shiftImm shift rm s := rfl
@[simp] theorem exec_strbtReg (cond : Cond) (u : Bool) (rn rd : Reg) (shiftImm : BitVec 5) (shift : ShiftType)
    (rm : Reg) (s : State) :
    exec (.strbtReg cond u rn rd shiftImm shift rm) s = execStrbtReg cond u rn rd shiftImm shift rm s := rfl
@[simp] theorem exec_mcrr (cond : Cond) (rn rd : Reg) (cp opc crm : BitVec 4) (s : State) :
    exec (.mcrr cond rn rd cp opc crm) s = execMcrr cond rn rd cp opc crm s := rfl
@[simp] theorem exec_mrrc (cond : Cond) (rn rd : Reg) (cp opc crm : BitVec 4) (s : State) :
    exec (.mrrc cond rn rd cp opc crm) s = execMrrc cond rn rd cp opc crm s := rfl
@[simp] theorem exec_andImm (cond : Cond) (setFlags : Bool) (rn rd : Reg) (rot : BitVec 4) (imm8 : BitVec 8)
    (s : State) : exec (.andImm cond setFlags rn rd rot imm8) s = execAndImm cond setFlags rn rd rot imm8 s := rfl
@[simp] theorem exec_eorImm (cond : Cond) (setFlags : Bool) (rn rd : Reg) (rot : BitVec 4) (imm8 : BitVec 8)
    (s : State) : exec (.eorImm cond setFlags rn rd rot imm8) s = execEorImm cond setFlags rn rd rot imm8 s := rfl
@[simp] theorem exec_subImm (cond : Cond) (setFlags : Bool) (rn rd : Reg) (rot : BitVec 4) (imm8 : BitVec 8)
    (s : State) : exec (.subImm cond setFlags rn rd rot imm8) s = execSubImm cond setFlags rn rd rot imm8 s := rfl
@[simp] theorem exec_rsbImm (cond : Cond) (setFlags : Bool) (rn rd : Reg) (rot : BitVec 4) (imm8 : BitVec 8)
    (s : State) : exec (.rsbImm cond setFlags rn rd rot imm8) s = execRsbImm cond setFlags rn rd rot imm8 s := rfl
@[simp] theorem exec_addImm (cond : Cond) (setFlags : Bool) (rn rd : Reg) (rot : BitVec 4) (imm8 : BitVec 8)
    (s : State) : exec (.addImm cond setFlags rn rd rot imm8) s = execAddImm cond setFlags rn rd rot imm8 s := rfl
@[simp] theorem exec_adcImm (cond : Cond) (setFlags : Bool) (rn rd : Reg) (rot : BitVec 4) (imm8 : BitVec 8)
    (s : State) : exec (.adcImm cond setFlags rn rd rot imm8) s = execAdcImm cond setFlags rn rd rot imm8 s := rfl
@[simp] theorem exec_sbcImm (cond : Cond) (setFlags : Bool) (rn rd : Reg) (rot : BitVec 4) (imm8 : BitVec 8)
    (s : State) : exec (.sbcImm cond setFlags rn rd rot imm8) s = execSbcImm cond setFlags rn rd rot imm8 s := rfl
@[simp] theorem exec_rscImm (cond : Cond) (setFlags : Bool) (rn rd : Reg) (rot : BitVec 4) (imm8 : BitVec 8)
    (s : State) : exec (.rscImm cond setFlags rn rd rot imm8) s = execRscImm cond setFlags rn rd rot imm8 s := rfl
@[simp] theorem exec_orrImm (cond : Cond) (setFlags : Bool) (rn rd : Reg) (rot : BitVec 4) (imm8 : BitVec 8)
    (s : State) : exec (.orrImm cond setFlags rn rd rot imm8) s = execOrrImm cond setFlags rn rd rot imm8 s := rfl
@[simp] theorem exec_movImm (cond : Cond) (setFlags : Bool) (rd : Reg) (rot : BitVec 4) (imm8 : BitVec 8)
    (s : State) : exec (.movImm cond setFlags rd rot imm8) s = execMovImm cond setFlags rd rot imm8 s := rfl
@[simp] theorem exec_bicImm (cond : Cond) (setFlags : Bool) (rn rd : Reg) (rot : BitVec 4) (imm8 : BitVec 8)
    (s : State) : exec (.bicImm cond setFlags rn rd rot imm8) s = execBicImm cond setFlags rn rd rot imm8 s := rfl
@[simp] theorem exec_mvnImm (cond : Cond) (setFlags : Bool) (rd : Reg) (rot : BitVec 4) (imm8 : BitVec 8)
    (s : State) : exec (.mvnImm cond setFlags rd rot imm8) s = execMvnImm cond setFlags rd rot imm8 s := rfl
@[simp] theorem exec_msrImm (cond : Cond) (r : Bool) (fields rot : BitVec 4) (imm8 : BitVec 8) (s : State) :
    exec (.msrImm cond r fields rot imm8) s = execMsrImm cond r fields rot imm8 s := rfl
@[simp] theorem exec_ldrtImm (cond : Cond) (u : Bool) (rn rd : Reg) (imm12 : BitVec 12) (s : State) :
    exec (.ldrtImm cond u rn rd imm12) s = execLdrtImm cond u rn rd imm12 s := rfl
@[simp] theorem exec_strtImm (cond : Cond) (u : Bool) (rn rd : Reg) (imm12 : BitVec 12) (s : State) :
    exec (.strtImm cond u rn rd imm12) s = execStrtImm cond u rn rd imm12 s := rfl
@[simp] theorem exec_ldrbtImm (cond : Cond) (u : Bool) (rn rd : Reg) (imm12 : BitVec 12) (s : State) :
    exec (.ldrbtImm cond u rn rd imm12) s = execLdrbtImm cond u rn rd imm12 s := rfl
@[simp] theorem exec_strbtImm (cond : Cond) (u : Bool) (rn rd : Reg) (imm12 : BitVec 12) (s : State) :
    exec (.strbtImm cond u rn rd imm12) s = execStrbtImm cond u rn rd imm12 s := rfl
@[simp] theorem exec_ldrReg (cond : Cond) (p u w : Bool) (rn rd : Reg) (shiftImm : BitVec 5) (shift : ShiftType)
    (rm : Reg) (s : State) :
    exec (.ldrReg cond p u w rn rd shiftImm shift rm) s = execLdrReg cond p u w rn rd shiftImm shift rm s := rfl
@[simp] theorem exec_strReg (cond : Cond) (p u w : Bool) (rn rd : Reg) (shiftImm : BitVec 5) (shift : ShiftType)
    (rm : Reg) (s : State) :
    exec (.strReg cond p u w rn rd shiftImm shift rm) s = execStrReg cond p u w rn rd shiftImm shift rm s := rfl
@[simp] theorem exec_ldrbReg (cond : Cond) (p u w : Bool) (rn rd : Reg) (shiftImm : BitVec 5) (shift : ShiftType)
    (rm : Reg) (s : State) :
    exec (.ldrbReg cond p u w rn rd shiftImm shift rm) s = execLdrbReg cond p u w rn rd shiftImm shift rm s := rfl
@[simp] theorem exec_strbReg (cond : Cond) (p u w : Bool) (rn rd : Reg) (shiftImm : BitVec 5) (shift : ShiftType)
    (rm : Reg) (s : State) :
    exec (.strbReg cond p u w rn rd shiftImm shift rm) s = execStrbReg cond p u w rn rd shiftImm shift rm s := rfl
@[simp] theorem exec_ldmUser (cond : Cond) (p u w : Bool) (rn : Reg) (regs : BitVec 15) (s : State) :
    exec (.ldmUser cond p u w rn regs) s = execLdmUser cond p u w rn regs s := rfl
@[simp] theorem exec_ldmReturn (cond : Cond) (p u w : Bool) (rn : Reg) (regs : BitVec 15) (s : State) :
    exec (.ldmReturn cond p u w rn regs) s = execLdmReturn cond p u w rn regs s := rfl
@[simp] theorem exec_mcr (cond : Cond) (opc1 : BitVec 3) (crn : BitVec 4) (rd : Reg) (cp : BitVec 4) (opc2 : BitVec 3)
    (crm : BitVec 4) (s : State) :
    exec (.mcr cond opc1 crn rd cp opc2 crm) s = execMcr cond opc1 crn rd cp opc2 crm s := rfl
@[simp] theorem exec_mrc (cond : Cond) (opc1 : BitVec 3) (crn : BitVec 4) (rd : Reg) (cp : BitVec 4) (opc2 : BitVec 3)
    (crm : BitVec 4) (s : State) :
    exec (.mrc cond opc1 crn rd cp opc2 crm) s = execMrc cond opc1 crn rd cp opc2 crm s := rfl
@[simp] theorem exec_ldcPost (cond : Cond) (u long : Bool) (rn : Reg) (crd cp : BitVec 4) (offset8 : BitVec 8)
    (s : State) : exec (.ldcPost cond u long rn crd cp offset8) s = execLdcPost cond u long rn crd cp offset8 s := rfl
@[simp] theorem exec_stcPost (cond : Cond) (u long : Bool) (rn : Reg) (crd cp : BitVec 4) (offset8 : BitVec 8)
    (s : State) : exec (.stcPost cond u long rn crd cp offset8) s = execStcPost cond u long rn crd cp offset8 s := rfl
@[simp] theorem exec_ldrImm (cond : Cond) (p u w : Bool) (rn rd : Reg) (imm12 : BitVec 12) (s : State) :
    exec (.ldrImm cond p u w rn rd imm12) s = execLdrImm cond p u w rn rd imm12 s := rfl
@[simp] theorem exec_strImm (cond : Cond) (p u w : Bool) (rn rd : Reg) (imm12 : BitVec 12) (s : State) :
    exec (.strImm cond p u w rn rd imm12) s = execStrImm cond p u w rn rd imm12 s := rfl
@[simp] theorem exec_ldrbImm (cond : Cond) (p u w : Bool) (rn rd : Reg) (imm12 : BitVec 12) (s : State) :
    exec (.ldrbImm cond p u w rn rd imm12) s = execLdrbImm cond p u w rn rd imm12 s := rfl
@[simp] theorem exec_strbImm (cond : Cond) (p u w : Bool) (rn rd : Reg) (imm12 : BitVec 12) (s : State) :
    exec (.strbImm cond p u w rn rd imm12) s = execStrbImm cond p u w rn rd imm12 s := rfl
@[simp] theorem exec_ldm (cond : Cond) (p u w : Bool) (rn : Reg) (regs : BitVec 16) (s : State) :
    exec (.ldm cond p u w rn regs) s = execLdm cond p u w rn regs s := rfl
@[simp] theorem exec_stm (cond : Cond) (p u w : Bool) (rn : Reg) (regs : BitVec 16) (s : State) :
    exec (.stm cond p u w rn regs) s = execStm cond p u w rn regs s := rfl
@[simp] theorem exec_stmUser (cond : Cond) (p u w : Bool) (rn : Reg) (regs : BitVec 16) (s : State) :
    exec (.stmUser cond p u w rn regs) s = execStmUser cond p u w rn regs s := rfl
@[simp] theorem exec_cdp (cond : Cond) (opc1 crn crd cp : BitVec 4) (opc2 : BitVec 3) (crm : BitVec 4) (s : State) :
    exec (.cdp cond opc1 crn crd cp opc2 crm) s = execCdp cond opc1 crn crd cp opc2 crm s := rfl
@[simp] theorem exec_ldcPre (cond : Cond) (u long w : Bool) (rn : Reg) (crd cp : BitVec 4) (offset8 : BitVec 8)
    (s : State) :
    exec (.ldcPre cond u long w rn crd cp offset8) s = execLdcPre cond u long w rn crd cp offset8 s := rfl
@[simp] theorem exec_stcPre (cond : Cond) (u long w : Bool) (rn : Reg) (crd cp : BitVec 4) (offset8 : BitVec 8)
    (s : State) :
    exec (.stcPre cond u long w rn crd cp offset8) s = execStcPre cond u long w rn crd cp offset8 s := rfl
@[simp] theorem exec_b (cond : Cond) (imm24 : BitVec 24) (s : State) :
    exec (.b cond imm24) s = execB cond imm24 s := rfl
@[simp] theorem exec_bl (cond : Cond) (imm24 : BitVec 24) (s : State) :
    exec (.bl cond imm24) s = execBl cond imm24 s := rfl
@[simp] theorem exec_swi (cond : Cond) (imm24 : BitVec 24) (s : State) :
    exec (.swi cond imm24) s = execSwi cond imm24 s := rfl
@[simp] theorem exec_tAnd (rm rd : LowReg) (s : State) : exec (.tAnd rm rd) s = execTAnd rm rd s := rfl
@[simp] theorem exec_tEor (rm rd : LowReg) (s : State) : exec (.tEor rm rd) s = execTEor rm rd s := rfl
@[simp] theorem exec_tLslReg (rm rd : LowReg) (s : State) : exec (.tLslReg rm rd) s = execTLslReg rm rd s := rfl
@[simp] theorem exec_tLsrReg (rm rd : LowReg) (s : State) : exec (.tLsrReg rm rd) s = execTLsrReg rm rd s := rfl
@[simp] theorem exec_tAsrReg (rm rd : LowReg) (s : State) : exec (.tAsrReg rm rd) s = execTAsrReg rm rd s := rfl
@[simp] theorem exec_tAdc (rm rd : LowReg) (s : State) : exec (.tAdc rm rd) s = execTAdc rm rd s := rfl
@[simp] theorem exec_tSbc (rm rd : LowReg) (s : State) : exec (.tSbc rm rd) s = execTSbc rm rd s := rfl
@[simp] theorem exec_tRor (rm rd : LowReg) (s : State) : exec (.tRor rm rd) s = execTRor rm rd s := rfl
@[simp] theorem exec_tTst (rm rd : LowReg) (s : State) : exec (.tTst rm rd) s = execTTst rm rd s := rfl
@[simp] theorem exec_tNeg (rm rd : LowReg) (s : State) : exec (.tNeg rm rd) s = execTNeg rm rd s := rfl
@[simp] theorem exec_tCmpLow (rm rd : LowReg) (s : State) : exec (.tCmpLow rm rd) s = execTCmpLow rm rd s := rfl
@[simp] theorem exec_tCmn (rm rd : LowReg) (s : State) : exec (.tCmn rm rd) s = execTCmn rm rd s := rfl
@[simp] theorem exec_tOrr (rm rd : LowReg) (s : State) : exec (.tOrr rm rd) s = execTOrr rm rd s := rfl
@[simp] theorem exec_tMul (rm rd : LowReg) (s : State) : exec (.tMul rm rd) s = execTMul rm rd s := rfl
@[simp] theorem exec_tBic (rm rd : LowReg) (s : State) : exec (.tBic rm rd) s = execTBic rm rd s := rfl
@[simp] theorem exec_tMvn (rm rd : LowReg) (s : State) : exec (.tMvn rm rd) s = execTMvn rm rd s := rfl
@[simp] theorem exec_tBx (h2 : Bool) (rm : LowReg) (s : State) : exec (.tBx h2 rm) s = execTBx h2 rm s := rfl
@[simp] theorem exec_tBlxReg (h2 : Bool) (rm : LowReg) (s : State) :
    exec (.tBlxReg h2 rm) s = execTBlxReg h2 rm s := rfl
@[simp] theorem exec_tAddSp (imm7 : BitVec 7) (s : State) : exec (.tAddSp imm7) s = execTAddSp imm7 s := rfl
@[simp] theorem exec_tSubSp (imm7 : BitVec 7) (s : State) : exec (.tSubSp imm7) s = execTSubSp imm7 s := rfl
@[simp] theorem exec_tAddHigh (h1 h2 : Bool) (rm rd : LowReg) (s : State) :
    exec (.tAddHigh h1 h2 rm rd) s = execTAddHigh h1 h2 rm rd s := rfl
@[simp] theorem exec_tCmpHigh (h1 h2 : Bool) (rm rd : LowReg) (s : State) :
    exec (.tCmpHigh h1 h2 rm rd) s = execTCmpHigh h1 h2 rm rd s := rfl
@[simp] theorem exec_tMovHigh (h1 h2 : Bool) (rm rd : LowReg) (s : State) :
    exec (.tMovHigh h1 h2 rm rd) s = execTMovHigh h1 h2 rm rd s := rfl
@[simp] theorem exec_tBkpt (imm8 : BitVec 8) (s : State) : exec (.tBkpt imm8) s = execTBkpt imm8 s := rfl
@[simp] theorem exec_tSwi (imm8 : BitVec 8) (s : State) : exec (.tSwi imm8) s = execTSwi imm8 s := rfl
@[simp] theorem exec_tUnallocated (imm8 : BitVec 8) (s : State) :
    exec (.tUnallocated imm8) s = execTUnallocated imm8 s := rfl
@[simp] theorem exec_tAddReg3 (rm rn rd : LowReg) (s : State) :
    exec (.tAddReg3 rm rn rd) s = execTAddReg3 rm rn rd s := rfl
@[simp] theorem exec_tSubReg3 (rm rn rd : LowReg) (s : State) :
    exec (.tSubReg3 rm rn rd) s = execTSubReg3 rm rn rd s := rfl
@[simp] theorem exec_tAddImm3 (imm3 : BitVec 3) (rn rd : LowReg) (s : State) :
    exec (.tAddImm3 imm3 rn rd) s = execTAddImm3 imm3 rn rd s := rfl
@[simp] theorem exec_tSubImm3 (imm3 : BitVec 3) (rn rd : LowReg) (s : State) :
    exec (.tSubImm3 imm3 rn rd) s = execTSubImm3 imm3 rn rd s := rfl
@[simp] theorem exec_tStrReg (rm rn rd : LowReg) (s : State) :
    exec (.tStrReg rm rn rd) s = execTStrReg rm rn rd s := rfl
@[simp] theorem exec_tStrhReg (rm rn rd : LowReg) (s : State) :
    exec (.tStrhReg rm rn rd) s = execTStrhReg rm rn rd s := rfl
@[simp] theorem exec_tStrbReg (rm rn rd : LowReg) (s : State) :
    exec (.tStrbReg rm rn rd) s = execTStrbReg rm rn rd s := rfl
@[simp] theorem exec_tLdrsbReg (rm rn rd : LowReg) (s : State) :
    exec (.tLdrsbReg rm rn rd) s = execTLdrsbReg rm rn rd s := rfl
@[simp] theorem exec_tLdrReg (rm rn rd : LowReg) (s : State) :
    exec (.tLdrReg rm rn rd) s = execTLdrReg rm rn rd s := rfl
@[simp] theorem exec_tLdrhReg (rm rn rd : LowReg) (s : State) :
    exec (.tLdrhReg rm rn rd) s = execTLdrhReg rm rn rd s := rfl
@[simp] theorem exec_tLdrbReg (rm rn rd : LowReg) (s : State) :
    exec (.tLdrbReg rm rn rd) s = execTLdrbReg rm rn rd s := rfl
@[simp] theorem exec_tLdrshReg (rm rn rd : LowReg) (s : State) :
    exec (.tLdrshReg rm rn rd) s = execTLdrshReg rm rn rd s := rfl
@[simp] theorem exec_tPush (r : Bool) (regs : BitVec 8) (s : State) :
    exec (.tPush r regs) s = execTPush r regs s := rfl
@[simp] theorem exec_tPop (r : Bool) (regs : BitVec 8) (s : State) : exec (.tPop r regs) s = execTPop r regs s := rfl
@[simp] theorem exec_tBlxSecond (lo10 : BitVec 10) (s : State) :
    exec (.tBlxSecond lo10) s = execTBlxSecond lo10 s := rfl
@[simp] theorem exec_tLslImm (imm5 : BitVec 5) (rm rd : LowReg) (s : State) :
    exec (.tLslImm imm5 rm rd) s = execTLslImm imm5 rm rd s := rfl
@[simp] theorem exec_tLsrImm (imm5 : BitVec 5) (rm rd : LowReg) (s : State) :
    exec (.tLsrImm imm5 rm rd) s = execTLsrImm imm5 rm rd s := rfl
@[simp] theorem exec_tAsrImm (imm5 : BitVec 5) (rm rd : LowReg) (s : State) :
    exec (.tAsrImm imm5 rm rd) s = execTAsrImm imm5 rm rd s := rfl
@[simp] theorem exec_tMovImm8 (rd : LowReg) (imm8 : BitVec 8) (s : State) :
    exec (.tMovImm8 rd imm8) s = execTMovImm8 rd imm8 s := rfl
@[simp] theorem exec_tCmpImm8 (rn : LowReg) (imm8 : BitVec 8) (s : State) :
    exec (.tCmpImm8 rn imm8) s = execTCmpImm8 rn imm8 s := rfl
@[simp] theorem exec_tAddImm8 (rd : LowReg) (imm8 : BitVec 8) (s : State) :
    exec (.tAddImm8 rd imm8) s = execTAddImm8 rd imm8 s := rfl
@[simp] theorem exec_tSubImm8 (rd : LowReg) (imm8 : BitVec 8) (s : State) :
    exec (.tSubImm8 rd imm8) s = execTSubImm8 rd imm8 s := rfl
@[simp] theorem exec_tLdrPc (rd : LowReg) (imm8 : BitVec 8) (s : State) :
    exec (.tLdrPc rd imm8) s = execTLdrPc rd imm8 s := rfl
@[simp] theorem exec_tStrImm (imm5 : BitVec 5) (rn rd : LowReg) (s : State) :
    exec (.tStrImm imm5 rn rd) s = execTStrImm imm5 rn rd s := rfl
@[simp] theorem exec_tLdrImm (imm5 : BitVec 5) (rn rd : LowReg) (s : State) :
    exec (.tLdrImm imm5 rn rd) s = execTLdrImm imm5 rn rd s := rfl
@[simp] theorem exec_tStrbImm (imm5 : BitVec 5) (rn rd : LowReg) (s : State) :
    exec (.tStrbImm imm5 rn rd) s = execTStrbImm imm5 rn rd s := rfl
@[simp] theorem exec_tLdrbImm (imm5 : BitVec 5) (rn rd : LowReg) (s : State) :
    exec (.tLdrbImm imm5 rn rd) s = execTLdrbImm imm5 rn rd s := rfl
@[simp] theorem exec_tStrhImm (imm5 : BitVec 5) (rn rd : LowReg) (s : State) :
    exec (.tStrhImm imm5 rn rd) s = execTStrhImm imm5 rn rd s := rfl
@[simp] theorem exec_tLdrhImm (imm5 : BitVec 5) (rn rd : LowReg) (s : State) :
    exec (.tLdrhImm imm5 rn rd) s = execTLdrhImm imm5 rn rd s := rfl
@[simp] theorem exec_tStrSpRel (rd : LowReg) (imm8 : BitVec 8) (s : State) :
    exec (.tStrSpRel rd imm8) s = execTStrSpRel rd imm8 s := rfl
@[simp] theorem exec_tLdrSpRel (rd : LowReg) (imm8 : BitVec 8) (s : State) :
    exec (.tLdrSpRel rd imm8) s = execTLdrSpRel rd imm8 s := rfl
@[simp] theorem exec_tAddPcImm (rd : LowReg) (imm8 : BitVec 8) (s : State) :
    exec (.tAddPcImm rd imm8) s = execTAddPcImm rd imm8 s := rfl
@[simp] theorem exec_tAddSpImm (rd : LowReg) (imm8 : BitVec 8) (s : State) :
    exec (.tAddSpImm rd imm8) s = execTAddSpImm rd imm8 s := rfl
@[simp] theorem exec_tStmia (rn : LowReg) (regs : BitVec 8) (s : State) :
    exec (.tStmia rn regs) s = execTStmia rn regs s := rfl
@[simp] theorem exec_tLdmia (rn : LowReg) (regs : BitVec 8) (s : State) :
    exec (.tLdmia rn regs) s = execTLdmia rn regs s := rfl
@[simp] theorem exec_tB (imm11 : BitVec 11) (s : State) : exec (.tB imm11) s = execTB imm11 s := rfl
@[simp] theorem exec_tBlFirst (hi11 : BitVec 11) (s : State) : exec (.tBlFirst hi11) s = execTBlFirst hi11 s := rfl
@[simp] theorem exec_tBlSecond (lo11 : BitVec 11) (s : State) : exec (.tBlSecond lo11) s = execTBlSecond lo11 s := rfl
@[simp] theorem exec_tBCond (cond : Cond) (imm8 : BitVec 8) (s : State) :
    exec (.tBCond cond imm8) s = execTBCond cond imm8 s := rfl

end Sys2Proof.Machine
end

