-- ==== Sys2Proof/Laws/State.lean ====
section
/-! SUPPORT. What each small update of the state leaves in each field: one lemma per field per update, so that no later
proof unfolds a record update. -/

namespace Sys2Proof.Machine

/-! ### `State.setPc` -/

@[simp] theorem State.setPc_gpr (s : State) (a : Word) : (s.setPc a).gpr = s.gpr := rfl
@[simp] theorem State.setPc_pc (s : State) (a : Word) : (s.setPc a).pc = a := rfl
@[simp] theorem State.setPc_cpsr (s : State) (a : Word) : (s.setPc a).cpsr = s.cpsr := rfl
@[simp] theorem State.setPc_spsrFiq (s : State) (a : Word) : (s.setPc a).spsrFiq = s.spsrFiq := rfl
@[simp] theorem State.setPc_spsrIrq (s : State) (a : Word) : (s.setPc a).spsrIrq = s.spsrIrq := rfl
@[simp] theorem State.setPc_spsrSvc (s : State) (a : Word) : (s.setPc a).spsrSvc = s.spsrSvc := rfl
@[simp] theorem State.setPc_spsrAbt (s : State) (a : Word) : (s.setPc a).spsrAbt = s.spsrAbt := rfl
@[simp] theorem State.setPc_spsrUnd (s : State) (a : Word) : (s.setPc a).spsrUnd = s.spsrUnd := rfl
@[simp] theorem State.setPc_vfp (s : State) (a : Word) : (s.setPc a).vfp = s.vfp := rfl
@[simp] theorem State.setPc_fpscr (s : State) (a : Word) : (s.setPc a).fpscr = s.fpscr := rfl
@[simp] theorem State.setPc_fpexc (s : State) (a : Word) : (s.setPc a).fpexc = s.fpexc := rfl
@[simp] theorem State.setPc_fpsid (s : State) (a : Word) : (s.setPc a).fpsid = s.fpsid := rfl
@[simp] theorem State.setPc_acc0 (s : State) (a : Word) : (s.setPc a).acc0 = s.acc0 := rfl
@[simp] theorem State.setPc_mem (s : State) (a : Word) : (s.setPc a).mem = s.mem := rfl
@[simp] theorem State.setPc_cfg (s : State) (a : Word) : (s.setPc a).cfg = s.cfg := rfl
@[simp] theorem State.setPc_draws (s : State) (a : Word) : (s.setPc a).draws = s.draws := rfl
@[simp] theorem State.setPc_coproc (s : State) (a : Word) : (s.setPc a).coproc = s.coproc := rfl
@[simp] theorem State.setPc_answer (s : State) (a : Word) : (s.setPc a).answer = s.answer := rfl
@[simp] theorem State.setPc_inputs (s : State) (a : Word) : (s.setPc a).inputs = s.inputs := rfl
@[simp] theorem State.setPc_exited (s : State) (a : Word) : (s.setPc a).exited = s.exited := rfl

/-! ### `State.setNzcv` -/

@[simp] theorem State.setNzcv_gpr (s : State) (f : Nzcv) : (s.setNzcv f).gpr = s.gpr := rfl
@[simp] theorem State.setNzcv_pc (s : State) (f : Nzcv) : (s.setNzcv f).pc = s.pc := rfl
@[simp] theorem State.setNzcv_cpsr (s : State) (f : Nzcv) : (s.setNzcv f).cpsr = s.cpsr.withNzcv f := rfl
@[simp] theorem State.setNzcv_spsrFiq (s : State) (f : Nzcv) : (s.setNzcv f).spsrFiq = s.spsrFiq := rfl
@[simp] theorem State.setNzcv_spsrIrq (s : State) (f : Nzcv) : (s.setNzcv f).spsrIrq = s.spsrIrq := rfl
@[simp] theorem State.setNzcv_spsrSvc (s : State) (f : Nzcv) : (s.setNzcv f).spsrSvc = s.spsrSvc := rfl
@[simp] theorem State.setNzcv_spsrAbt (s : State) (f : Nzcv) : (s.setNzcv f).spsrAbt = s.spsrAbt := rfl
@[simp] theorem State.setNzcv_spsrUnd (s : State) (f : Nzcv) : (s.setNzcv f).spsrUnd = s.spsrUnd := rfl
@[simp] theorem State.setNzcv_vfp (s : State) (f : Nzcv) : (s.setNzcv f).vfp = s.vfp := rfl
@[simp] theorem State.setNzcv_fpscr (s : State) (f : Nzcv) : (s.setNzcv f).fpscr = s.fpscr := rfl
@[simp] theorem State.setNzcv_fpexc (s : State) (f : Nzcv) : (s.setNzcv f).fpexc = s.fpexc := rfl
@[simp] theorem State.setNzcv_fpsid (s : State) (f : Nzcv) : (s.setNzcv f).fpsid = s.fpsid := rfl
@[simp] theorem State.setNzcv_acc0 (s : State) (f : Nzcv) : (s.setNzcv f).acc0 = s.acc0 := rfl
@[simp] theorem State.setNzcv_mem (s : State) (f : Nzcv) : (s.setNzcv f).mem = s.mem := rfl
@[simp] theorem State.setNzcv_cfg (s : State) (f : Nzcv) : (s.setNzcv f).cfg = s.cfg := rfl
@[simp] theorem State.setNzcv_draws (s : State) (f : Nzcv) : (s.setNzcv f).draws = s.draws := rfl
@[simp] theorem State.setNzcv_coproc (s : State) (f : Nzcv) : (s.setNzcv f).coproc = s.coproc := rfl
@[simp] theorem State.setNzcv_answer (s : State) (f : Nzcv) : (s.setNzcv f).answer = s.answer := rfl
@[simp] theorem State.setNzcv_inputs (s : State) (f : Nzcv) : (s.setNzcv f).inputs = s.inputs := rfl
@[simp] theorem State.setNzcv_exited (s : State) (f : Nzcv) : (s.setNzcv f).exited = s.exited := rfl

/-! ### `State.setQIf` -/

@[simp] theorem State.setQIf_gpr (s : State) (b : Bool) : (s.setQIf b).gpr = s.gpr := rfl
@[simp] theorem State.setQIf_pc (s : State) (b : Bool) : (s.setQIf b).pc = s.pc := rfl
@[simp] theorem State.setQIf_cpsr (s : State) (b : Bool) : (s.setQIf b).cpsr = { s.cpsr with q := s.cpsr.q || b } := rfl
@[simp] theorem State.setQIf_spsrFiq (s : State) (b : Bool) : (s.setQIf b).spsrFiq = s.spsrFiq := rfl
@[simp] theorem State.setQIf_spsrIrq (s : State) (b : Bool) : (s.setQIf b).spsrIrq = s.spsrIrq := rfl
@[simp] theorem State.setQIf_spsrSvc (s : State) (b : Bool) : (s.setQIf b).spsrSvc = s.spsrSvc := rfl
@[simp] theorem State.setQIf_spsrAbt (s : State) (b : Bool) : (s.setQIf b).spsrAbt = s.spsrAbt := rfl
@[simp] theorem State.setQIf_spsrUnd (s : State) (b : Bool) : (s.setQIf b).spsrUnd = s.spsrUnd := rfl
@[simp] theorem State.setQIf_vfp (s : State) (b : Bool) : (s.setQIf b).vfp = s.vfp := rfl
@[simp] theorem State.setQIf_fpscr (s : State) (b : Bool) : (s.setQIf b).fpscr = s.fpscr := rfl
@[simp] theorem State.setQIf_fpexc (s : State) (b : Bool) : (s.setQIf b).fpexc = s.fpexc := rfl
@[simp] theorem State.setQIf_fpsid (s : State) (b : Bool) : (s.setQIf b).fpsid = s.fpsid := rfl
@[simp] theorem State.setQIf_acc0 (s : State) (b : Bool) : (s.setQIf b).acc0 = s.acc0 := rfl
@[simp] theorem State.setQIf_mem (s : State) (b : Bool) : (s.setQIf b).mem = s.mem := rfl
@[simp] theorem State.setQIf_cfg (s : State) (b : Bool) : (s.setQIf b).cfg = s.cfg := rfl
@[simp] theorem State.setQIf_draws (s : State) (b : Bool) : (s.setQIf b).draws = s.draws := rfl
@[simp] theorem State.setQIf_coproc (s : State) (b : Bool) : (s.setQIf b).coproc = s.coproc := rfl
@[simp] theorem State.setQIf_answer (s : State) (b : Bool) : (s.setQIf b).answer = s.answer := rfl
@[simp] theorem State.setQIf_inputs (s : State) (b : Bool) : (s.setQIf b).inputs = s.inputs := rfl
@[simp] theorem State.setQIf_exited (s : State) (b : Bool) : (s.setQIf b).exited = s.exited := rfl

/-! ### `State.setThumb` -/

@[simp] theorem State.setThumb_gpr (s : State) (b : Bool) : (s.setThumb b).gpr = s.gpr := rfl
@[simp] theorem State.setThumb_pc (s : State) (b : Bool) : (s.setThumb b).pc = s.pc := rfl
@[simp] theorem State.setThumb_cpsr (s : State) (b : Bool) : (s.setThumb b).cpsr = { s.cpsr with t := b } := rfl
@[simp] theorem State.setThumb_spsrFiq (s : State) (b : Bool) : (s.setThumb b).spsrFiq = s.spsrFiq := rfl
@[simp] theorem State.setThumb_spsrIrq (s : State) (b : Bool) : (s.setThumb b).spsrIrq = s.spsrIrq := rfl
@[simp] theorem State.setThumb_spsrSvc (s : State) (b : Bool) : (s.setThumb b).spsrSvc = s.spsrSvc := rfl
@[simp] theorem State.setThumb_spsrAbt (s : State) (b : Bool) : (s.setThumb b).spsrAbt = s.spsrAbt := rfl
@[simp] theorem State.setThumb_spsrUnd (s : State) (b : Bool) : (s.setThumb b).spsrUnd = s.spsrUnd := rfl
@[simp] theorem State.setThumb_vfp (s : State) (b : Bool) : (s.setThumb b).vfp = s.vfp := rfl
@[simp] theorem State.setThumb_fpscr (s : State) (b : Bool) : (s.setThumb b).fpscr = s.fpscr := rfl
@[simp] theorem State.setThumb_fpexc (s : State) (b : Bool) : (s.setThumb b).fpexc = s.fpexc := rfl
@[simp] theorem State.setThumb_fpsid (s : State) (b : Bool) : (s.setThumb b).fpsid = s.fpsid := rfl
@[simp] theorem State.setThumb_acc0 (s : State) (b : Bool) : (s.setThumb b).acc0 = s.acc0 := rfl
@[simp] theorem State.setThumb_mem (s : State) (b : Bool) : (s.setThumb b).mem = s.mem := rfl
@[simp] theorem State.setThumb_cfg (s : State) (b : Bool) : (s.setThumb b).cfg = s.cfg := rfl
@[simp] theorem State.setThumb_draws (s : State) (b : Bool) : (s.setThumb b).draws = s.draws := rfl
@[simp] theorem State.setThumb_coproc (s : State) (b : Bool) : (s.setThumb b).coproc = s.coproc := rfl
@[simp] theorem State.setThumb_answer (s : State) (b : Bool) : (s.setThumb b).answer = s.answer := rfl
@[simp] theorem State.setThumb_inputs (s : State) (b : Bool) : (s.setThumb b).inputs = s.inputs := rfl
@[simp] theorem State.setThumb_exited (s : State) (b : Bool) : (s.setThumb b).exited = s.exited := rfl

/-! ### `State.setCpsr` -/

@[simp] theorem State.setCpsr_gpr (s : State) (p : Psr) : (s.setCpsr p).gpr = s.gpr := rfl
@[simp] theorem State.setCpsr_pc (s : State) (p : Psr) : (s.setCpsr p).pc = s.pc := rfl
@[simp] theorem State.setCpsr_cpsr (s : State) (p : Psr) : (s.setCpsr p).cpsr = p := rfl
@[simp] theorem State.setCpsr_spsrFiq (s : State) (p : Psr) : (s.setCpsr p).spsrFiq = s.spsrFiq := rfl
@[simp] theorem State.setCpsr_spsrIrq (s : State) (p : Psr) : (s.setCpsr p).spsrIrq = s.spsrIrq := rfl
@[simp] theorem State.setCpsr_spsrSvc (s : State) (p : Psr) : (s.setCpsr p).spsrSvc = s.spsrSvc := rfl
@[simp] theorem State.setCpsr_spsrAbt (s : State) (p : Psr) : (s.setCpsr p).spsrAbt = s.spsrAbt := rfl
@[simp] theorem State.setCpsr_spsrUnd (s : State) (p : Psr) : (s.setCpsr p).spsrUnd = s.spsrUnd := rfl
@[simp] theorem State.setCpsr_vfp (s : State) (p : Psr) : (s.setCpsr p).vfp = s.vfp := rfl
@[simp] theorem State.setCpsr_fpscr (s : State) (p : Psr) : (s.setCpsr p).fpscr = s.fpscr := rfl
@[simp] theorem State.setCpsr_fpexc (s : State) (p : Psr) : (s.setCpsr p).fpexc = s.fpexc := rfl
@[simp] theorem State.setCpsr_fpsid (s : State) (p : Psr) : (s.setCpsr p).fpsid = s.fpsid := rfl
@[simp] theorem State.setCpsr_acc0 (s : State) (p : Psr) : (s.setCpsr p).acc0 = s.acc0 := rfl
@[simp] theorem State.setCpsr_mem (s : State) (p : Psr) : (s.setCpsr p).mem = s.mem := rfl
@[simp] theorem State.setCpsr_cfg (s : State) (p : Psr) : (s.setCpsr p).cfg = s.cfg := rfl
@[simp] theorem State.setCpsr_draws (s : State) (p : Psr) : (s.setCpsr p).draws = s.draws := rfl
@[simp] theorem State.setCpsr_coproc (s : State) (p : Psr) : (s.setCpsr p).coproc = s.coproc := rfl
@[simp] theorem State.setCpsr_answer (s : State) (p : Psr) : (s.setCpsr p).answer = s.answer := rfl
@[simp] theorem State.setCpsr_inputs (s : State) (p : Psr) : (s.setCpsr p).inputs = s.inputs := rfl
@[simp] theorem State.setCpsr_exited (s : State) (p : Psr) : (s.setCpsr p).exited = s.exited := rfl

/-! ### `State.setAcc` -/

@[simp] theorem State.setAcc_gpr (s : State) (v : BitVec 40) : (s.setAcc v).gpr = s.gpr := rfl
@[simp] theorem State.setAcc_pc (s : State) (v : BitVec 40) : (s.setAcc v).pc = s.pc := rfl
@[simp] theorem State.setAcc_cpsr (s : State) (v : BitVec 40) : (s.setAcc v).cpsr = s.cpsr := rfl
@[simp] theorem State.setAcc_spsrFiq (s : State) (v : BitVec 40) : (s.setAcc v).spsrFiq = s.spsrFiq := rfl
@[simp] theorem State.setAcc_spsrIrq (s : State) (v : BitVec 40) : (s.setAcc v).spsrIrq = s.spsrIrq := rfl
@[simp] theorem State.setAcc_spsrSvc (s : State) (v : BitVec 40) : (s.setAcc v).spsrSvc = s.spsrSvc := rfl
@[simp] theorem State.setAcc_spsrAbt (s : State) (v : BitVec 40) : (s.setAcc v).spsrAbt = s.spsrAbt := rfl
@[simp] theorem State.setAcc_spsrUnd (s : State) (v : BitVec 40) : (s.setAcc v).spsrUnd = s.spsrUnd := rfl
@[simp] theorem State.setAcc_vfp (s : State) (v : BitVec 40) : (s.setAcc v).vfp = s.vfp := rfl
@[simp] theorem State.setAcc_fpscr (s : State) (v : BitVec 40) : (s.setAcc v).fpscr = s.fpscr := rfl
@[simp] theorem State.setAcc_fpexc (s : State) (v : BitVec 40) : (s.setAcc v).fpexc = s.fpexc := rfl
@[simp] theorem State.setAcc_fpsid (s : State) (v : BitVec 40) : (s.setAcc v).fpsid = s.fpsid := rfl
@[simp] theorem State.setAcc_acc0 (s : State) (v : BitVec 40) : (s.setAcc v).acc0 = v := rfl
@[simp] theorem State.setAcc_mem (s : State) (v : BitVec 40) : (s.setAcc v).mem = s.mem := rfl
@[simp] theorem State.setAcc_cfg (s : State) (v : BitVec 40) : (s.setAcc v).cfg = s.cfg := rfl
@[simp] theorem State.setAcc_draws (s : State) (v : BitVec 40) : (s.setAcc v).draws = s.draws := rfl
@[simp] theorem State.setAcc_coproc (s : State) (v : BitVec 40) : (s.setAcc v).coproc = s.coproc := rfl
@[simp] theorem State.setAcc_answer (s : State) (v : BitVec 40) : (s.setAcc v).answer = s.answer := rfl
@[simp] theorem State.setAcc_inputs (s : State) (v : BitVec 40) : (s.setAcc v).inputs = s.inputs := rfl
@[simp] theorem State.setAcc_exited (s : State) (v : BitVec 40) : (s.setAcc v).exited = s.exited := rfl

/-! ### `State.drawn` -/

@[simp] theorem State.drawn_gpr (s : State) (k : Nat) : (s.drawn k).gpr = s.gpr := rfl
@[simp] theorem State.drawn_pc (s : State) (k : Nat) : (s.drawn k).pc = s.pc := rfl
@[simp] theorem State.drawn_cpsr (s : State) (k : Nat) : (s.drawn k).cpsr = s.cpsr := rfl
@[simp] theorem State.drawn_spsrFiq (s : State) (k : Nat) : (s.drawn k).spsrFiq = s.spsrFiq := rfl
@[simp] theorem State.drawn_spsrIrq (s : State) (k : Nat) : (s.drawn k).spsrIrq = s.spsrIrq := rfl
@[simp] theorem State.drawn_spsrSvc (s : State) (k : Nat) : (s.drawn k).spsrSvc = s.spsrSvc := rfl
@[simp] theorem State.drawn_spsrAbt (s : State) (k : Nat) : (s.drawn k).spsrAbt = s.spsrAbt := rfl
@[simp] theorem State.drawn_spsrUnd (s : State) (k : Nat) : (s.drawn k).spsrUnd = s.spsrUnd := rfl
@[simp] theorem State.drawn_vfp (s : State) (k : Nat) : (s.drawn k).vfp = s.vfp := rfl
@[simp] theorem State.drawn_fpscr (s : State) (k : Nat) : (s.drawn k).fpscr = s.fpscr := rfl
@[simp] theorem State.drawn_fpexc (s : State) (k : Nat) : (s.drawn k).fpexc = s.fpexc := rfl
@[simp] theorem State.drawn_fpsid (s : State) (k : Nat) : (s.drawn k).fpsid = s.fpsid := rfl
@[simp] theorem State.drawn_acc0 (s : State) (k : Nat) : (s.drawn k).acc0 = s.acc0 := rfl
@[simp] theorem State.drawn_mem (s : State) (k : Nat) : (s.drawn k).mem = s.mem := rfl
@[simp] theorem State.drawn_cfg (s : State) (k : Nat) : (s.drawn k).cfg = s.cfg := rfl
@[simp] theorem State.drawn_draws (s : State) (k : Nat) : (s.drawn k).draws = s.draws + k := rfl
@[simp] theorem State.drawn_coproc (s : State) (k : Nat) : (s.drawn k).coproc = s.coproc := rfl
@[simp] theorem State.drawn_answer (s : State) (k : Nat) : (s.drawn k).answer = s.answer := rfl
@[simp] theorem State.drawn_inputs (s : State) (k : Nat) : (s.drawn k).inputs = s.inputs := rfl
@[simp] theorem State.drawn_exited (s : State) (k : Nat) : (s.drawn k).exited = s.exited := rfl

/-! ### `State.setByte` -/

@[simp] theorem State.setByte_gpr (s : State) (a : Word) (v : Byte) : (s.setByte a v).gpr = s.gpr := rfl
@[simp] theorem State.setByte_pc (s : State) (a : Word) (v : Byte) : (s.setByte a v).pc = s.pc := rfl
@[simp] theorem State.setByte_cpsr (s : State) (a : Word) (v : Byte) : (s.setByte a v).cpsr = s.cpsr := rfl
@[simp] theorem State.setByte_spsrFiq (s : State) (a : Word) (v : Byte) : (s.setByte a v).spsrFiq = s.spsrFiq := rfl
@[simp] theorem State.setByte_spsrIrq (s : State) (a : Word) (v : Byte) : (s.setByte a v).spsrIrq = s.spsrIrq := rfl
@[simp] theorem State.setByte_spsrSvc (s : State) (a : Word) (v : Byte) : (s.setByte a v).spsrSvc = s.spsrSvc := rfl
@[simp] theorem State.setByte_spsrAbt (s : State) (a : Word) (v : Byte) : (s.setByte a v).spsrAbt = s.spsrAbt := rfl
@[simp] theorem State.setByte_spsrUnd (s : State) (a : Word) (v : Byte) : (s.setByte a v).spsrUnd = s.spsrUnd := rfl
@[simp] theorem State.setByte_vfp (s : State) (a : Word) (v : Byte) : (s.setByte a v).vfp = s.vfp := rfl
@[simp] theorem State.setByte_fpscr (s : State) (a : Word) (v : Byte) : (s.setByte a v).fpscr = s.fpscr := rfl
@[simp] theorem State.setByte_fpexc (s : State) (a : Word) (v : Byte) : (s.setByte a v).fpexc = s.fpexc := rfl
@[simp] theorem State.setByte_fpsid (s : State) (a : Word) (v : Byte) : (s.setByte a v).fpsid = s.fpsid := rfl
@[simp] theorem State.setByte_acc0 (s : State) (a : Word) (v : Byte) : (s.setByte a v).acc0 = s.acc0 := rfl
@[simp] theorem State.setByte_mem (s : State) (a : Word) (v : Byte) : (s.setByte a v).mem = s.mem.write a.toNat v := rfl
@[simp] theorem State.setByte_cfg (s : State) (a : Word) (v : Byte) : (s.setByte a v).cfg = s.cfg := rfl
@[simp] theorem State.setByte_draws (s : State) (a : Word) (v : Byte) : (s.setByte a v).draws = s.draws := rfl
@[simp] theorem State.setByte_coproc (s : State) (a : Word) (v : Byte) : (s.setByte a v).coproc = s.coproc := rfl
@[simp] theorem State.setByte_answer (s : State) (a : Word) (v : Byte) : (s.setByte a v).answer = s.answer := rfl
@[simp] theorem State.setByte_inputs (s : State) (a : Word) (v : Byte) : (s.setByte a v).inputs = s.inputs := rfl
@[simp] theorem State.setByte_exited (s : State) (a : Word) (v : Byte) : (s.setByte a v).exited = s.exited := rfl

/-! ### `State.setBankReg` -/

@[simp] theorem State.setBankReg_gpr (s : State) (b : Bank) (r : Reg) (v : Word) : (s.setBankReg b r v).gpr = s.gpr.set (physReg b r) v := rfl
@[simp] theorem State.setBankReg_pc (s : State) (b : Bank) (r : Reg) (v : Word) : (s.setBankReg b r v).pc = s.pc := rfl
@[simp] theorem State.setBankReg_cpsr (s : State) (b : Bank) (r : Reg) (v : Word) : (s.setBankReg b r v).cpsr = s.cpsr := rfl
@[simp] theorem State.setBankReg_spsrFiq (s : State) (b : Bank) (r : Reg) (v : Word) : (s.setBankReg b r v).spsrFiq = s.spsrFiq := rfl
@[simp] theorem State.setBankReg_spsrIrq (s : State) (b : Bank) (r : Reg) (v : Word) : (s.setBankReg b r v).spsrIrq = s.spsrIrq := rfl
@[simp] theorem State.setBankReg_spsrSvc (s : State) (b : Bank) (r : Reg) (v : Word) : (s.setBankReg b r v).spsrSvc = s.spsrSvc := rfl
@[simp] theorem State.setBankReg_spsrAbt (s : State) (b : Bank) (r : Reg) (v : Word) : (s.setBankReg b r v).spsrAbt = s.spsrAbt := rfl
@[simp] theorem State.setBankReg_spsrUnd (s : State) (b : Bank) (r : Reg) (v : Word) : (s.setBankReg b r v).spsrUnd = s.spsrUnd := rfl
@[simp] theorem State.setBankReg_vfp (s : State) (b : Bank) (r : Reg) (v : Word) : (s.setBankReg b r v).vfp = s.vfp := rfl
@[simp] theorem State.setBankReg_fpscr (s : State) (b : Bank) (r : Reg) (v : Word) : (s.setBankReg b r v).fpscr = s.fpscr := rfl
@[simp] theorem State.setBankReg_fpexc (s : State) (b : Bank) (r : Reg) (v : Word) : (s.setBankReg b r v).fpexc = s.fpexc := rfl
@[simp] theorem State.setBankReg_fpsid (s : State) (b : Bank) (r : Reg) (v : Word) : (s.setBankReg b r v).fpsid = s.fpsid := rfl
@[simp] theorem State.setBankReg_acc0 (s : State) (b : Bank) (r : Reg) (v : Word) : (s.setBankReg b r v).acc0 = s.acc0 := rfl
@[simp] theorem State.setBankReg_mem (s : State) (b : Bank) (r : Reg) (v : Word) : (s.setBankReg b r v).mem = s.mem := rfl
@[simp] theorem State.setBankReg_cfg (s : State) (b : Bank) (r : Reg) (v : Word) : (s.setBankReg b r v).cfg = s.cfg := rfl
@[simp] theorem State.setBankReg_draws (s : State) (b : Bank) (r : Reg) (v : Word) : (s.setBankReg b r v).draws = s.draws := rfl
@[simp] theorem State.setBankReg_coproc (s : State) (b : Bank) (r : Reg) (v : Word) : (s.setBankReg b r v).coproc = s.coproc := rfl
@[simp] theorem State.setBankReg_answer (s : State) (b : Bank) (r : Reg) (v : Word) : (s.setBankReg b r v).answer = s.answer := rfl
@[simp] theorem State.setBankReg_inputs (s : State) (b : Bank) (r : Reg) (v : Word) : (s.setBankReg b r v).inputs = s.inputs := rfl
@[simp] theorem State.setBankReg_exited (s : State) (b : Bank) (r : Reg) (v : Word) : (s.setBankReg b r v).exited = s.exited := rfl

/-! ### `State.setSreg` -/

@[simp] theorem State.setSreg_gpr (s : State) (i : Nat) (v : Word) : (s.setSreg i v).gpr = s.gpr := rfl
@[simp] theorem State.setSreg_pc (s : State) (i : Nat) (v : Word) : (s.setSreg i v).pc = s.pc := rfl
@[simp] theorem State.setSreg_cpsr (s : State) (i : Nat) (v : Word) : (s.setSreg i v).cpsr = s.cpsr := rfl
@[simp] theorem State.setSreg_spsrFiq (s : State) (i : Nat) (v : Word) : (s.setSreg i v).spsrFiq = s.spsrFiq := rfl
@[simp] theorem State.setSreg_spsrIrq (s : State) (i : Nat) (v : Word) : (s.setSreg i v).spsrIrq = s.spsrIrq := rfl
@[simp] theorem State.setSreg_spsrSvc (s : State) (i : Nat) (v : Word) : (s.setSreg i v).spsrSvc = s.spsrSvc := rfl
@[simp] theorem State.setSreg_spsrAbt (s : State) (i : Nat) (v : Word) : (s.setSreg i v).spsrAbt = s.spsrAbt := rfl
@[simp] theorem State.setSreg_spsrUnd (s : State) (i : Nat) (v : Word) : (s.setSreg i v).spsrUnd = s.spsrUnd := rfl
@[simp] theorem State.setSreg_vfp (s : State) (i : Nat) (v : Word) : (s.setSreg i v).vfp = s.vfp.set (Fin.ofNat 32 i) v := rfl
@[simp] theorem State.setSreg_fpscr (s : State) (i : Nat) (v : Word) : (s.setSreg i v).fpscr = s.fpscr := rfl
@[simp] theorem State.setSreg_fpexc (s : State) (i : Nat) (v : Word) : (s.setSreg i v).fpexc = s.fpexc := rfl
@[simp] theorem State.setSreg_fpsid (s : State) (i : Nat) (v : Word) : (s.setSreg i v).fpsid = s.fpsid := rfl
@[simp] theorem State.setSreg_acc0 (s : State) (i : Nat) (v : Word) : (s.setSreg i v).acc0 = s.acc0 := rfl
@[simp] theorem State.setSreg_mem (s : State) (i : Nat) (v : Word) : (s.setSreg i v).mem = s.mem := rfl
@[simp] theorem State.setSreg_cfg (s : State) (i : Nat) (v : Word) : (s.setSreg i v).cfg = s.cfg := rfl
@[simp] theorem State.setSreg_draws (s : State) (i : Nat) (v : Word) : (s.setSreg i v).draws = s.draws := rfl
@[simp] theorem State.setSreg_coproc (s : State) (i : Nat) (v : Word) : (s.setSreg i v).coproc = s.coproc := rfl
@[simp] theorem State.setSreg_answer (s : State) (i : Nat) (v : Word) : (s.setSreg i v).answer = s.answer := rfl
@[simp] theorem State.setSreg_inputs (s : State) (i : Nat) (v : Word) : (s.setSreg i v).inputs = s.inputs := rfl
@[simp] theorem State.setSreg_exited (s : State) (i : Nat) (v : Word) : (s.setSreg i v).exited = s.exited := rfl

/-! ### `State.cumulate` -/

@[simp] theorem State.cumulate_gpr (s : State) (e : FpExc) : (s.cumulate e).gpr = s.gpr := rfl
@[simp] theorem State.cumulate_pc (s : State) (e : FpExc) : (s.cumulate e).pc = s.pc := rfl
@[simp] theorem State.cumulate_cpsr (s : State) (e : FpExc) : (s.cumulate e).cpsr = s.cpsr := rfl
@[simp] theorem State.cumulate_spsrFiq (s : State) (e : FpExc) : (s.cumulate e).spsrFiq = s.spsrFiq := rfl
@[simp] theorem State.cumulate_spsrIrq (s : State) (e : FpExc) : (s.cumulate e).spsrIrq = s.spsrIrq := rfl
@[simp] theorem State.cumulate_spsrSvc (s : State) (e : FpExc) : (s.cumulate e).spsrSvc = s.spsrSvc := rfl
@[simp] theorem State.cumulate_spsrAbt (s : State) (e : FpExc) : (s.cumulate e).spsrAbt = s.spsrAbt := rfl
@[simp] theorem State.cumulate_spsrUnd (s : State) (e : FpExc) : (s.cumulate e).spsrUnd = s.spsrUnd := rfl
@[simp] theorem State.cumulate_vfp (s : State) (e : FpExc) : (s.cumulate e).vfp = s.vfp := rfl
@[simp] theorem State.cumulate_fpscr (s : State) (e : FpExc) : (s.cumulate e).fpscr = s.fpscr ||| e.zeroExtend 32 := rfl
@[simp] theorem State.cumulate_fpexc (s : State) (e : FpExc) : (s.cumulate e).fpexc = s.fpexc := rfl
@[simp] theorem State.cumulate_fpsid (s : State) (e : FpExc) : (s.cumulate e).fpsid = s.fpsid := rfl
@[simp] theorem State.cumulate_acc0 (s : State) (e : FpExc) : (s.cumulate e).acc0 = s.acc0 := rfl
@[simp] theorem State.cumulate_mem (s : State) (e : FpExc) : (s.cumulate e).mem = s.mem := rfl
@[simp] theorem State.cumulate_cfg (s : State) (e : FpExc) : (s.cumulate e).cfg = s.cfg := rfl
@[simp] theorem State.cumulate_draws (s : State) (e : FpExc) : (s.cumulate e).draws = s.draws := rfl
@[simp] theorem State.cumulate_coproc (s : State) (e : FpExc) : (s.cumulate e).coproc = s.coproc := rfl
@[simp] theorem State.cumulate_answer (s : State) (e : FpExc) : (s.cumulate e).answer = s.answer := rfl
@[simp] theorem State.cumulate_inputs (s : State) (e : FpExc) : (s.cumulate e).inputs = s.inputs := rfl
@[simp] theorem State.cumulate_exited (s : State) (e : FpExc) : (s.cumulate e).exited = s.exited := rfl

/-! ### `State.setFpFlags` -/

@[simp] theorem State.setFpFlags_gpr (s : State) (f : Nzcv) : (s.setFpFlags f).gpr = s.gpr := rfl
@[simp] theorem State.setFpFlags_pc (s : State) (f : Nzcv) : (s.setFpFlags f).pc = s.pc := rfl
@[simp] theorem State.setFpFlags_cpsr (s : State) (f : Nzcv) : (s.setFpFlags f).cpsr = s.cpsr := rfl
@[simp] theorem State.setFpFlags_spsrFiq (s : State) (f : Nzcv) : (s.setFpFlags f).spsrFiq = s.spsrFiq := rfl
@[simp] theorem State.setFpFlags_spsrIrq (s : State) (f : Nzcv) : (s.setFpFlags f).spsrIrq = s.spsrIrq := rfl
@[simp] theorem State.setFpFlags_spsrSvc (s : State) (f : Nzcv) : (s.setFpFlags f).spsrSvc = s.spsrSvc := rfl
@[simp] theorem State.setFpFlags_spsrAbt (s : State) (f : Nzcv) : (s.setFpFlags f).spsrAbt = s.spsrAbt := rfl
@[simp] theorem State.setFpFlags_spsrUnd (s : State) (f : Nzcv) : (s.setFpFlags f).spsrUnd = s.spsrUnd := rfl
@[simp] theorem State.setFpFlags_vfp (s : State) (f : Nzcv) : (s.setFpFlags f).vfp = s.vfp := rfl
@[simp] theorem State.setFpFlags_fpscr (s : State) (f : Nzcv) : (s.setFpFlags f).fpscr = bit4 f.n f.z f.c f.v ++ s.fpscr.extractLsb' 0 28 := rfl
@[simp] theorem State.setFpFlags_fpexc (s : State) (f : Nzcv) : (s.setFpFlags f).fpexc = s.fpexc := rfl
@[simp] theorem State.setFpFlags_fpsid (s : State) (f : Nzcv) : (s.setFpFlags f).fpsid = s.fpsid := rfl
@[simp] theorem State.setFpFlags_acc0 (s : State) (f : Nzcv) : (s.setFpFlags f).acc0 = s.acc0 := rfl
@[simp] theorem State.setFpFlags_mem (s : State) (f : Nzcv) : (s.setFpFlags f).mem = s.mem := rfl
@[simp] theorem State.setFpFlags_cfg (s : State) (f : Nzcv) : (s.setFpFlags f).cfg = s.cfg := rfl
@[simp] theorem State.setFpFlags_draws (s : State) (f : Nzcv) : (s.setFpFlags f).draws = s.draws := rfl
@[simp] theorem State.setFpFlags_coproc (s : State) (f : Nzcv) : (s.setFpFlags f).coproc = s.coproc := rfl
@[simp] theorem State.setFpFlags_answer (s : State) (f : Nzcv) : (s.setFpFlags f).answer = s.answer := rfl
@[simp] theorem State.setFpFlags_inputs (s : State) (f : Nzcv) : (s.setFpFlags f).inputs = s.inputs := rfl
@[simp] theorem State.setFpFlags_exited (s : State) (f : Nzcv) : (s.setFpFlags f).exited = s.exited := rfl

/-! ### `State.setFpscr` -/

@[simp] theorem State.setFpscr_gpr (s : State) (v : Word) : (s.setFpscr v).gpr = s.gpr := rfl
@[simp] theorem State.setFpscr_pc (s : State) (v : Word) : (s.setFpscr v).pc = s.pc := rfl
@[simp] theorem State.setFpscr_cpsr (s : State) (v : Word) : (s.setFpscr v).cpsr = s.cpsr := rfl
@[simp] theorem State.setFpscr_spsrFiq (s : State) (v : Word) : (s.setFpscr v).spsrFiq = s.spsrFiq := rfl
@[simp] theorem State.setFpscr_spsrIrq (s : State) (v : Word) : (s.setFpscr v).spsrIrq = s.spsrIrq := rfl
@[simp] theorem State.setFpscr_spsrSvc (s : State) (v : Word) : (s.setFpscr v).spsrSvc = s.spsrSvc := rfl
@[simp] theorem State.setFpscr_spsrAbt (s : State) (v : Word) : (s.setFpscr v).spsrAbt = s.spsrAbt := rfl
@[simp] theorem State.setFpscr_spsrUnd (s : State) (v : Word) : (s.setFpscr v).spsrUnd = s.spsrUnd := rfl
@[simp] theorem State.setFpscr_vfp (s : State) (v : Word) : (s.setFpscr v).vfp = s.vfp := rfl
@[simp] theorem State.setFpscr_fpscr (s : State) (v : Word) : (s.setFpscr v).fpscr = v &&& 0xF1F71F1F#32 := rfl
@[simp] theorem State.setFpscr_fpexc (s : State) (v : Word) : (s.setFpscr v).fpexc = s.fpexc := rfl
@[simp] theorem State.setFpscr_fpsid (s : State) (v : Word) : (s.setFpscr v).fpsid = s.fpsid := rfl
@[simp] theorem State.setFpscr_acc0 (s : State) (v : Word) : (s.setFpscr v).acc0 = s.acc0 := rfl
@[simp] theorem State.setFpscr_mem (s : State) (v : Word) : (s.setFpscr v).mem = s.mem := rfl
@[simp] theorem State.setFpscr_cfg (s : State) (v : Word) : (s.setFpscr v).cfg = s.cfg := rfl
@[simp] theorem State.setFpscr_draws (s : State) (v : Word) : (s.setFpscr v).draws = s.draws := rfl
@[simp] theorem State.setFpscr_coproc (s : State) (v : Word) : (s.setFpscr v).coproc = s.coproc := rfl
@[simp] theorem State.setFpscr_answer (s : State) (v : Word) : (s.setFpscr v).answer = s.answer := rfl
@[simp] theorem State.setFpscr_inputs (s : State) (v : Word) : (s.setFpscr v).inputs = s.inputs := rfl
@[simp] theorem State.setFpscr_exited (s : State) (v : Word) : (s.setFpscr v).exited = s.exited := rfl

/-! ### `State.setFpexc` -/

@[simp] theorem State.setFpexc_gpr (s : State) (v : Word) : (s.setFpexc v).gpr = s.gpr := rfl
@[simp] theorem State.setFpexc_pc (s : State) (v : Word) : (s.setFpexc v).pc = s.pc := rfl
@[simp] theorem State.setFpexc_cpsr (s : State) (v : Word) : (s.setFpexc v).cpsr = s.cpsr := rfl
@[simp] theorem State.setFpexc_spsrFiq (s : State) (v : Word) : (s.setFpexc v).spsrFiq = s.spsrFiq := rfl
@[simp] theorem State.setFpexc_spsrIrq (s : State) (v : Word) : (s.setFpexc v).spsrIrq = s.spsrIrq := rfl
@[simp] theorem State.setFpexc_spsrSvc (s : State) (v : Word) : (s.setFpexc v).spsrSvc = s.spsrSvc := rfl
@[simp] theorem State.setFpexc_spsrAbt (s : State) (v : Word) : (s.setFpexc v).spsrAbt = s.spsrAbt := rfl
@[simp] theorem State.setFpexc_spsrUnd (s : State) (v : Word) : (s.setFpexc v).spsrUnd = s.spsrUnd := rfl
@[simp] theorem State.setFpexc_vfp (s : State) (v : Word) : (s.setFpexc v).vfp = s.vfp := rfl
@[simp] theorem State.setFpexc_fpscr (s : State) (v : Word) : (s.setFpexc v).fpscr = s.fpscr := rfl
@[simp] theorem State.setFpexc_fpexc (s : State) (v : Word) : (s.setFpexc v).fpexc = v &&& 0x40000000#32 := rfl
@[simp] theorem State.setFpexc_fpsid (s : State) (v : Word) : (s.setFpexc v).fpsid = s.fpsid := rfl
@[simp] theorem State.setFpexc_acc0 (s : State) (v : Word) : (s.setFpexc v).acc0 = s.acc0 := rfl
@[simp] theorem State.setFpexc_mem (s : State) (v : Word) : (s.setFpexc v).mem = s.mem := rfl
@[simp] theorem State.setFpexc_cfg (s : State) (v : Word) : (s.setFpexc v).cfg = s.cfg := rfl
@[simp] theorem State.setFpexc_draws (s : State) (v : Word) : (s.setFpexc v).draws = s.draws := rfl
@[simp] theorem State.setFpexc_coproc (s : State) (v : Word) : (s.setFpexc v).coproc = s.coproc := rfl
@[simp] theorem State.setFpexc_answer (s : State) (v : Word) : (s.setFpexc v).answer = s.answer := rfl
@[simp] theorem State.setFpexc_inputs (s : State) (v : Word) : (s.setFpexc v).inputs = s.inputs := rfl
@[simp] theorem State.setFpexc_exited (s : State) (v : Word) : (s.setFpexc v).exited = s.exited := rfl

/-! ### `State.setDreg` -/

@[simp] theorem State.setDreg_gpr (s : State) (i : Nat) (v : DWord) : (s.setDreg i v).gpr = s.gpr := rfl
@[simp] theorem State.setDreg_pc (s : State) (i : Nat) (v : DWord) : (s.setDreg i v).pc = s.pc := rfl
@[simp] theorem State.setDreg_cpsr (s : State) (i : Nat) (v : DWord) : (s.setDreg i v).cpsr = s.cpsr := rfl
@[simp] theorem State.setDreg_spsrFiq (s : State) (i : Nat) (v : DWord) : (s.setDreg i v).spsrFiq = s.spsrFiq := rfl
@[simp] theorem State.setDreg_spsrIrq (s : State) (i : Nat) (v : DWord) : (s.setDreg i v).spsrIrq = s.spsrIrq := rfl
@[simp] theorem State.setDreg_spsrSvc (s : State) (i : Nat) (v : DWord) : (s.setDreg i v).spsrSvc = s.spsrSvc := rfl
@[simp] theorem State.setDreg_spsrAbt (s : State) (i : Nat) (v : DWord) : (s.setDreg i v).spsrAbt = s.spsrAbt := rfl
@[simp] theorem State.setDreg_spsrUnd (s : State) (i : Nat) (v : DWord) : (s.setDreg i v).spsrUnd = s.spsrUnd := rfl
@[simp] theorem State.setDreg_vfp (s : State) (i : Nat) (v : DWord) : (s.setDreg i v).vfp = ((s.setSreg (2 * i) (v.extractLsb' 0 32)).setSreg (2 * i + 1) (v.extractLsb' 32 32)).vfp := rfl
@[simp] theorem State.setDreg_fpscr (s : State) (i : Nat) (v : DWord) : (s.setDreg i v).fpscr = s.fpscr := rfl
@[simp] theorem State.setDreg_fpexc (s : State) (i : Nat) (v : DWord) : (s.setDreg i v).fpexc = s.fpexc := rfl
@[simp] theorem State.setDreg_fpsid (s : State) (i : Nat) (v : DWord) : (s.setDreg i v).fpsid = s.fpsid := rfl
@[simp] theorem State.setDreg_acc0 (s : State) (i : Nat) (v : DWord) : (s.setDreg i v).acc0 = s.acc0 := rfl
@[simp] theorem State.setDreg_mem (s : State) (i : Nat) (v : DWord) : (s.setDreg i v).mem = s.mem := rfl
@[simp] theorem State.setDreg_cfg (s : State) (i : Nat) (v : DWord) : (s.setDreg i v).cfg = s.cfg := rfl
@[simp] theorem State.setDreg_draws (s : State) (i : Nat) (v : DWord) : (s.setDreg i v).draws = s.draws := rfl
@[simp] theorem State.setDreg_coproc (s : State) (i : Nat) (v : DWord) : (s.setDreg i v).coproc = s.coproc := rfl
@[simp] theorem State.setDreg_answer (s : State) (i : Nat) (v : DWord) : (s.setDreg i v).answer = s.answer := rfl
@[simp] theorem State.setDreg_inputs (s : State) (i : Nat) (v : DWord) : (s.setDreg i v).inputs = s.inputs := rfl
@[simp] theorem State.setDreg_exited (s : State) (i : Nat) (v : DWord) : (s.setDreg i v).exited = s.exited := rfl

/-! ### `State.coprocDone` -/

@[simp] theorem State.coprocDone_gpr (s : State) (cp : BitVec 4) (c : CoprocCommand) : (s.coprocDone cp c).gpr = s.gpr := rfl
@[simp] theorem State.coprocDone_pc (s : State) (cp : BitVec 4) (c : CoprocCommand) : (s.coprocDone cp c).pc = s.pc := rfl
@[simp] theorem State.coprocDone_cpsr (s : State) (cp : BitVec 4) (c : CoprocCommand) : (s.coprocDone cp c).cpsr = s.cpsr := rfl
@[simp] theorem State.coprocDone_spsrFiq (s : State) (cp : BitVec 4) (c : CoprocCommand) : (s.coprocDone cp c).spsrFiq = s.spsrFiq := rfl
@[simp] theorem State.coprocDone_spsrIrq (s : State) (cp : BitVec 4) (c : CoprocCommand) : (s.coprocDone cp c).spsrIrq = s.spsrIrq := rfl
@[simp] theorem State.coprocDone_spsrSvc (s : State) (cp : BitVec 4) (c : CoprocCommand) : (s.coprocDone cp c).spsrSvc = s.spsrSvc := rfl
@[simp] theorem State.coprocDone_spsrAbt (s : State) (cp : BitVec 4) (c : CoprocCommand) : (s.coprocDone cp c).spsrAbt = s.spsrAbt := rfl
@[simp] theorem State.coprocDone_spsrUnd (s : State) (cp : BitVec 4) (c : CoprocCommand) : (s.coprocDone cp c).spsrUnd = s.spsrUnd := rfl
@[simp] theorem State.coprocDone_vfp (s : State) (cp : BitVec 4) (c : CoprocCommand) : (s.coprocDone cp c).vfp = s.vfp := rfl
@[simp] theorem State.coprocDone_fpscr (s : State) (cp : BitVec 4) (c : CoprocCommand) : (s.coprocDone cp c).fpscr = s.fpscr := rfl
@[simp] theorem State.coprocDone_fpexc (s : State) (cp : BitVec 4) (c : CoprocCommand) : (s.coprocDone cp c).fpexc = s.fpexc := rfl
@[simp] theorem State.coprocDone_fpsid (s : State) (cp : BitVec 4) (c : CoprocCommand) : (s.coprocDone cp c).fpsid = s.fpsid := rfl
@[simp] theorem State.coprocDone_acc0 (s : State) (cp : BitVec 4) (c : CoprocCommand) : (s.coprocDone cp c).acc0 = s.acc0 := rfl
@[simp] theorem State.coprocDone_mem (s : State) (cp : BitVec 4) (c : CoprocCommand) : (s.coprocDone cp c).mem = s.mem := rfl
@[simp] theorem State.coprocDone_cfg (s : State) (cp : BitVec 4) (c : CoprocCommand) : (s.coprocDone cp c).cfg = s.cfg := rfl
@[simp] theorem State.coprocDone_draws (s : State) (cp : BitVec 4) (c : CoprocCommand) : (s.coprocDone cp c).draws = s.draws := rfl
@[simp] theorem State.coprocDone_coproc (s : State) (cp : BitVec 4) (c : CoprocCommand) : (s.coprocDone cp c).coproc = s.coprocEvent cp c :: s.coproc := rfl
@[simp] theorem State.coprocDone_answer (s : State) (cp : BitVec 4) (c : CoprocCommand) : (s.coprocDone cp c).answer = s.answer := rfl
@[simp] theorem State.coprocDone_inputs (s : State) (cp : BitVec 4) (c : CoprocCommand) : (s.coprocDone cp c).inputs = s.inputs := rfl
@[simp] theorem State.coprocDone_exited (s : State) (cp : BitVec 4) (c : CoprocCommand) : (s.coprocDone cp c).exited = s.exited := rfl

/-! ### `State.nextInputs` -/

@[simp] theorem State.nextInputs_gpr (s : State) : (s.nextInputs).gpr = s.gpr := rfl
@[simp] theorem State.nextInputs_pc (s : State) : (s.nextInputs).pc = s.pc := rfl
@[simp] theorem State.nextInputs_cpsr (s : State) : (s.nextInputs).cpsr = s.cpsr := rfl
@[simp] theorem State.nextInputs_spsrFiq (s : State) : (s.nextInputs).spsrFiq = s.spsrFiq := rfl
@[simp] theorem State.nextInputs_spsrIrq (s : State) : (s.nextInputs).spsrIrq = s.spsrIrq := rfl
@[simp] theorem State.nextInputs_spsrSvc (s : State) : (s.nextInputs).spsrSvc = s.spsrSvc := rfl
@[simp] theorem State.nextInputs_spsrAbt (s : State) : (s.nextInputs).spsrAbt = s.spsrAbt := rfl
@[simp] theorem State.nextInputs_spsrUnd (s : State) : (s.nextInputs).spsrUnd = s.spsrUnd := rfl
@[simp] theorem State.nextInputs_vfp (s : State) : (s.nextInputs).vfp = s.vfp := rfl
@[simp] theorem State.nextInputs_fpscr (s : State) : (s.nextInputs).fpscr = s.fpscr := rfl
@[simp] theorem State.nextInputs_fpexc (s : State) : (s.nextInputs).fpexc = s.fpexc := rfl
@[simp] theorem State.nextInputs_fpsid (s : State) : (s.nextInputs).fpsid = s.fpsid := rfl
@[simp] theorem State.nextInputs_acc0 (s : State) : (s.nextInputs).acc0 = s.acc0 := rfl
@[simp] theorem State.nextInputs_mem (s : State) : (s.nextInputs).mem = s.mem := rfl
@[simp] theorem State.nextInputs_cfg (s : State) : (s.nextInputs).cfg = s.cfg := rfl
@[simp] theorem State.nextInputs_draws (s : State) : (s.nextInputs).draws = s.draws := rfl
@[simp] theorem State.nextInputs_coproc (s : State) : (s.nextInputs).coproc = s.coproc := rfl
@[simp] theorem State.nextInputs_answer (s : State) : (s.nextInputs).answer = s.input.answer := rfl
@[simp] theorem State.nextInputs_inputs (s : State) : (s.nextInputs).inputs = s.inputs.tail := rfl
@[simp] theorem State.nextInputs_exited (s : State) : (s.nextInputs).exited = s.exited := rfl

/-! ### `State.setReg` -/

theorem State.setReg_only (s : State) (r : Reg) (v : Word) :
    s.setReg r v = { s with gpr := (s.setReg r v).gpr } := by unfold State.setReg; split <;> rfl

@[simp] theorem State.setReg_pc (s : State) (r : Reg) (v : Word) : (s.setReg r v).pc = s.pc :=
  (congrArg State.pc (State.setReg_only s r v) :)
@[simp] theorem State.setReg_cpsr (s : State) (r : Reg) (v : Word) : (s.setReg r v).cpsr = s.cpsr :=
  (congrArg State.cpsr (State.setReg_only s r v) :)
@[simp] theorem State.setReg_spsrFiq (s : State) (r : Reg) (v : Word) : (s.setReg r v).spsrFiq = s.spsrFiq :=
  (congrArg State.spsrFiq (State.setReg_only s r v) :)
@[simp] theorem State.setReg_spsrIrq (s : State) (r : Reg) (v : Word) : (s.setReg r v).spsrIrq = s.spsrIrq :=
  (congrArg State.spsrIrq (State.setReg_only s r v) :)
@[simp] theorem State.setReg_spsrSvc (s : State) (r : Reg) (v : Word) : (s.setReg r v).spsrSvc = s.spsrSvc :=
  (congrArg State.spsrSvc (State.setReg_only s r v) :)
@[simp] theorem State.setReg_spsrAbt (s : State) (r : Reg) (v : Word) : (s.setReg r v).spsrAbt = s.spsrAbt :=
  (congrArg State.spsrAbt (State.setReg_only s r v) :)
@[simp] theorem State.setReg_spsrUnd (s : State) (r : Reg) (v : Word) : (s.setReg r v).spsrUnd = s.spsrUnd :=
  (congrArg State.spsrUnd (State.setReg_only s r v) :)
@[simp] theorem State.setReg_vfp (s : State) (r : Reg) (v : Word) : (s.setReg r v).vfp = s.vfp :=
  (congrArg State.vfp (State.setReg_only s r v) :)
@[simp] theorem State.setReg_fpscr (s : State) (r : Reg) (v : Word) : (s.setReg r v).fpscr = s.fpscr :=
  (congrArg State.fpscr (State.setReg_only s r v) :)
@[simp] theorem State.setReg_fpexc (s : State) (r : Reg) (v : Word) : (s.setReg r v).fpexc = s.fpexc :=
  (congrArg State.fpexc (State.setReg_only s r v) :)
@[simp] theorem State.setReg_fpsid (s : State) (r : Reg) (v : Word) : (s.setReg r v).fpsid = s.fpsid :=
  (congrArg State.fpsid (State.setReg_only s r v) :)
@[simp] theorem State.setReg_acc0 (s : State) (r : Reg) (v : Word) : (s.setReg r v).acc0 = s.acc0 :=
  (congrArg State.acc0 (State.setReg_only s r v) :)
@[simp] theorem State.setReg_mem (s : State) (r : Reg) (v : Word) : (s.setReg r v).mem = s.mem :=
  (congrArg State.mem (State.setReg_only s r v) :)
@[simp] theorem State.setReg_cfg (s : State) (r : Reg) (v : Word) : (s.setReg r v).cfg = s.cfg :=
  (congrArg State.cfg (State.setReg_only s r v) :)
@[simp] theorem State.setReg_draws (s : State) (r : Reg) (v : Word) : (s.setReg r v).draws = s.draws :=
  (congrArg State.draws (State.setReg_only s r v) :)
@[simp] theorem State.setReg_coproc (s : State) (r : Reg) (v : Word) : (s.setReg r v).coproc = s.coproc :=
  (congrArg State.coproc (State.setReg_only s r v) :)
@[simp] theorem State.setReg_answer (s : State) (r : Reg) (v : Word) : (s.setReg r v).answer = s.answer :=
  (congrArg State.answer (State.setReg_only s r v) :)
@[simp] theorem State.setReg_inputs (s : State) (r : Reg) (v : Word) : (s.setReg r v).inputs = s.inputs :=
  (congrArg State.inputs (State.setReg_only s r v) :)
@[simp] theorem State.setReg_exited (s : State) (r : Reg) (v : Word) : (s.setReg r v).exited = s.exited :=
  (congrArg State.exited (State.setReg_only s r v) :)

/-! ### `State.setUserReg` -/

theorem State.setUserReg_only (s : State) (r : Reg) (v : Word) :
    s.setUserReg r v = { s with gpr := (s.setUserReg r v).gpr } := by unfold State.setUserReg; split <;> rfl

@[simp] theorem State.setUserReg_pc (s : State) (r : Reg) (v : Word) : (s.setUserReg r v).pc = s.pc :=
  (congrArg State.pc (State.setUserReg_only s r v) :)
@[simp] theorem State.setUserReg_cpsr (s : State) (r : Reg) (v : Word) : (s.setUserReg r v).cpsr = s.cpsr :=
  (congrArg State.cpsr (State.setUserReg_only s r v) :)
@[simp] theorem State.setUserReg_spsrFiq (s : State) (r : Reg) (v : Word) : (s.setUserReg r v).spsrFiq = s.spsrFiq :=
  (congrArg State.spsrFiq (State.setUserReg_only s r v) :)
@[simp] theorem State.setUserReg_spsrIrq (s : State) (r : Reg) (v : Word) : (s.setUserReg r v).spsrIrq = s.spsrIrq :=
  (congrArg State.spsrIrq (State.setUserReg_only s r v) :)
@[simp] theorem State.setUserReg_spsrSvc (s : State) (r : Reg) (v : Word) : (s.setUserReg r v).spsrSvc = s.spsrSvc :=
  (congrArg State.spsrSvc (State.setUserReg_only s r v) :)
@[simp] theorem State.setUserReg_spsrAbt (s : State) (r : Reg) (v : Word) : (s.setUserReg r v).spsrAbt = s.spsrAbt :=
  (congrArg State.spsrAbt (State.setUserReg_only s r v) :)
@[simp] theorem State.setUserReg_spsrUnd (s : State) (r : Reg) (v : Word) : (s.setUserReg r v).spsrUnd = s.spsrUnd :=
  (congrArg State.spsrUnd (State.setUserReg_only s r v) :)
@[simp] theorem State.setUserReg_vfp (s : State) (r : Reg) (v : Word) : (s.setUserReg r v).vfp = s.vfp :=
  (congrArg State.vfp (State.setUserReg_only s r v) :)
@[simp] theorem State.setUserReg_fpscr (s : State) (r : Reg) (v : Word) : (s.setUserReg r v).fpscr = s.fpscr :=
  (congrArg State.fpscr (State.setUserReg_only s r v) :)
@[simp] theorem State.setUserReg_fpexc (s : State) (r : Reg) (v : Word) : (s.setUserReg r v).fpexc = s.fpexc :=
  (congrArg State.fpexc (State.setUserReg_only s r v) :)
@[simp] theorem State.setUserReg_fpsid (s : State) (r : Reg) (v : Word) : (s.setUserReg r v).fpsid = s.fpsid :=
  (congrArg State.fpsid (State.setUserReg_only s r v) :)
@[simp] theorem State.setUserReg_acc0 (s : State) (r : Reg) (v : Word) : (s.setUserReg r v).acc0 = s.acc0 :=
  (congrArg State.acc0 (State.setUserReg_only s r v) :)
@[simp] theorem State.setUserReg_mem (s : State) (r : Reg) (v : Word) : (s.setUserReg r v).mem = s.mem :=
  (congrArg State.mem (State.setUserReg_only s r v) :)
@[simp] theorem State.setUserReg_cfg (s : State) (r : Reg) (v : Word) : (s.setUserReg r v).cfg = s.cfg :=
  (congrArg State.cfg (State.setUserReg_only s r v) :)
@[simp] theorem State.setUserReg_draws (s : State) (r : Reg) (v : Word) : (s.setUserReg r v).draws = s.draws :=
  (congrArg State.draws (State.setUserReg_only s r v) :)
@[simp] theorem State.setUserReg_coproc (s : State) (r : Reg) (v : Word) : (s.setUserReg r v).coproc = s.coproc :=
  (congrArg State.coproc (State.setUserReg_only s r v) :)
@[simp] theorem State.setUserReg_answer (s : State) (r : Reg) (v : Word) : (s.setUserReg r v).answer = s.answer :=
  (congrArg State.answer (State.setUserReg_only s r v) :)
@[simp] theorem State.setUserReg_inputs (s : State) (r : Reg) (v : Word) : (s.setUserReg r v).inputs = s.inputs :=
  (congrArg State.inputs (State.setUserReg_only s r v) :)
@[simp] theorem State.setUserReg_exited (s : State) (r : Reg) (v : Word) : (s.setUserReg r v).exited = s.exited :=
  (congrArg State.exited (State.setUserReg_only s r v) :)

/-! ### `State.setNzcvIf` -/

theorem State.setNzcvIf_only (s : State) (b : Bool) (f : Nzcv) :
    s.setNzcvIf b f = { s with cpsr := (s.setNzcvIf b f).cpsr } := by unfold State.setNzcvIf; split <;> rfl

@[simp] theorem State.setNzcvIf_gpr (s : State) (b : Bool) (f : Nzcv) : (s.setNzcvIf b f).gpr = s.gpr :=
  (congrArg State.gpr (State.setNzcvIf_only s b f) :)
@[simp] theorem State.setNzcvIf_pc (s : State) (b : Bool) (f : Nzcv) : (s.setNzcvIf b f).pc = s.pc :=
  (congrArg State.pc (State.setNzcvIf_only s b f) :)
@[simp] theorem State.setNzcvIf_spsrFiq (s : State) (b : Bool) (f : Nzcv) : (s.setNzcvIf b f).spsrFiq = s.spsrFiq :=
  (congrArg State.spsrFiq (State.setNzcvIf_only s b f) :)
@[simp] theorem State.setNzcvIf_spsrIrq (s : State) (b : Bool) (f : Nzcv) : (s.setNzcvIf b f).spsrIrq = s.spsrIrq :=
  (congrArg State.spsrIrq (State.setNzcvIf_only s b f) :)
@[simp] theorem State.setNzcvIf_spsrSvc (s : State) (b : Bool) (f : Nzcv) : (s.setNzcvIf b f).spsrSvc = s.spsrSvc :=
  (congrArg State.spsrSvc (State.setNzcvIf_only s b f) :)
@[simp] theorem State.setNzcvIf_spsrAbt (s : State) (b : Bool) (f : Nzcv) : (s.setNzcvIf b f).spsrAbt = s.spsrAbt :=
  (congrArg State.spsrAbt (State.setNzcvIf_only s b f) :)
@[simp] theorem State.setNzcvIf_spsrUnd (s : State) (b : Bool) (f : Nzcv) : (s.setNzcvIf b f).spsrUnd = s.spsrUnd :=
  (congrArg State.spsrUnd (State.setNzcvIf_only s b f) :)
@[simp] theorem State.setNzcvIf_vfp (s : State) (b : Bool) (f : Nzcv) : (s.setNzcvIf b f).vfp = s.vfp :=
  (congrArg State.vfp (State.setNzcvIf_only s b f) :)
@[simp] theorem State.setNzcvIf_fpscr (s : State) (b : Bool) (f : Nzcv) : (s.setNzcvIf b f).fpscr = s.fpscr :=
  (congrArg State.fpscr (State.setNzcvIf_only s b f) :)
@[simp] theorem State.setNzcvIf_fpexc (s : State) (b : Bool) (f : Nzcv) : (s.setNzcvIf b f).fpexc = s.fpexc :=
  (congrArg State.fpexc (State.setNzcvIf_only s b f) :)
@[simp] theorem State.setNzcvIf_fpsid (s : State) (b : Bool) (f : Nzcv) : (s.setNzcvIf b f).fpsid = s.fpsid :=
  (congrArg State.fpsid (State.setNzcvIf_only s b f) :)
@[simp] theorem State.setNzcvIf_acc0 (s : State) (b : Bool) (f : Nzcv) : (s.setNzcvIf b f).acc0 = s.acc0 :=
  (congrArg State.acc0 (State.setNzcvIf_only s b f) :)
@[simp] theorem State.setNzcvIf_mem (s : State) (b : Bool) (f : Nzcv) : (s.setNzcvIf b f).mem = s.mem :=
  (congrArg State.mem (State.setNzcvIf_only s b f) :)
@[simp] theorem State.setNzcvIf_cfg (s : State) (b : Bool) (f : Nzcv) : (s.setNzcvIf b f).cfg = s.cfg :=
  (congrArg State.cfg (State.setNzcvIf_only s b f) :)
@[simp] theorem State.setNzcvIf_draws (s : State) (b : Bool) (f : Nzcv) : (s.setNzcvIf b f).draws = s.draws :=
  (congrArg State.draws (State.setNzcvIf_only s b f) :)
@[simp] theorem State.setNzcvIf_coproc (s : State) (b : Bool) (f : Nzcv) : (s.setNzcvIf b f).coproc = s.coproc :=
  (congrArg State.coproc (State.setNzcvIf_only s b f) :)
@[simp] theorem State.setNzcvIf_answer (s : State) (b : Bool) (f : Nzcv) : (s.setNzcvIf b f).answer = s.answer :=
  (congrArg State.answer (State.setNzcvIf_only s b f) :)
@[simp] theorem State.setNzcvIf_inputs (s : State) (b : Bool) (f : Nzcv) : (s.setNzcvIf b f).inputs = s.inputs :=
  (congrArg State.inputs (State.setNzcvIf_only s b f) :)
@[simp] theorem State.setNzcvIf_exited (s : State) (b : Bool) (f : Nzcv) : (s.setNzcvIf b f).exited = s.exited :=
  (congrArg State.exited (State.setNzcvIf_only s b f) :)

/-! ### `State.setHalf` -/

theorem State.setHalf_only (s : State) (a : Word) (v : Half) :
    s.setHalf a v = { s with mem := (s.setHalf a v).mem } := by unfold State.setHalf; split <;> rfl

@[simp] theorem State.setHalf_gpr (s : State) (a : Word) (v : Half) : (s.setHalf a v).gpr = s.gpr :=
  (congrArg State.gpr (State.setHalf_only s a v) :)
@[simp] theorem State.setHalf_pc (s : State) (a : Word) (v : Half) : (s.setHalf a v).pc = s.pc :=
  (congrArg State.pc (State.setHalf_only s a v) :)
@[simp] theorem State.setHalf_cpsr (s : State) (a : Word) (v : Half) : (s.setHalf a v).cpsr = s.cpsr :=
  (congrArg State.cpsr (State.setHalf_only s a v) :)
@[simp] theorem State.setHalf_spsrFiq (s : State) (a : Word) (v : Half) : (s.setHalf a v).spsrFiq = s.spsrFiq :=
  (congrArg State.spsrFiq (State.setHalf_only s a v) :)
@[simp] theorem State.setHalf_spsrIrq (s : State) (a : Word) (v : Half) : (s.setHalf a v).spsrIrq = s.spsrIrq :=
  (congrArg State.spsrIrq (State.setHalf_only s a v) :)
@[simp] theorem State.setHalf_spsrSvc (s : State) (a : Word) (v : Half) : (s.setHalf a v).spsrSvc = s.spsrSvc :=
  (congrArg State.spsrSvc (State.setHalf_only s a v) :)
@[simp] theorem State.setHalf_spsrAbt (s : State) (a : Word) (v : Half) : (s.setHalf a v).spsrAbt = s.spsrAbt :=
  (congrArg State.spsrAbt (State.setHalf_only s a v) :)
@[simp] theorem State.setHalf_spsrUnd (s : State) (a : Word) (v : Half) : (s.setHalf a v).spsrUnd = s.spsrUnd :=
  (congrArg State.spsrUnd (State.setHalf_only s a v) :)
@[simp] theorem State.setHalf_vfp (s : State) (a : Word) (v : Half) : (s.setHalf a v).vfp = s.vfp :=
  (congrArg State.vfp (State.setHalf_only s a v) :)
@[simp] theorem State.setHalf_fpscr (s : State) (a : Word) (v : Half) : (s.setHalf a v).fpscr = s.fpscr :=
  (congrArg State.fpscr (State.setHalf_only s a v) :)
@[simp] theorem State.setHalf_fpexc (s : State) (a : Word) (v : Half) : (s.setHalf a v).fpexc = s.fpexc :=
  (congrArg State.fpexc (State.setHalf_only s a v) :)
@[simp] theorem State.setHalf_fpsid (s : State) (a : Word) (v : Half) : (s.setHalf a v).fpsid = s.fpsid :=
  (congrArg State.fpsid (State.setHalf_only s a v) :)
@[simp] theorem State.setHalf_acc0 (s : State) (a : Word) (v : Half) : (s.setHalf a v).acc0 = s.acc0 :=
  (congrArg State.acc0 (State.setHalf_only s a v) :)
@[simp] theorem State.setHalf_cfg (s : State) (a : Word) (v : Half) : (s.setHalf a v).cfg = s.cfg :=
  (congrArg State.cfg (State.setHalf_only s a v) :)
@[simp] theorem State.setHalf_draws (s : State) (a : Word) (v : Half) : (s.setHalf a v).draws = s.draws :=
  (congrArg State.draws (State.setHalf_only s a v) :)
@[simp] theorem State.setHalf_coproc (s : State) (a : Word) (v : Half) : (s.setHalf a v).coproc = s.coproc :=
  (congrArg State.coproc (State.setHalf_only s a v) :)
@[simp] theorem State.setHalf_answer (s : State) (a : Word) (v : Half) : (s.setHalf a v).answer = s.answer :=
  (congrArg State.answer (State.setHalf_only s a v) :)
@[simp] theorem State.setHalf_inputs (s : State) (a : Word) (v : Half) : (s.setHalf a v).inputs = s.inputs :=
  (congrArg State.inputs (State.setHalf_only s a v) :)
@[simp] theorem State.setHalf_exited (s : State) (a : Word) (v : Half) : (s.setHalf a v).exited = s.exited :=
  (congrArg State.exited (State.setHalf_only s a v) :)

/-! ### `State.setWord` -/

theorem State.setWord_only (s : State) (a : Word) (v : Word) :
    s.setWord a v = { s with mem := (s.setWord a v).mem } := by unfold State.setWord; split <;> rfl

@[simp] theorem State.setWord_gpr (s : State) (a : Word) (v : Word) : (s.setWord a v).gpr = s.gpr :=
  (congrArg State.gpr (State.setWord_only s a v) :)
@[simp] theorem State.setWord_pc (s : State) (a : Word) (v : Word) : (s.setWord a v).pc = s.pc :=
  (congrArg State.pc (State.setWord_only s a v) :)
@[simp] theorem State.setWord_cpsr (s : State) (a : Word) (v : Word) : (s.setWord a v).cpsr = s.cpsr :=
  (congrArg State.cpsr (State.setWord_only s a v) :)
@[simp] theorem State.setWord_spsrFiq (s : State) (a : Word) (v : Word) : (s.setWord a v).spsrFiq = s.spsrFiq :=
  (congrArg State.spsrFiq (State.setWord_only s a v) :)
@[simp] theorem State.setWord_spsrIrq (s : State) (a : Word) (v : Word) : (s.setWord a v).spsrIrq = s.spsrIrq :=
  (congrArg State.spsrIrq (State.setWord_only s a v) :)
@[simp] theorem State.setWord_spsrSvc (s : State) (a : Word) (v : Word) : (s.setWord a v).spsrSvc = s.spsrSvc :=
  (congrArg State.spsrSvc (State.setWord_only s a v) :)
@[simp] theorem State.setWord_spsrAbt (s : State) (a : Word) (v : Word) : (s.setWord a v).spsrAbt = s.spsrAbt :=
  (congrArg State.spsrAbt (State.setWord_only s a v) :)
@[simp] theorem State.setWord_spsrUnd (s : State) (a : Word) (v : Word) : (s.setWord a v).spsrUnd = s.spsrUnd :=
  (congrArg State.spsrUnd (State.setWord_only s a v) :)
@[simp] theorem State.setWord_vfp (s : State) (a : Word) (v : Word) : (s.setWord a v).vfp = s.vfp :=
  (congrArg State.vfp (State.setWord_only s a v) :)
@[simp] theorem State.setWord_fpscr (s : State) (a : Word) (v : Word) : (s.setWord a v).fpscr = s.fpscr :=
  (congrArg State.fpscr (State.setWord_only s a v) :)
@[simp] theorem State.setWord_fpexc (s : State) (a : Word) (v : Word) : (s.setWord a v).fpexc = s.fpexc :=
  (congrArg State.fpexc (State.setWord_only s a v) :)
@[simp] theorem State.setWord_fpsid (s : State) (a : Word) (v : Word) : (s.setWord a v).fpsid = s.fpsid :=
  (congrArg State.fpsid (State.setWord_only s a v) :)
@[simp] theorem State.setWord_acc0 (s : State) (a : Word) (v : Word) : (s.setWord a v).acc0 = s.acc0 :=
  (congrArg State.acc0 (State.setWord_only s a v) :)
@[simp] theorem State.setWord_cfg (s : State) (a : Word) (v : Word) : (s.setWord a v).cfg = s.cfg :=
  (congrArg State.cfg (State.setWord_only s a v) :)
@[simp] theorem State.setWord_draws (s : State) (a : Word) (v : Word) : (s.setWord a v).draws = s.draws :=
  (congrArg State.draws (State.setWord_only s a v) :)
@[simp] theorem State.setWord_coproc (s : State) (a : Word) (v : Word) : (s.setWord a v).coproc = s.coproc :=
  (congrArg State.coproc (State.setWord_only s a v) :)
@[simp] theorem State.setWord_answer (s : State) (a : Word) (v : Word) : (s.setWord a v).answer = s.answer :=
  (congrArg State.answer (State.setWord_only s a v) :)
@[simp] theorem State.setWord_inputs (s : State) (a : Word) (v : Word) : (s.setWord a v).inputs = s.inputs :=
  (congrArg State.inputs (State.setWord_only s a v) :)
@[simp] theorem State.setWord_exited (s : State) (a : Word) (v : Word) : (s.setWord a v).exited = s.exited :=
  (congrArg State.exited (State.setWord_only s a v) :)

/-! ### `State.writeBack` -/

theorem State.writeBack_only (s : State) (a : Address) (rn : Reg) :
    s.writeBack a rn = { s with gpr := (s.writeBack a rn).gpr } := by
  unfold State.writeBack
  split
  · exact State.setReg_only ..
  · rfl

@[simp] theorem State.writeBack_pc (s : State) (a : Address) (rn : Reg) : (s.writeBack a rn).pc = s.pc :=
  (congrArg State.pc (State.writeBack_only s a rn) :)
@[simp] theorem State.writeBack_cpsr (s : State) (a : Address) (rn : Reg) : (s.writeBack a rn).cpsr = s.cpsr :=
  (congrArg State.cpsr (State.writeBack_only s a rn) :)
@[simp] theorem State.writeBack_spsrFiq (s : State) (a : Address) (rn : Reg) : (s.writeBack a rn).spsrFiq = s.spsrFiq :=
  (congrArg State.spsrFiq (State.writeBack_only s a rn) :)
@[simp] theorem State.writeBack_spsrIrq (s : State) (a : Address) (rn : Reg) : (s.writeBack a rn).spsrIrq = s.spsrIrq :=
  (congrArg State.spsrIrq (State.writeBack_only s a rn) :)
@[simp] theorem State.writeBack_spsrSvc (s : State) (a : Address) (rn : Reg) : (s.writeBack a rn).spsrSvc = s.spsrSvc :=
  (congrArg State.spsrSvc (State.writeBack_only s a rn) :)
@[simp] theorem State.writeBack_spsrAbt (s : State) (a : Address) (rn : Reg) : (s.writeBack a rn).spsrAbt = s.spsrAbt :=
  (congrArg State.spsrAbt (State.writeBack_only s a rn) :)
@[simp] theorem State.writeBack_spsrUnd (s : State) (a : Address) (rn : Reg) : (s.writeBack a rn).spsrUnd = s.spsrUnd :=
  (congrArg State.spsrUnd (State.writeBack_only s a rn) :)
@[simp] theorem State.writeBack_vfp (s : State) (a : Address) (rn : Reg) : (s.writeBack a rn).vfp = s.vfp :=
  (congrArg State.vfp (State.writeBack_only s a rn) :)
@[simp] theorem State.writeBack_fpscr (s : State) (a : Address) (rn : Reg) : (s.writeBack a rn).fpscr = s.fpscr :=
  (congrArg State.fpscr (State.writeBack_only s a rn) :)
@[simp] theorem State.writeBack_fpexc (s : State) (a : Address) (rn : Reg) : (s.writeBack a rn).fpexc = s.fpexc :=
  (congrArg State.fpexc (State.writeBack_only s a rn) :)
@[simp] theorem State.writeBack_fpsid (s : State) (a : Address) (rn : Reg) : (s.writeBack a rn).fpsid = s.fpsid :=
  (congrArg State.fpsid (State.writeBack_only s a rn) :)
@[simp] theorem State.writeBack_acc0 (s : State) (a : Address) (rn : Reg) : (s.writeBack a rn).acc0 = s.acc0 :=
  (congrArg State.acc0 (State.writeBack_only s a rn) :)
@[simp] theorem State.writeBack_mem (s : State) (a : Address) (rn : Reg) : (s.writeBack a rn).mem = s.mem :=
  (congrArg State.mem (State.writeBack_only s a rn) :)
@[simp] theorem State.writeBack_cfg (s : State) (a : Address) (rn : Reg) : (s.writeBack a rn).cfg = s.cfg :=
  (congrArg State.cfg (State.writeBack_only s a rn) :)
@[simp] theorem State.writeBack_draws (s : State) (a : Address) (rn : Reg) : (s.writeBack a rn).draws = s.draws :=
  (congrArg State.draws (State.writeBack_only s a rn) :)
@[simp] theorem State.writeBack_coproc (s : State) (a : Address) (rn : Reg) : (s.writeBack a rn).coproc = s.coproc :=
  (congrArg State.coproc (State.writeBack_only s a rn) :)
@[simp] theorem State.writeBack_answer (s : State) (a : Address) (rn : Reg) : (s.writeBack a rn).answer = s.answer :=
  (congrArg State.answer (State.writeBack_only s a rn) :)
@[simp] theorem State.writeBack_inputs (s : State) (a : Address) (rn : Reg) : (s.writeBack a rn).inputs = s.inputs :=
  (congrArg State.inputs (State.writeBack_only s a rn) :)
@[simp] theorem State.writeBack_exited (s : State) (a : Address) (rn : Reg) : (s.writeBack a rn).exited = s.exited :=
  (congrArg State.exited (State.writeBack_only s a rn) :)

/-! ### `State.writeBase` -/

theorem State.writeBase_only (s : State) (w : Bool) (rn : Reg) (v : Word) :
    s.writeBase w rn v = { s with gpr := (s.writeBase w rn v).gpr } := by
  unfold State.writeBase
  split
  · exact State.setReg_only ..
  · rfl

@[simp] theorem State.writeBase_pc (s : State) (w : Bool) (rn : Reg) (v : Word) : (s.writeBase w rn v).pc = s.pc :=
  (congrArg State.pc (State.writeBase_only s w rn v) :)
@[simp] theorem State.writeBase_cpsr (s : State) (w : Bool) (rn : Reg) (v : Word) : (s.writeBase w rn v).cpsr = s.cpsr :=
  (congrArg State.cpsr (State.writeBase_only s w rn v) :)
@[simp] theorem State.writeBase_spsrFiq (s : State) (w : Bool) (rn : Reg) (v : Word) : (s.writeBase w rn v).spsrFiq = s.spsrFiq :=
  (congrArg State.spsrFiq (State.writeBase_only s w rn v) :)
@[simp] theorem State.writeBase_spsrIrq (s : State) (w : Bool) (rn : Reg) (v : Word) : (s.writeBase w rn v).spsrIrq = s.spsrIrq :=
  (congrArg State.spsrIrq (State.writeBase_only s w rn v) :)
@[simp] theorem State.writeBase_spsrSvc (s : State) (w : Bool) (rn : Reg) (v : Word) : (s.writeBase w rn v).spsrSvc = s.spsrSvc :=
  (congrArg State.spsrSvc (State.writeBase_only s w rn v) :)
@[simp] theorem State.writeBase_spsrAbt (s : State) (w : Bool) (rn : Reg) (v : Word) : (s.writeBase w rn v).spsrAbt = s.spsrAbt :=
  (congrArg State.spsrAbt (State.writeBase_only s w rn v) :)
@[simp] theorem State.writeBase_spsrUnd (s : State) (w : Bool) (rn : Reg) (v : Word) : (s.writeBase w rn v).spsrUnd = s.spsrUnd :=
  (congrArg State.spsrUnd (State.writeBase_only s w rn v) :)
@[simp] theorem State.writeBase_vfp (s : State) (w : Bool) (rn : Reg) (v : Word) : (s.writeBase w rn v).vfp = s.vfp :=
  (congrArg State.vfp (State.writeBase_only s w rn v) :)
@[simp] theorem State.writeBase_fpscr (s : State) (w : Bool) (rn : Reg) (v : Word) : (s.writeBase w rn v).fpscr = s.fpscr :=
  (congrArg State.fpscr (State.writeBase_only s w rn v) :)
@[simp] theorem State.writeBase_fpexc (s : State) (w : Bool) (rn : Reg) (v : Word) : (s.writeBase w rn v).fpexc = s.fpexc :=
  (congrArg State.fpexc (State.writeBase_only s w rn v) :)
@[simp] theorem State.writeBase_fpsid (s : State) (w : Bool) (rn : Reg) (v : Word) : (s.writeBase w rn v).fpsid = s.fpsid :=
  (congrArg State.fpsid (State.writeBase_only s w rn v) :)
@[simp] theorem State.writeBase_acc0 (s : State) (w : Bool) (rn : Reg) (v : Word) : (s.writeBase w rn v).acc0 = s.acc0 :=
  (congrArg State.acc0 (State.writeBase_only s w rn v) :)
@[simp] theorem State.writeBase_mem (s : State) (w : Bool) (rn : Reg) (v : Word) : (s.writeBase w rn v).mem = s.mem :=
  (congrArg State.mem (State.writeBase_only s w rn v) :)
@[simp] theorem State.writeBase_cfg (s : State) (w : Bool) (rn : Reg) (v : Word) : (s.writeBase w rn v).cfg = s.cfg :=
  (congrArg State.cfg (State.writeBase_only s w rn v) :)
@[simp] theorem State.writeBase_draws (s : State) (w : Bool) (rn : Reg) (v : Word) : (s.writeBase w rn v).draws = s.draws :=
  (congrArg State.draws (State.writeBase_only s w rn v) :)
@[simp] theorem State.writeBase_coproc (s : State) (w : Bool) (rn : Reg) (v : Word) : (s.writeBase w rn v).coproc = s.coproc :=
  (congrArg State.coproc (State.writeBase_only s w rn v) :)
@[simp] theorem State.writeBase_answer (s : State) (w : Bool) (rn : Reg) (v : Word) : (s.writeBase w rn v).answer = s.answer :=
  (congrArg State.answer (State.writeBase_only s w rn v) :)
@[simp] theorem State.writeBase_inputs (s : State) (w : Bool) (rn : Reg) (v : Word) : (s.writeBase w rn v).inputs = s.inputs :=
  (congrArg State.inputs (State.writeBase_only s w rn v) :)
@[simp] theorem State.writeBase_exited (s : State) (w : Bool) (rn : Reg) (v : Word) : (s.writeBase w rn v).exited = s.exited :=
  (congrArg State.exited (State.writeBase_only s w rn v) :)

/-! ### `State.drawnIf` -/

theorem State.drawnIf_only (s : State) (b : Bool) (k : Nat) :
    s.drawnIf b k = { s with draws := (s.drawnIf b k).draws } := by unfold State.drawnIf; split <;> rfl

@[simp] theorem State.drawnIf_gpr (s : State) (b : Bool) (k : Nat) : (s.drawnIf b k).gpr = s.gpr :=
  (congrArg State.gpr (State.drawnIf_only s b k) :)
@[simp] theorem State.drawnIf_pc (s : State) (b : Bool) (k : Nat) : (s.drawnIf b k).pc = s.pc :=
  (congrArg State.pc (State.drawnIf_only s b k) :)
@[simp] theorem State.drawnIf_cpsr (s : State) (b : Bool) (k : Nat) : (s.drawnIf b k).cpsr = s.cpsr :=
  (congrArg State.cpsr (State.drawnIf_only s b k) :)
@[simp] theorem State.drawnIf_spsrFiq (s : State) (b : Bool) (k : Nat) : (s.drawnIf b k).spsrFiq = s.spsrFiq :=
  (congrArg State.spsrFiq (State.drawnIf_only s b k) :)
@[simp] theorem State.drawnIf_spsrIrq (s : State) (b : Bool) (k : Nat) : (s.drawnIf b k).spsrIrq = s.spsrIrq :=
  (congrArg State.spsrIrq (State.drawnIf_only s b k) :)
@[simp] theorem State.drawnIf_spsrSvc (s : State) (b : Bool) (k : Nat) : (s.drawnIf b k).spsrSvc = s.spsrSvc :=
  (congrArg State.spsrSvc (State.drawnIf_only s b k) :)
@[simp] theorem State.drawnIf_spsrAbt (s : State) (b : Bool) (k : Nat) : (s.drawnIf b k).spsrAbt = s.spsrAbt :=
  (congrArg State.spsrAbt (State.drawnIf_only s b k) :)
@[simp] theorem State.drawnIf_spsrUnd (s : State) (b : Bool) (k : Nat) : (s.drawnIf b k).spsrUnd = s.spsrUnd :=
  (congrArg State.spsrUnd (State.drawnIf_only s b k) :)
@[simp] theorem State.drawnIf_vfp (s : State) (b : Bool) (k : Nat) : (s.drawnIf b k).vfp = s.vfp :=
  (congrArg State.vfp (State.drawnIf_only s b k) :)
@[simp] theorem State.drawnIf_fpscr (s : State) (b : Bool) (k : Nat) : (s.drawnIf b k).fpscr = s.fpscr :=
  (congrArg State.fpscr (State.drawnIf_only s b k) :)
@[simp] theorem State.drawnIf_fpexc (s : State) (b : Bool) (k : Nat) : (s.drawnIf b k).fpexc = s.fpexc :=
  (congrArg State.fpexc (State.drawnIf_only s b k) :)
@[simp] theorem State.drawnIf_fpsid (s : State) (b : Bool) (k : Nat) : (s.drawnIf b k).fpsid = s.fpsid :=
  (congrArg State.fpsid (State.drawnIf_only s b k) :)
@[simp] theorem State.drawnIf_acc0 (s : State) (b : Bool) (k : Nat) : (s.drawnIf b k).acc0 = s.acc0 :=
  (congrArg State.acc0 (State.drawnIf_only s b k) :)
@[simp] theorem State.drawnIf_mem (s : State) (b : Bool) (k : Nat) : (s.drawnIf b k).mem = s.mem :=
  (congrArg State.mem (State.drawnIf_only s b k) :)
@[simp] theorem State.drawnIf_cfg (s : State) (b : Bool) (k : Nat) : (s.drawnIf b k).cfg = s.cfg :=
  (congrArg State.cfg (State.drawnIf_only s b k) :)
@[simp] theorem State.drawnIf_coproc (s : State) (b : Bool) (k : Nat) : (s.drawnIf b k).coproc = s.coproc :=
  (congrArg State.coproc (State.drawnIf_only s b k) :)
@[simp] theorem State.drawnIf_answer (s : State) (b : Bool) (k : Nat) : (s.drawnIf b k).answer = s.answer :=
  (congrArg State.answer (State.drawnIf_only s b k) :)
@[simp] theorem State.drawnIf_inputs (s : State) (b : Bool) (k : Nat) : (s.drawnIf b k).inputs = s.inputs :=
  (congrArg State.inputs (State.drawnIf_only s b k) :)
@[simp] theorem State.drawnIf_exited (s : State) (b : Bool) (k : Nat) : (s.drawnIf b k).exited = s.exited :=
  (congrArg State.exited (State.drawnIf_only s b k) :)

/-! ### `State.drawnForNan` -/

theorem State.drawnForNan_only (s : State) (b : Bool) :
    s.drawnForNan b = { s with draws := (s.drawnForNan b).draws } := by unfold State.drawnForNan; split <;> rfl

@[simp] theorem State.drawnForNan_gpr (s : State) (b : Bool) : (s.drawnForNan b).gpr = s.gpr :=
  (congrArg State.gpr (State.drawnForNan_only s b) :)
@[simp] theorem State.drawnForNan_pc (s : State) (b : Bool) : (s.drawnForNan b).pc = s.pc :=
  (congrArg State.pc (State.drawnForNan_only s b) :)
@[simp] theorem State.drawnForNan_cpsr (s : State) (b : Bool) : (s.drawnForNan b).cpsr = s.cpsr :=
  (congrArg State.cpsr (State.drawnForNan_only s b) :)
@[simp] theorem State.drawnForNan_spsrFiq (s : State) (b : Bool) : (s.drawnForNan b).spsrFiq = s.spsrFiq :=
  (congrArg State.spsrFiq (State.drawnForNan_only s b) :)
@[simp] theorem State.drawnForNan_spsrIrq (s : State) (b : Bool) : (s.drawnForNan b).spsrIrq = s.spsrIrq :=
  (congrArg State.spsrIrq (State.drawnForNan_only s b) :)
@[simp] theorem State.drawnForNan_spsrSvc (s : State) (b : Bool) : (s.drawnForNan b).spsrSvc = s.spsrSvc :=
  (congrArg State.spsrSvc (State.drawnForNan_only s b) :)
@[simp] theorem State.drawnForNan_spsrAbt (s : State) (b : Bool) : (s.drawnForNan b).spsrAbt = s.spsrAbt :=
  (congrArg State.spsrAbt (State.drawnForNan_only s b) :)
@[simp] theorem State.drawnForNan_spsrUnd (s : State) (b : Bool) : (s.drawnForNan b).spsrUnd = s.spsrUnd :=
  (congrArg State.spsrUnd (State.drawnForNan_only s b) :)
@[simp] theorem State.drawnForNan_vfp (s : State) (b : Bool) : (s.drawnForNan b).vfp = s.vfp :=
  (congrArg State.vfp (State.drawnForNan_only s b) :)
@[simp] theorem State.drawnForNan_fpscr (s : State) (b : Bool) : (s.drawnForNan b).fpscr = s.fpscr :=
  (congrArg State.fpscr (State.drawnForNan_only s b) :)
@[simp] theorem State.drawnForNan_fpexc (s : State) (b : Bool) : (s.drawnForNan b).fpexc = s.fpexc :=
  (congrArg State.fpexc (State.drawnForNan_only s b) :)
@[simp] theorem State.drawnForNan_fpsid (s : State) (b : Bool) : (s.drawnForNan b).fpsid = s.fpsid :=
  (congrArg State.fpsid (State.drawnForNan_only s b) :)
@[simp] theorem State.drawnForNan_acc0 (s : State) (b : Bool) : (s.drawnForNan b).acc0 = s.acc0 :=
  (congrArg State.acc0 (State.drawnForNan_only s b) :)
@[simp] theorem State.drawnForNan_mem (s : State) (b : Bool) : (s.drawnForNan b).mem = s.mem :=
  (congrArg State.mem (State.drawnForNan_only s b) :)
@[simp] theorem State.drawnForNan_cfg (s : State) (b : Bool) : (s.drawnForNan b).cfg = s.cfg :=
  (congrArg State.cfg (State.drawnForNan_only s b) :)
@[simp] theorem State.drawnForNan_coproc (s : State) (b : Bool) : (s.drawnForNan b).coproc = s.coproc :=
  (congrArg State.coproc (State.drawnForNan_only s b) :)
@[simp] theorem State.drawnForNan_answer (s : State) (b : Bool) : (s.drawnForNan b).answer = s.answer :=
  (congrArg State.answer (State.drawnForNan_only s b) :)
@[simp] theorem State.drawnForNan_inputs (s : State) (b : Bool) : (s.drawnForNan b).inputs = s.inputs :=
  (congrArg State.inputs (State.drawnForNan_only s b) :)
@[simp] theorem State.drawnForNan_exited (s : State) (b : Bool) : (s.drawnForNan b).exited = s.exited :=
  (congrArg State.exited (State.drawnForNan_only s b) :)

/-! ### `State.vfpWriteBack` -/

theorem State.vfpWriteBack_only (s : State) (w up : Bool) (rn : Reg) (n : Nat) :
    s.vfpWriteBack w up rn n = { s with gpr := (s.vfpWriteBack w up rn n).gpr } := by
  unfold State.vfpWriteBack
  split
  · exact State.setReg_only ..
  · rfl

@[simp] theorem State.vfpWriteBack_pc (s : State) (w up : Bool) (rn : Reg) (n : Nat) : (s.vfpWriteBack w up rn n).pc = s.pc :=
  (congrArg State.pc (State.vfpWriteBack_only s w up rn n) :)
@[simp] theorem State.vfpWriteBack_cpsr (s : State) (w up : Bool) (rn : Reg) (n : Nat) : (s.vfpWriteBack w up rn n).cpsr = s.cpsr :=
  (congrArg State.cpsr (State.vfpWriteBack_only s w up rn n) :)
@[simp] theorem State.vfpWriteBack_spsrFiq (s : State) (w up : Bool) (rn : Reg) (n : Nat) : (s.vfpWriteBack w up rn n).spsrFiq = s.spsrFiq :=
  (congrArg State.spsrFiq (State.vfpWriteBack_only s w up rn n) :)
@[simp] theorem State.vfpWriteBack_spsrIrq (s : State) (w up : Bool) (rn : Reg) (n : Nat) : (s.vfpWriteBack w up rn n).spsrIrq = s.spsrIrq :=
  (congrArg State.spsrIrq (State.vfpWriteBack_only s w up rn n) :)
@[simp] theorem State.vfpWriteBack_spsrSvc (s : State) (w up : Bool) (rn : Reg) (n : Nat) : (s.vfpWriteBack w up rn n).spsrSvc = s.spsrSvc :=
  (congrArg State.spsrSvc (State.vfpWriteBack_only s w up rn n) :)
@[simp] theorem State.vfpWriteBack_spsrAbt (s : State) (w up : Bool) (rn : Reg) (n : Nat) : (s.vfpWriteBack w up rn n).spsrAbt = s.spsrAbt :=
  (congrArg State.spsrAbt (State.vfpWriteBack_only s w up rn n) :)
@[simp] theorem State.vfpWriteBack_spsrUnd (s : State) (w up : Bool) (rn : Reg) (n : Nat) : (s.vfpWriteBack w up rn n).spsrUnd = s.spsrUnd :=
  (congrArg State.spsrUnd (State.vfpWriteBack_only s w up rn n) :)
@[simp] theorem State.vfpWriteBack_vfp (s : State) (w up : Bool) (rn : Reg) (n : Nat) : (s.vfpWriteBack w up rn n).vfp = s.vfp :=
  (congrArg State.vfp (State.vfpWriteBack_only s w up rn n) :)
@[simp] theorem State.vfpWriteBack_fpscr (s : State) (w up : Bool) (rn : Reg) (n : Nat) : (s.vfpWriteBack w up rn n).fpscr = s.fpscr :=
  (congrArg State.fpscr (State.vfpWriteBack_only s w up rn n) :)
@[simp] theorem State.vfpWriteBack_fpexc (s : State) (w up : Bool) (rn : Reg) (n : Nat) : (s.vfpWriteBack w up rn n).fpexc = s.fpexc :=
  (congrArg State.fpexc (State.vfpWriteBack_only s w up rn n) :)
@[simp] theorem State.vfpWriteBack_fpsid (s : State) (w up : Bool) (rn : Reg) (n : Nat) : (s.vfpWriteBack w up rn n).fpsid = s.fpsid :=
  (congrArg State.fpsid (State.vfpWriteBack_only s w up rn n) :)
@[simp] theorem State.vfpWriteBack_acc0 (s : State) (w up : Bool) (rn : Reg) (n : Nat) : (s.vfpWriteBack w up rn n).acc0 = s.acc0 :=
  (congrArg State.acc0 (State.vfpWriteBack_only s w up rn n) :)
@[simp] theorem State.vfpWriteBack_mem (s : State) (w up : Bool) (rn : Reg) (n : Nat) : (s.vfpWriteBack w up rn n).mem = s.mem :=
  (congrArg State.mem (State.vfpWriteBack_only s w up rn n) :)
@[simp] theorem State.vfpWriteBack_cfg (s : State) (w up : Bool) (rn : Reg) (n : Nat) : (s.vfpWriteBack w up rn n).cfg = s.cfg :=
  (congrArg State.cfg (State.vfpWriteBack_only s w up rn n) :)
@[simp] theorem State.vfpWriteBack_draws (s : State) (w up : Bool) (rn : Reg) (n : Nat) : (s.vfpWriteBack w up rn n).draws = s.draws :=
  (congrArg State.draws (State.vfpWriteBack_only s w up rn n) :)
@[simp] theorem State.vfpWriteBack_coproc (s : State) (w up : Bool) (rn : Reg) (n : Nat) : (s.vfpWriteBack w up rn n).coproc = s.coproc :=
  (congrArg State.coproc (State.vfpWriteBack_only s w up rn n) :)
@[simp] theorem State.vfpWriteBack_answer (s : State) (w up : Bool) (rn : Reg) (n : Nat) : (s.vfpWriteBack w up rn n).answer = s.answer :=
  (congrArg State.answer (State.vfpWriteBack_only s w up rn n) :)
@[simp] theorem State.vfpWriteBack_inputs (s : State) (w up : Bool) (rn : Reg) (n : Nat) : (s.vfpWriteBack w up rn n).inputs = s.inputs :=
  (congrArg State.inputs (State.vfpWriteBack_only s w up rn n) :)
@[simp] theorem State.vfpWriteBack_exited (s : State) (w up : Bool) (rn : Reg) (n : Nat) : (s.vfpWriteBack w up rn n).exited = s.exited :=
  (congrArg State.exited (State.vfpWriteBack_only s w up rn n) :)

/-! ### `State.setVfpSystem` -/

theorem State.setVfpSystem_only (s : State) (v : Word) (r : VfpSystem) :
    s.setVfpSystem v r = { s with fpscr := (s.setVfpSystem v r).fpscr, fpexc := (s.setVfpSystem v r).fpexc } := by cases r <;> rfl

@[simp] theorem State.setVfpSystem_gpr (s : State) (v : Word) (r : VfpSystem) : (s.setVfpSystem v r).gpr = s.gpr :=
  (congrArg State.gpr (State.setVfpSystem_only s v r) :)
@[simp] theorem State.setVfpSystem_pc (s : State) (v : Word) (r : VfpSystem) : (s.setVfpSystem v r).pc = s.pc :=
  (congrArg State.pc (State.setVfpSystem_only s v r) :)
@[simp] theorem State.setVfpSystem_cpsr (s : State) (v : Word) (r : VfpSystem) : (s.setVfpSystem v r).cpsr = s.cpsr :=
  (congrArg State.cpsr (State.setVfpSystem_only s v r) :)
@[simp] theorem State.setVfpSystem_spsrFiq (s : State) (v : Word) (r : VfpSystem) : (s.setVfpSystem v r).spsrFiq = s.spsrFiq :=
  (congrArg State.spsrFiq (State.setVfpSystem_only s v r) :)
@[simp] theorem State.setVfpSystem_spsrIrq (s : State) (v : Word) (r : VfpSystem) : (s.setVfpSystem v r).spsrIrq = s.spsrIrq :=
  (congrArg State.spsrIrq (State.setVfpSystem_only s v r) :)
@[simp] theorem State.setVfpSystem_spsrSvc (s : State) (v : Word) (r : VfpSystem) : (s.setVfpSystem v r).spsrSvc = s.spsrSvc :=
  (congrArg State.spsrSvc (State.setVfpSystem_only s v r) :)
@[simp] theorem State.setVfpSystem_spsrAbt (s : State) (v : Word) (r : VfpSystem) : (s.setVfpSystem v r).spsrAbt = s.spsrAbt :=
  (congrArg State.spsrAbt (State.setVfpSystem_only s v r) :)
@[simp] theorem State.setVfpSystem_spsrUnd (s : State) (v : Word) (r : VfpSystem) : (s.setVfpSystem v r).spsrUnd = s.spsrUnd :=
  (congrArg State.spsrUnd (State.setVfpSystem_only s v r) :)
@[simp] theorem State.setVfpSystem_vfp (s : State) (v : Word) (r : VfpSystem) : (s.setVfpSystem v r).vfp = s.vfp :=
  (congrArg State.vfp (State.setVfpSystem_only s v r) :)
@[simp] theorem State.setVfpSystem_fpsid (s : State) (v : Word) (r : VfpSystem) : (s.setVfpSystem v r).fpsid = s.fpsid :=
  (congrArg State.fpsid (State.setVfpSystem_only s v r) :)
@[simp] theorem State.setVfpSystem_acc0 (s : State) (v : Word) (r : VfpSystem) : (s.setVfpSystem v r).acc0 = s.acc0 :=
  (congrArg State.acc0 (State.setVfpSystem_only s v r) :)
@[simp] theorem State.setVfpSystem_mem (s : State) (v : Word) (r : VfpSystem) : (s.setVfpSystem v r).mem = s.mem :=
  (congrArg State.mem (State.setVfpSystem_only s v r) :)
@[simp] theorem State.setVfpSystem_cfg (s : State) (v : Word) (r : VfpSystem) : (s.setVfpSystem v r).cfg = s.cfg :=
  (congrArg State.cfg (State.setVfpSystem_only s v r) :)
@[simp] theorem State.setVfpSystem_draws (s : State) (v : Word) (r : VfpSystem) : (s.setVfpSystem v r).draws = s.draws :=
  (congrArg State.draws (State.setVfpSystem_only s v r) :)
@[simp] theorem State.setVfpSystem_coproc (s : State) (v : Word) (r : VfpSystem) : (s.setVfpSystem v r).coproc = s.coproc :=
  (congrArg State.coproc (State.setVfpSystem_only s v r) :)
@[simp] theorem State.setVfpSystem_answer (s : State) (v : Word) (r : VfpSystem) : (s.setVfpSystem v r).answer = s.answer :=
  (congrArg State.answer (State.setVfpSystem_only s v r) :)
@[simp] theorem State.setVfpSystem_inputs (s : State) (v : Word) (r : VfpSystem) : (s.setVfpSystem v r).inputs = s.inputs :=
  (congrArg State.inputs (State.setVfpSystem_only s v r) :)
@[simp] theorem State.setVfpSystem_exited (s : State) (v : Word) (r : VfpSystem) : (s.setVfpSystem v r).exited = s.exited :=
  (congrArg State.exited (State.setVfpSystem_only s v r) :)

/-! ### `State.setFreg` -/

theorem State.setFreg_only (s : State) (p : Precision) (i bits : Nat) :
    s.setFreg p i bits = { s with vfp := (s.setFreg p i bits).vfp } := by cases p <;> rfl

@[simp] theorem State.setFreg_gpr (s : State) (p : Precision) (i bits : Nat) : (s.setFreg p i bits).gpr = s.gpr :=
  (congrArg State.gpr (State.setFreg_only s p i bits) :)
@[simp] theorem State.setFreg_pc (s : State) (p : Precision) (i bits : Nat) : (s.setFreg p i bits).pc = s.pc :=
  (congrArg State.pc (State.setFreg_only s p i bits) :)
@[simp] theorem State.setFreg_cpsr (s : State) (p : Precision) (i bits : Nat) : (s.setFreg p i bits).cpsr = s.cpsr :=
  (congrArg State.cpsr (State.setFreg_only s p i bits) :)
@[simp] theorem State.setFreg_spsrFiq (s : State) (p : Precision) (i bits : Nat) : (s.setFreg p i bits).spsrFiq = s.spsrFiq :=
  (congrArg State.spsrFiq (State.setFreg_only s p i bits) :)
@[simp] theorem State.setFreg_spsrIrq (s : State) (p : Precision) (i bits : Nat) : (s.setFreg p i bits).spsrIrq = s.spsrIrq :=
  (congrArg State.spsrIrq (State.setFreg_only s p i bits) :)
@[simp] theorem State.setFreg_spsrSvc (s : State) (p : Precision) (i bits : Nat) : (s.setFreg p i bits).spsrSvc = s.spsrSvc :=
  (congrArg State.spsrSvc (State.setFreg_only s p i bits) :)
@[simp] theorem State.setFreg_spsrAbt (s : State) (p : Precision) (i bits : Nat) : (s.setFreg p i bits).spsrAbt = s.spsrAbt :=
  (congrArg State.spsrAbt (State.setFreg_only s p i bits) :)
@[simp] theorem State.setFreg_spsrUnd (s : State) (p : Precision) (i bits : Nat) : (s.setFreg p i bits).spsrUnd = s.spsrUnd :=
  (congrArg State.spsrUnd (State.setFreg_only s p i bits) :)
@[simp] theorem State.setFreg_fpscr (s : State) (p : Precision) (i bits : Nat) : (s.setFreg p i bits).fpscr = s.fpscr :=
  (congrArg State.fpscr (State.setFreg_only s p i bits) :)
@[simp] theorem State.setFreg_fpexc (s : State) (p : Precision) (i bits : Nat) : (s.setFreg p i bits).fpexc = s.fpexc :=
  (congrArg State.fpexc (State.setFreg_only s p i bits) :)
@[simp] theorem State.setFreg_fpsid (s : State) (p : Precision) (i bits : Nat) : (s.setFreg p i bits).fpsid = s.fpsid :=
  (congrArg State.fpsid (State.setFreg_only s p i bits) :)
@[simp] theorem State.setFreg_acc0 (s : State) (p : Precision) (i bits : Nat) : (s.setFreg p i bits).acc0 = s.acc0 :=
  (congrArg State.acc0 (State.setFreg_only s p i bits) :)
@[simp] theorem State.setFreg_mem (s : State) (p : Precision) (i bits : Nat) : (s.setFreg p i bits).mem = s.mem :=
  (congrArg State.mem (State.setFreg_only s p i bits) :)
@[simp] theorem State.setFreg_cfg (s : State) (p : Precision) (i bits : Nat) : (s.setFreg p i bits).cfg = s.cfg :=
  (congrArg State.cfg (State.setFreg_only s p i bits) :)
@[simp] theorem State.setFreg_draws (s : State) (p : Precision) (i bits : Nat) : (s.setFreg p i bits).draws = s.draws :=
  (congrArg State.draws (State.setFreg_only s p i bits) :)
@[simp] theorem State.setFreg_coproc (s : State) (p : Precision) (i bits : Nat) : (s.setFreg p i bits).coproc = s.coproc :=
  (congrArg State.coproc (State.setFreg_only s p i bits) :)
@[simp] theorem State.setFreg_answer (s : State) (p : Precision) (i bits : Nat) : (s.setFreg p i bits).answer = s.answer :=
  (congrArg State.answer (State.setFreg_only s p i bits) :)
@[simp] theorem State.setFreg_inputs (s : State) (p : Precision) (i bits : Nat) : (s.setFreg p i bits).inputs = s.inputs :=
  (congrArg State.inputs (State.setFreg_only s p i bits) :)
@[simp] theorem State.setFreg_exited (s : State) (p : Precision) (i bits : Nat) : (s.setFreg p i bits).exited = s.exited :=
  (congrArg State.exited (State.setFreg_only s p i bits) :)

/-! ### `State.setRegs` -/

theorem State.setRegs_only (s : State) (rs : List Reg) (vs : List Word) :
    s.setRegs rs vs = { s with gpr := (s.setRegs rs vs).gpr } := by
  induction rs generalizing s vs with
  | nil => rfl
  | cons r rs ih =>
    cases vs with
    | nil => rfl
    | cons v vs => exact (ih _ vs).trans (by simp; rfl)

@[simp] theorem State.setRegs_pc (s : State) (rs : List Reg) (vs : List Word) : (s.setRegs rs vs).pc = s.pc :=
  (congrArg State.pc (State.setRegs_only s rs vs) :)
@[simp] theorem State.setRegs_cpsr (s : State) (rs : List Reg) (vs : List Word) : (s.setRegs rs vs).cpsr = s.cpsr :=
  (congrArg State.cpsr (State.setRegs_only s rs vs) :)
@[simp] theorem State.setRegs_spsrFiq (s : State) (rs : List Reg) (vs : List Word) : (s.setRegs rs vs).spsrFiq = s.spsrFiq :=
  (congrArg State.spsrFiq (State.setRegs_only s rs vs) :)
@[simp] theorem State.setRegs_spsrIrq (s : State) (rs : List Reg) (vs : List Word) : (s.setRegs rs vs).spsrIrq = s.spsrIrq :=
  (congrArg State.spsrIrq (State.setRegs_only s rs vs) :)
@[simp] theorem State.setRegs_spsrSvc (s : State) (rs : List Reg) (vs : List Word) : (s.setRegs rs vs).spsrSvc = s.spsrSvc :=
  (congrArg State.spsrSvc (State.setRegs_only s rs vs) :)
@[simp] theorem State.setRegs_spsrAbt (s : State) (rs : List Reg) (vs : List Word) : (s.setRegs rs vs).spsrAbt = s.spsrAbt :=
  (congrArg State.spsrAbt (State.setRegs_only s rs vs) :)
@[simp] theorem State.setRegs_spsrUnd (s : State) (rs : List Reg) (vs : List Word) : (s.setRegs rs vs).spsrUnd = s.spsrUnd :=
  (congrArg State.spsrUnd (State.setRegs_only s rs vs) :)
@[simp] theorem State.setRegs_vfp (s : State) (rs : List Reg) (vs : List Word) : (s.setRegs rs vs).vfp = s.vfp :=
  (congrArg State.vfp (State.setRegs_only s rs vs) :)
@[simp] theorem State.setRegs_fpscr (s : State) (rs : List Reg) (vs : List Word) : (s.setRegs rs vs).fpscr = s.fpscr :=
  (congrArg State.fpscr (State.setRegs_only s rs vs) :)
@[simp] theorem State.setRegs_fpexc (s : State) (rs : List Reg) (vs : List Word) : (s.setRegs rs vs).fpexc = s.fpexc :=
  (congrArg State.fpexc (State.setRegs_only s rs vs) :)
@[simp] theorem State.setRegs_fpsid (s : State) (rs : List Reg) (vs : List Word) : (s.setRegs rs vs).fpsid = s.fpsid :=
  (congrArg State.fpsid (State.setRegs_only s rs vs) :)
@[simp] theorem State.setRegs_acc0 (s : State) (rs : List Reg) (vs : List Word) : (s.setRegs rs vs).acc0 = s.acc0 :=
  (congrArg State.acc0 (State.setRegs_only s rs vs) :)
@[simp] theorem State.setRegs_mem (s : State) (rs : List Reg) (vs : List Word) : (s.setRegs rs vs).mem = s.mem :=
  (congrArg State.mem (State.setRegs_only s rs vs) :)
@[simp] theorem State.setRegs_cfg (s : State) (rs : List Reg) (vs : List Word) : (s.setRegs rs vs).cfg = s.cfg :=
  (congrArg State.cfg (State.setRegs_only s rs vs) :)
@[simp] theorem State.setRegs_draws (s : State) (rs : List Reg) (vs : List Word) : (s.setRegs rs vs).draws = s.draws :=
  (congrArg State.draws (State.setRegs_only s rs vs) :)
@[simp] theorem State.setRegs_coproc (s : State) (rs : List Reg) (vs : List Word) : (s.setRegs rs vs).coproc = s.coproc :=
  (congrArg State.coproc (State.setRegs_only s rs vs) :)
@[simp] theorem State.setRegs_answer (s : State) (rs : List Reg) (vs : List Word) : (s.setRegs rs vs).answer = s.answer :=
  (congrArg State.answer (State.setRegs_only s rs vs) :)
@[simp] theorem State.setRegs_inputs (s : State) (rs : List Reg) (vs : List Word) : (s.setRegs rs vs).inputs = s.inputs :=
  (congrArg State.inputs (State.setRegs_only s rs vs) :)
@[simp] theorem State.setRegs_exited (s : State) (rs : List Reg) (vs : List Word) : (s.setRegs rs vs).exited = s.exited :=
  (congrArg State.exited (State.setRegs_only s rs vs) :)

/-! ### `State.setUserRegs` -/

theorem State.setUserRegs_only (s : State) (rs : List Reg) (vs : List Word) :
    s.setUserRegs rs vs = { s with gpr := (s.setUserRegs rs vs).gpr } := by
  induction rs generalizing s vs with
  | nil => rfl
  | cons r rs ih =>
    cases vs with
    | nil => rfl
    | cons v vs => exact (ih _ vs).trans (by simp; rfl)

@[simp] theorem State.setUserRegs_pc (s : State) (rs : List Reg) (vs : List Word) : (s.setUserRegs rs vs).pc = s.pc :=
  (congrArg State.pc (State.setUserRegs_only s rs vs) :)
@[simp] theorem State.setUserRegs_cpsr (s : State) (rs : List Reg) (vs : List Word) : (s.setUserRegs rs vs).cpsr = s.cpsr :=
  (congrArg State.cpsr (State.setUserRegs_only s rs vs) :)
@[simp] theorem State.setUserRegs_spsrFiq (s : State) (rs : List Reg) (vs : List Word) : (s.setUserRegs rs vs).spsrFiq = s.spsrFiq :=
  (congrArg State.spsrFiq (State.setUserRegs_only s rs vs) :)
@[simp] theorem State.setUserRegs_spsrIrq (s : State) (rs : List Reg) (vs : List Word) : (s.setUserRegs rs vs).spsrIrq = s.spsrIrq :=
  (congrArg State.spsrIrq (State.setUserRegs_only s rs vs) :)
@[simp] theorem State.setUserRegs_spsrSvc (s : State) (rs : List Reg) (vs : List Word) : (s.setUserRegs rs vs).spsrSvc = s.spsrSvc :=
  (congrArg State.spsrSvc (State.setUserRegs_only s rs vs) :)
@[simp] theorem State.setUserRegs_spsrAbt (s : State) (rs : List Reg) (vs : List Word) : (s.setUserRegs rs vs).spsrAbt = s.spsrAbt :=
  (congrArg State.spsrAbt (State.setUserRegs_only s rs vs) :)
@[simp] theorem State.setUserRegs_spsrUnd (s : State) (rs : List Reg) (vs : List Word) : (s.setUserRegs rs vs).spsrUnd = s.spsrUnd :=
  (congrArg State.spsrUnd (State.setUserRegs_only s rs vs) :)
@[simp] theorem State.setUserRegs_vfp (s : State) (rs : List Reg) (vs : List Word) : (s.setUserRegs rs vs).vfp = s.vfp :=
  (congrArg State.vfp (State.setUserRegs_only s rs vs) :)
@[simp] theorem State.setUserRegs_fpscr (s : State) (rs : List Reg) (vs : List Word) : (s.setUserRegs rs vs).fpscr = s.fpscr :=
  (congrArg State.fpscr (State.setUserRegs_only s rs vs) :)
@[simp] theorem State.setUserRegs_fpexc (s : State) (rs : List Reg) (vs : List Word) : (s.setUserRegs rs vs).fpexc = s.fpexc :=
  (congrArg State.fpexc (State.setUserRegs_only s rs vs) :)
@[simp] theorem State.setUserRegs_fpsid (s : State) (rs : List Reg) (vs : List Word) : (s.setUserRegs rs vs).fpsid = s.fpsid :=
  (congrArg State.fpsid (State.setUserRegs_only s rs vs) :)
@[simp] theorem State.setUserRegs_acc0 (s : State) (rs : List Reg) (vs : List Word) : (s.setUserRegs rs vs).acc0 = s.acc0 :=
  (congrArg State.acc0 (State.setUserRegs_only s rs vs) :)
@[simp] theorem State.setUserRegs_mem (s : State) (rs : List Reg) (vs : List Word) : (s.setUserRegs rs vs).mem = s.mem :=
  (congrArg State.mem (State.setUserRegs_only s rs vs) :)
@[simp] theorem State.setUserRegs_cfg (s : State) (rs : List Reg) (vs : List Word) : (s.setUserRegs rs vs).cfg = s.cfg :=
  (congrArg State.cfg (State.setUserRegs_only s rs vs) :)
@[simp] theorem State.setUserRegs_draws (s : State) (rs : List Reg) (vs : List Word) : (s.setUserRegs rs vs).draws = s.draws :=
  (congrArg State.draws (State.setUserRegs_only s rs vs) :)
@[simp] theorem State.setUserRegs_coproc (s : State) (rs : List Reg) (vs : List Word) : (s.setUserRegs rs vs).coproc = s.coproc :=
  (congrArg State.coproc (State.setUserRegs_only s rs vs) :)
@[simp] theorem State.setUserRegs_answer (s : State) (rs : List Reg) (vs : List Word) : (s.setUserRegs rs vs).answer = s.answer :=
  (congrArg State.answer (State.setUserRegs_only s rs vs) :)
@[simp] theorem State.setUserRegs_inputs (s : State) (rs : List Reg) (vs : List Word) : (s.setUserRegs rs vs).inputs = s.inputs :=
  (congrArg State.inputs (State.setUserRegs_only s rs vs) :)
@[simp] theorem State.setUserRegs_exited (s : State) (rs : List Reg) (vs : List Word) : (s.setUserRegs rs vs).exited = s.exited :=
  (congrArg State.exited (State.setUserRegs_only s rs vs) :)

/-! ### `State.setSregs` -/

theorem State.setSregs_only (s : State) (i : Nat) (vs : List Word) :
    s.setSregs i vs = { s with vfp := (s.setSregs i vs).vfp } := by
  induction vs generalizing s i with
  | nil => rfl
  | cons v vs ih => exact (ih _ _).trans rfl

@[simp] theorem State.setSregs_gpr (s : State) (i : Nat) (vs : List Word) : (s.setSregs i vs).gpr = s.gpr :=
  (congrArg State.gpr (State.setSregs_only s i vs) :)
@[simp] theorem State.setSregs_pc (s : State) (i : Nat) (vs : List Word) : (s.setSregs i vs).pc = s.pc :=
  (congrArg State.pc (State.setSregs_only s i vs) :)
@[simp] theorem State.setSregs_cpsr (s : State) (i : Nat) (vs : List Word) : (s.setSregs i vs).cpsr = s.cpsr :=
  (congrArg State.cpsr (State.setSregs_only s i vs) :)
@[simp] theorem State.setSregs_spsrFiq (s : State) (i : Nat) (vs : List Word) : (s.setSregs i vs).spsrFiq = s.spsrFiq :=
  (congrArg State.spsrFiq (State.setSregs_only s i vs) :)
@[simp] theorem State.setSregs_spsrIrq (s : State) (i : Nat) (vs : List Word) : (s.setSregs i vs).spsrIrq = s.spsrIrq :=
  (congrArg State.spsrIrq (State.setSregs_only s i vs) :)
@[simp] theorem State.setSregs_spsrSvc (s : State) (i : Nat) (vs : List Word) : (s.setSregs i vs).spsrSvc = s.spsrSvc :=
  (congrArg State.spsrSvc (State.setSregs_only s i vs) :)
@[simp] theorem State.setSregs_spsrAbt (s : State) (i : Nat) (vs : List Word) : (s.setSregs i vs).spsrAbt = s.spsrAbt :=
  (congrArg State.spsrAbt (State.setSregs_only s i vs) :)
@[simp] theorem State.setSregs_spsrUnd (s : State) (i : Nat) (vs : List Word) : (s.setSregs i vs).spsrUnd = s.spsrUnd :=
  (congrArg State.spsrUnd (State.setSregs_only s i vs) :)
@[simp] theorem State.setSregs_fpscr (s : State) (i : Nat) (vs : List Word) : (s.setSregs i vs).fpscr = s.fpscr :=
  (congrArg State.fpscr (State.setSregs_only s i vs) :)
@[simp] theorem State.setSregs_fpexc (s : State) (i : Nat) (vs : List Word) : (s.setSregs i vs).fpexc = s.fpexc :=
  (congrArg State.fpexc (State.setSregs_only s i vs) :)
@[simp] theorem State.setSregs_fpsid (s : State) (i : Nat) (vs : List Word) : (s.setSregs i vs).fpsid = s.fpsid :=
  (congrArg State.fpsid (State.setSregs_only s i vs) :)
@[simp] theorem State.setSregs_acc0 (s : State) (i : Nat) (vs : List Word) : (s.setSregs i vs).acc0 = s.acc0 :=
  (congrArg State.acc0 (State.setSregs_only s i vs) :)
@[simp] theorem State.setSregs_mem (s : State) (i : Nat) (vs : List Word) : (s.setSregs i vs).mem = s.mem :=
  (congrArg State.mem (State.setSregs_only s i vs) :)
@[simp] theorem State.setSregs_cfg (s : State) (i : Nat) (vs : List Word) : (s.setSregs i vs).cfg = s.cfg :=
  (congrArg State.cfg (State.setSregs_only s i vs) :)
@[simp] theorem State.setSregs_draws (s : State) (i : Nat) (vs : List Word) : (s.setSregs i vs).draws = s.draws :=
  (congrArg State.draws (State.setSregs_only s i vs) :)
@[simp] theorem State.setSregs_coproc (s : State) (i : Nat) (vs : List Word) : (s.setSregs i vs).coproc = s.coproc :=
  (congrArg State.coproc (State.setSregs_only s i vs) :)
@[simp] theorem State.setSregs_answer (s : State) (i : Nat) (vs : List Word) : (s.setSregs i vs).answer = s.answer :=
  (congrArg State.answer (State.setSregs_only s i vs) :)
@[simp] theorem State.setSregs_inputs (s : State) (i : Nat) (vs : List Word) : (s.setSregs i vs).inputs = s.inputs :=
  (congrArg State.inputs (State.setSregs_only s i vs) :)
@[simp] theorem State.setSregs_exited (s : State) (i : Nat) (vs : List Word) : (s.setSregs i vs).exited = s.exited :=
  (congrArg State.exited (State.setSregs_only s i vs) :)

/-! ### `State.setDregs` -/

theorem State.setDregs_only (s : State) (i : Nat) (vs : List Word) :
    s.setDregs i vs = { s with vfp := (s.setDregs i vs).vfp } := by
  fun_induction State.setDregs s i vs with
  | case1 => rfl
  | case2 => rfl
  | case3 s i w0 w1 ws ih => exact ih.trans rfl

@[simp] theorem State.setDregs_gpr (s : State) (i : Nat) (vs : List Word) : (s.setDregs i vs).gpr = s.gpr :=
  (congrArg State.gpr (State.setDregs_only s i vs) :)
@[simp] theorem State.setDregs_pc (s : State) (i : Nat) (vs : List Word) : (s.setDregs i vs).pc = s.pc :=
  (congrArg State.pc (State.setDregs_only s i vs) :)
@[simp] theorem State.setDregs_cpsr (s : State) (i : Nat) (vs : List Word) : (s.setDregs i vs).cpsr = s.cpsr :=
  (congrArg State.cpsr (State.setDregs_only s i vs) :)
@[simp] theorem State.setDregs_spsrFiq (s : State) (i : Nat) (vs : List Word) : (s.setDregs i vs).spsrFiq = s.spsrFiq :=
  (congrArg State.spsrFiq (State.setDregs_only s i vs) :)
@[simp] theorem State.setDregs_spsrIrq (s : State) (i : Nat) (vs : List Word) : (s.setDregs i vs).spsrIrq = s.spsrIrq :=
  (congrArg State.spsrIrq (State.setDregs_only s i vs) :)
@[simp] theorem State.setDregs_spsrSvc (s : State) (i : Nat) (vs : List Word) : (s.setDregs i vs).spsrSvc = s.spsrSvc :=
  (congrArg State.spsrSvc (State.setDregs_only s i vs) :)
@[simp] theorem State.setDregs_spsrAbt (s : State) (i : Nat) (vs : List Word) : (s.setDregs i vs).spsrAbt = s.spsrAbt :=
  (congrArg State.spsrAbt (State.setDregs_only s i vs) :)
@[simp] theorem State.setDregs_spsrUnd (s : State) (i : Nat) (vs : List Word) : (s.setDregs i vs).spsrUnd = s.spsrUnd :=
  (congrArg State.spsrUnd (State.setDregs_only s i vs) :)
@[simp] theorem State.setDregs_fpscr (s : State) (i : Nat) (vs : List Word) : (s.setDregs i vs).fpscr = s.fpscr :=
  (congrArg State.fpscr (State.setDregs_only s i vs) :)
@[simp] theorem State.setDregs_fpexc (s : State) (i : Nat) (vs : List Word) : (s.setDregs i vs).fpexc = s.fpexc :=
  (congrArg State.fpexc (State.setDregs_only s i vs) :)
@[simp] theorem State.setDregs_fpsid (s : State) (i : Nat) (vs : List Word) : (s.setDregs i vs).fpsid = s.fpsid :=
  (congrArg State.fpsid (State.setDregs_only s i vs) :)
@[simp] theorem State.setDregs_acc0 (s : State) (i : Nat) (vs : List Word) : (s.setDregs i vs).acc0 = s.acc0 :=
  (congrArg State.acc0 (State.setDregs_only s i vs) :)
@[simp] theorem State.setDregs_mem (s : State) (i : Nat) (vs : List Word) : (s.setDregs i vs).mem = s.mem :=
  (congrArg State.mem (State.setDregs_only s i vs) :)
@[simp] theorem State.setDregs_cfg (s : State) (i : Nat) (vs : List Word) : (s.setDregs i vs).cfg = s.cfg :=
  (congrArg State.cfg (State.setDregs_only s i vs) :)
@[simp] theorem State.setDregs_draws (s : State) (i : Nat) (vs : List Word) : (s.setDregs i vs).draws = s.draws :=
  (congrArg State.draws (State.setDregs_only s i vs) :)
@[simp] theorem State.setDregs_coproc (s : State) (i : Nat) (vs : List Word) : (s.setDregs i vs).coproc = s.coproc :=
  (congrArg State.coproc (State.setDregs_only s i vs) :)
@[simp] theorem State.setDregs_answer (s : State) (i : Nat) (vs : List Word) : (s.setDregs i vs).answer = s.answer :=
  (congrArg State.answer (State.setDregs_only s i vs) :)
@[simp] theorem State.setDregs_inputs (s : State) (i : Nat) (vs : List Word) : (s.setDregs i vs).inputs = s.inputs :=
  (congrArg State.inputs (State.setDregs_only s i vs) :)
@[simp] theorem State.setDregs_exited (s : State) (i : Nat) (vs : List Word) : (s.setDregs i vs).exited = s.exited :=
  (congrArg State.exited (State.setDregs_only s i vs) :)

/-! ### `State.runElements` -/

theorem State.runElements_only (s : State) (p : Precision) (op : Nat → Nat → Nat → FpResult) (es : List Element) :
    s.runElements p op es = { s with vfp := (s.runElements p op es).vfp, fpscr := (s.runElements p op es).fpscr } := by
  induction es generalizing s with
  | nil => rfl
  | cons e es ih => exact (ih _).trans (by simp; exact ⟨rfl, rfl⟩)

@[simp] theorem State.runElements_gpr (s : State) (p : Precision) (op : Nat → Nat → Nat → FpResult) (es : List Element) : (s.runElements p op es).gpr = s.gpr :=
  (congrArg State.gpr (State.runElements_only s p op es) :)
@[simp] theorem State.runElements_pc (s : State) (p : Precision) (op : Nat → Nat → Nat → FpResult) (es : List Element) : (s.runElements p op es).pc = s.pc :=
  (congrArg State.pc (State.runElements_only s p op es) :)
@[simp] theorem State.runElements_cpsr (s : State) (p : Precision) (op : Nat → Nat → Nat → FpResult) (es : List Element) : (s.runElements p op es).cpsr = s.cpsr :=
  (congrArg State.cpsr (State.runElements_only s p op es) :)
@[simp] theorem State.runElements_spsrFiq (s : State) (p : Precision) (op : Nat → Nat → Nat → FpResult) (es : List Element) : (s.runElements p op es).spsrFiq = s.spsrFiq :=
  (congrArg State.spsrFiq (State.runElements_only s p op es) :)
@[simp] theorem State.runElements_spsrIrq (s : State) (p : Precision) (op : Nat → Nat → Nat → FpResult) (es : List Element) : (s.runElements p op es).spsrIrq = s.spsrIrq :=
  (congrArg State.spsrIrq (State.runElements_only s p op es) :)
@[simp] theorem State.runElements_spsrSvc (s : State) (p : Precision) (op : Nat → Nat → Nat → FpResult) (es : List Element) : (s.runElements p op es).spsrSvc = s.spsrSvc :=
  (congrArg State.spsrSvc (State.runElements_only s p op es) :)
@[simp] theorem State.runElements_spsrAbt (s : State) (p : Precision) (op : Nat → Nat → Nat → FpResult) (es : List Element) : (s.runElements p op es).spsrAbt = s.spsrAbt :=
  (congrArg State.spsrAbt (State.runElements_only s p op es) :)
@[simp] theorem State.runElements_spsrUnd (s : State) (p : Precision) (op : Nat → Nat → Nat → FpResult) (es : List Element) : (s.runElements p op es).spsrUnd = s.spsrUnd :=
  (congrArg State.spsrUnd (State.runElements_only s p op es) :)
@[simp] theorem State.runElements_fpexc (s : State) (p : Precision) (op : Nat → Nat → Nat → FpResult) (es : List Element) : (s.runElements p op es).fpexc = s.fpexc :=
  (congrArg State.fpexc (State.runElements_only s p op es) :)
@[simp] theorem State.runElements_fpsid (s : State) (p : Precision) (op : Nat → Nat → Nat → FpResult) (es : List Element) : (s.runElements p op es).fpsid = s.fpsid :=
  (congrArg State.fpsid (State.runElements_only s p op es) :)
@[simp] theorem State.runElements_acc0 (s : State) (p : Precision) (op : Nat → Nat → Nat → FpResult) (es : List Element) : (s.runElements p op es).acc0 = s.acc0 :=
  (congrArg State.acc0 (State.runElements_only s p op es) :)
@[simp] theorem State.runElements_mem (s : State) (p : Precision) (op : Nat → Nat → Nat → FpResult) (es : List Element) : (s.runElements p op es).mem = s.mem :=
  (congrArg State.mem (State.runElements_only s p op es) :)
@[simp] theorem State.runElements_cfg (s : State) (p : Precision) (op : Nat → Nat → Nat → FpResult) (es : List Element) : (s.runElements p op es).cfg = s.cfg :=
  (congrArg State.cfg (State.runElements_only s p op es) :)
@[simp] theorem State.runElements_draws (s : State) (p : Precision) (op : Nat → Nat → Nat → FpResult) (es : List Element) : (s.runElements p op es).draws = s.draws :=
  (congrArg State.draws (State.runElements_only s p op es) :)
@[simp] theorem State.runElements_coproc (s : State) (p : Precision) (op : Nat → Nat → Nat → FpResult) (es : List Element) : (s.runElements p op es).coproc = s.coproc :=
  (congrArg State.coproc (State.runElements_only s p op es) :)
@[simp] theorem State.runElements_answer (s : State) (p : Precision) (op : Nat → Nat → Nat → FpResult) (es : List Element) : (s.runElements p op es).answer = s.answer :=
  (congrArg State.answer (State.runElements_only s p op es) :)
@[simp] theorem State.runElements_inputs (s : State) (p : Precision) (op : Nat → Nat → Nat → FpResult) (es : List Element) : (s.runElements p op es).inputs = s.inputs :=
  (congrArg State.inputs (State.runElements_only s p op es) :)
@[simp] theorem State.runElements_exited (s : State) (p : Precision) (op : Nat → Nat → Nat → FpResult) (es : List Element) : (s.runElements p op es).exited = s.exited :=
  (congrArg State.exited (State.runElements_only s p op es) :)

end Sys2Proof.Machine
end

