-- ==== Sys2Proof/Laws/Flags.lean ====
section
/-! SUPPORT. `addWithCarry` by exact arithmetic (R34), and saturation (R315). -/

namespace Sys2Proof.Machine

theorem bitWord_toNat (c : Bool) : (bitWord c).toNat = c.toNat := by cases c <;> rfl

theorem addWithCarry_value (a b : Word) (c : Bool) : (addWithCarry a b c).value = a + b + bitWord c := by
  apply BitVec.eq_of_toNat_eq
  simp [addWithCarry, BitVec.toNat_add, bitWord_toNat, Nat.add_mod]

theorem nat_toInt_bool (c : Bool) : ((c.toNat : Nat) : Int) = if c then 1 else 0 := by cases c <;> rfl

/-- The flags of a sum (R34). -/
theorem addWithCarry_nzcv (a b : Word) (c : Bool) : (addWithCarry a b c).nzcv = sumFlags a b c := by
  simp only [AddResult.nzcv, addWithCarry_value, sumFlags, Nzcv.mk.injEq, true_and]
  refine ⟨beq_eq_decide _ _, rfl, ?_⟩
  simp only [addWithCarry, fits32, ← decide_not, decide_eq_decide]
  omega

/-- A subtraction is an addition of the complement: its value. -/
theorem addWithCarry_not_value (a b : Word) (c : Bool) :
    (addWithCarry a (~~~b) c).value = a - b - bitWord (!c) := by
  rw [addWithCarry_value]
  cases c <;> simp only [bitWord, Bool.not_true, Bool.not_false, if_true, Bool.false_eq_true, if_false] <;> bv_omega

theorem word_not_toInt (b : Word) : (~~~b).toInt = -b.toInt - 1 := by
  rw [BitVec.toInt_not, BitVec.toInt_eq_toNat_bmod, Int.bmod_def, Int.bmod_def]
  have := b.isLt
  omega

/-- The flags of a difference (R34): C is no borrow. -/
theorem addWithCarry_not_nzcv (a b : Word) (c : Bool) :
    (addWithCarry a (~~~b) c).nzcv = differenceFlags a b (!c) := by
  simp only [AddResult.nzcv, addWithCarry_not_value, differenceFlags, Nzcv.mk.injEq, true_and]
  refine ⟨beq_eq_decide _ _, ?_, ?_⟩
  · simp only [addWithCarry, decide_eq_decide, BitVec.toNat_not]
    have := a.isLt
    have := b.isLt
    cases c <;> simp only [Bool.toNat_true, Bool.toNat_false, Bool.not_true, Bool.not_false] <;> omega
  · simp only [addWithCarry, fits32, ← decide_not, decide_eq_decide, word_not_toInt]
    cases c <;> simp only [Bool.toNat_true, Bool.toNat_false, Bool.not_true, Bool.not_false] <;> omega

/-- Saturation gives the nearest signed word and says whether it changed the value (R315). -/
theorem signedSat32_eq (x : Int) : signedSat32 x = (BitVec.ofInt 32 (clamp32 x), !fits32 x) := by
  have hd : ∀ b : Bool, (decide (b = true)) = b := by intro b; cases b <;> rfl
  unfold signedSat32 clamp32 fits32
  split
  · rw [Prod.mk.injEq]
    refine ⟨congrArg _ (by omega), ?_⟩
    simp only [← decide_not]
    exact (decide_eq_true (by omega)).symm
  · split
    · rw [Prod.mk.injEq]
      refine ⟨congrArg _ (by omega), ?_⟩
      simp only [← decide_not]
      exact (decide_eq_true (by omega)).symm
    · rw [Prod.mk.injEq]
      refine ⟨congrArg _ (by omega), ?_⟩
      simp only [← decide_not]
      exact (decide_eq_false (by omega)).symm

/-- A number that fits is read back from its word. -/
theorem toInt_ofInt32 {x : Int} (h : fits32 x = true) : (BitVec.ofInt 32 x).toInt = x := by
  simp only [fits32, decide_eq_true_eq] at h
  rw [BitVec.toInt_ofInt, Int.bmod_def]
  omega

/-- The nearest signed word is read back. -/
theorem toInt_clamp32 (x : Int) : (BitVec.ofInt 32 (clamp32 x)).toInt = clamp32 x :=
  toInt_ofInt32 (decide_eq_true (by
    unfold clamp32
    omega))

theorem ofInt32_ne (x : Int) : ((BitVec.ofInt 32 x).toInt != x) = !fits32 x := by
  rw [bne, Bool.not_inj_iff, beq_eq_decide]
  cases h : fits32 x
  · rw [decide_eq_false_iff_not]
    intro he
    simp only [fits32, decide_eq_false_iff_not] at h
    rw [BitVec.toInt_ofInt, Int.bmod_def] at he
    omega
  · rw [decide_eq_true_eq]
    exact toInt_ofInt32 h

end Sys2Proof.Machine
end

