-- ==== Sys2Proof/Laws/Memory.lean ====
section
/-! SUPPORT. Memory: its operations keep the canonical form; a read gives what was written there, and every other address
reads as before. -/

namespace Sys2Proof.Machine

/-! ### The canonical form -/

theorem Memory.wfFrom_mono {lo lo' : Nat} {m : Memory} (h : Memory.wfFrom lo m = true) (hl : lo' ≤ lo) :
    Memory.wfFrom lo' m = true := by
  cases m with
  | nil => rfl
  | cons e m =>
    obtain ⟨a, b⟩ := e
    simp only [Memory.wfFrom, Bool.and_eq_true, decide_eq_true_eq] at h ⊢
    exact ⟨⟨by omega, h.1.2⟩, h.2⟩

theorem Memory.write_wfFrom {lo k : Nat} {v : Byte} {m : Memory} (h : Memory.wfFrom lo m = true) (hk : lo ≤ k)
    (hb : k < 2 ^ 32) : Memory.wfFrom lo (Memory.write m k v) = true := by
  induction m generalizing lo with
  | nil => simpa [Memory.write, Memory.wfFrom, hk] using hb
  | cons e m ih =>
    obtain ⟨a, b⟩ := e
    simp only [Memory.wfFrom, Bool.and_eq_true, decide_eq_true_eq] at h
    obtain ⟨⟨h1, h2⟩, h3⟩ := h
    unfold Memory.write
    split
    · simp only [Memory.wfFrom, Bool.and_eq_true, decide_eq_true_eq]
      exact ⟨⟨hk, hb⟩, ⟨by omega, h2⟩, h3⟩
    · split
      · subst_vars
        simp only [Memory.wfFrom, Bool.and_eq_true, decide_eq_true_eq]
        exact ⟨⟨hk, hb⟩, h3⟩
      · simp only [Memory.wfFrom, Bool.and_eq_true, decide_eq_true_eq]
        exact ⟨⟨h1, h2⟩, ih h3 (by omega)⟩

theorem Memory.write_wf {m : Memory} {k : Nat} {v : Byte} (h : m.wf = true) (hb : k < 2 ^ 32) :
    (m.write k v).wf = true := Memory.write_wfFrom h (by omega) hb

/-! ### Reads and writes -/

theorem Memory.read_write_ne {k j : Nat} {v : Byte} {m : Memory} (h : j ≠ k) :
    Memory.read (Memory.write m k v) j = Memory.read m j := by
  induction m with
  | nil => simp [Memory.write, Memory.read, h]
  | cons e m ih =>
    obtain ⟨a, b⟩ := e
    unfold Memory.write
    split
    · simp [Memory.read, h]
    · split
      · subst_vars
        simp [Memory.read, h]
      · simp only [Memory.read, ih]

theorem Memory.read_write_self {k : Nat} {v : Byte} {m : Memory} : Memory.read (Memory.write m k v) k = some v := by
  induction m with
  | nil => simp [Memory.write, Memory.read]
  | cons e m ih =>
    obtain ⟨a, b⟩ := e
    unfold Memory.write
    split
    · simp [Memory.read]
    · split
      · simp [Memory.read]
      · rename_i hne
        simp only [Memory.read, hne, if_false, ih]

/-! ### Bytes of the state -/

theorem State.byte_setByte_self (s : State) (a : Word) (v : Byte) : (s.setByte a v).byte a = some v :=
  Memory.read_write_self

theorem State.byte_setByte_ne (s : State) (a b : Word) (v : Byte) (h : b ≠ a) : (s.setByte a v).byte b = s.byte b :=
  Memory.read_write_ne (by simpa [BitVec.toNat_inj] using h)

theorem State.setByte_wf (s : State) (a : Word) (v : Byte) (h : s.mem.wf = true) : (s.setByte a v).mem.wf = true :=
  Memory.write_wf h a.isLt

theorem State.setHalf_wf (s : State) (a : Word) (v : Half) (h : s.mem.wf = true) : (s.setHalf a v).mem.wf = true := by
  unfold State.setHalf
  split <;> exact State.setByte_wf _ _ _ (State.setByte_wf _ _ _ h)

theorem State.setWord_wf (s : State) (a : Word) (v : Word) (h : s.mem.wf = true) : (s.setWord a v).mem.wf = true := by
  unfold State.setWord
  split <;>
    exact State.setByte_wf _ _ _ (State.setByte_wf _ _ _ (State.setByte_wf _ _ _ (State.setByte_wf _ _ _ h)))

/-- Writes that change nothing but memory leave every reading of the other fields alone: equal memories read alike. -/
theorem State.byte_congr {s t : State} (h : t.mem = s.mem) (a : Word) : t.byte a = s.byte a := by
  simp [State.byte, h]

/-- An address is not one of the `n` bytes from `lo` when its distance is at least `n`. -/
theorem State.byte_setHalf_outside (s : State) (a b : Word) (v : Half) (h : 2 ≤ (b - a).toNat) :
    (s.setHalf a v).byte b = s.byte b := by
  have h0 : b ≠ a := by rintro rfl; simp at h
  have h1 : b ≠ a + 1#32 := by rintro rfl; simp at h
  unfold State.setHalf
  split <;> rw [State.byte_setByte_ne _ _ _ _ h1, State.byte_setByte_ne _ _ _ _ h0]

theorem State.byte_setWord_outside (s : State) (a b : Word) (v : Word) (h : 4 ≤ (b - a).toNat) :
    (s.setWord a v).byte b = s.byte b := by
  have h0 : b ≠ a := by rintro rfl; simp at h
  have h1 : b ≠ a + 1#32 := by rintro rfl; simp at h
  have h2 : b ≠ a + 2#32 := by rintro rfl; simp at h
  have h3 : b ≠ a + 3#32 := by rintro rfl; simp at h
  unfold State.setWord
  split <;>
    rw [State.byte_setByte_ne _ _ _ _ h3, State.byte_setByte_ne _ _ _ _ h2, State.byte_setByte_ne _ _ _ _ h1,
      State.byte_setByte_ne _ _ _ _ h0]

theorem word_ne_add (a : Word) : a ≠ a + 1#32 ∧ a ≠ a + 2#32 ∧ a ≠ a + 3#32 ∧ a + 1#32 ≠ a + 2#32 ∧
    a + 1#32 ≠ a + 3#32 ∧ a + 2#32 ≠ a + 3#32 := by
  refine ⟨?_, ?_, ?_, ?_, ?_, ?_⟩ <;> intro h <;> bv_omega

theorem half_split (v : Half) : v.extractLsb' 8 8 ++ v.extractLsb' 0 8 = v := by
  ext i hi
  simp only [BitVec.getElem_append, BitVec.getElem_extractLsb']
  split
  all_goals simp only [Nat.zero_add, ← BitVec.getLsbD_eq_getElem] <;> congr 1 <;> omega

theorem word_split (v : Word) :
    v.extractLsb' 24 8 ++ v.extractLsb' 16 8 ++ v.extractLsb' 8 8 ++ v.extractLsb' 0 8 = v := by
  ext i hi
  simp only [BitVec.getElem_append, BitVec.getElem_extractLsb']
  repeat' split
  all_goals simp only [Nat.zero_add, ← BitVec.getLsbD_eq_getElem] <;> congr 1 <;> omega

theorem dword_split (v : DWord) : v.extractLsb' 32 32 ++ v.extractLsb' 0 32 = v := by
  ext i hi
  simp only [BitVec.getElem_append, BitVec.getElem_extractLsb']
  split
  all_goals simp only [Nat.zero_add, ← BitVec.getLsbD_eq_getElem] <;> congr 1 <;> omega

/-- A halfword reads back as written (R72). -/
theorem State.half_setHalf (s : State) (a : Word) (v : Half) : (s.setHalf a v).half a = some v := by
  obtain ⟨h1, -⟩ := word_ne_add a
  have hc : (s.setHalf a v).cfg = s.cfg := by simp
  unfold State.half
  rw [hc]
  unfold State.setHalf
  cases s.cfg.bigEndian <;> simp [State.byte_setByte_self, State.byte_setByte_ne _ _ _ _ h1, half_split]

/-- A word reads back as written (R72). -/
theorem State.word_setWord (s : State) (a : Word) (v : Word) : (s.setWord a v).word a = some v := by
  obtain ⟨h1, h2, h3, h4, h5, h6⟩ := word_ne_add a
  have hc : (s.setWord a v).cfg = s.cfg := by simp
  unfold State.word
  rw [hc]
  unfold State.setWord
  cases s.cfg.bigEndian <;>
    simp [State.byte_setByte_self, State.byte_setByte_ne _ _ _ _ h1, State.byte_setByte_ne _ _ _ _ h2,
      State.byte_setByte_ne _ _ _ _ h3, State.byte_setByte_ne _ _ _ _ h4, State.byte_setByte_ne _ _ _ _ h5,
      State.byte_setByte_ne _ _ _ _ h6, word_split]

/-- A halfword has a value when both its bytes have one (R72). -/
theorem State.half_eq_some {s : State} {a : Word} {v : Half} :
    s.half a = some v ↔ ∃ b0 b1, s.byte a = some b0 ∧ s.byte (a + 1#32) = some b1 ∧
      v = if s.cfg.bigEndian then b0 ++ b1 else b1 ++ b0 := by
  unfold State.half
  cases s.byte a <;> cases s.byte (a + 1#32) <;> simp [@eq_comm _ v]

/-- A word has a value when its four bytes have one (R72). -/
theorem State.word_eq_some {s : State} {a : Word} {v : Word} :
    s.word a = some v ↔ ∃ b0 b1 b2 b3, s.byte a = some b0 ∧ s.byte (a + 1#32) = some b1 ∧
      s.byte (a + 2#32) = some b2 ∧ s.byte (a + 3#32) = some b3 ∧
      v = if s.cfg.bigEndian then b0 ++ b1 ++ b2 ++ b3 else b3 ++ b2 ++ b1 ++ b0 := by
  unfold State.word
  cases s.byte a <;> cases s.byte (a + 1#32) <;> cases s.byte (a + 2#32) <;> cases s.byte (a + 3#32) <;> simp [@eq_comm _ v]

/-- A word has no value when one of its bytes has none (R51, R72). -/
theorem State.word_eq_none {s : State} {a : Word} :
    s.word a = none ↔ s.byte a = none ∨ s.byte (a + 1#32) = none ∨ s.byte (a + 2#32) = none ∨
      s.byte (a + 3#32) = none := by
  unfold State.word
  cases s.byte a <;> cases s.byte (a + 1#32) <;> cases s.byte (a + 2#32) <;> cases s.byte (a + 3#32) <;> simp

/-- A halfword has no value when one of its bytes has none (R51, R72). -/
theorem State.half_eq_none {s : State} {a : Word} :
    s.half a = none ↔ s.byte a = none ∨ s.byte (a + 1#32) = none := by
  unfold State.half
  cases s.byte a <;> cases s.byte (a + 1#32) <;> simp

/-! ### `MemAllowed` -/

/-- The entry that denies one access alone. -/
def onlyAccess (a : Word) (size : Nat) (k : Access) (p : Bool) : Region :=
  { lo := a, hi := a, bytes := size == 1, halves := size == 2, words := size == 4
    reads := k == .read, writes := k == .write, fetches := k == .fetch, user := !p, privileged := p }

theorem onlyAccess_denies (a b : Word) (n m : Nat) (k j : Access) (p q : Bool) (hm : m ∈ [1, 2, 4]) :
    Region.denies (onlyAccess a n k p) b m j q = decide (a = b ∧ n = m ∧ k = j ∧ p = q) := by
  have hw : a = b ↔ a.toNat = b.toNat := ⟨congrArg _, BitVec.eq_of_toNat_eq⟩
  have hk : Region.hasKind (onlyAccess a n k p) j = decide (k = j) := by cases k <;> cases j <;> rfl
  have hs : Region.hasSize (onlyAccess a n k p) m = decide (n = m) := by
    fin_cases hm <;> rfl
  have hp : (if q = true then (onlyAccess a n k p).privileged else (onlyAccess a n k p).user) = decide (p = q) := by
    cases p <;> cases q <;> rfl
  rw [Region.denies, hk, hs, hp]
  rw [Bool.eq_iff_iff]
  simp only [onlyAccess, Bool.and_eq_true, decide_eq_true_eq]
  exact ⟨fun h => ⟨hw.2 (Nat.le_antisymm (of_decide_eq_true h.1.2) (of_decide_eq_true h.2)), h.1.1.1.1, h.1.1.1.2, h.1.1.2⟩,
    fun ⟨h, h1, h2, h3⟩ => by subst h; exact ⟨⟨⟨⟨h1, h2⟩, h3⟩, decide_eq_true (Nat.le_refl _)⟩, decide_eq_true (Nat.le_refl _)⟩⟩

/-- `MemAllowed` can be any predicate on the address, size, kind and privilege of an access (R80). -/
theorem memAllowed_complete (allowed : Word → Nat → Access → Bool → Bool) :
    ∃ denied : List Region, ∀ s : State, s.cfg.denied = denied →
      ∀ a, ∀ n ∈ [1, 2, 4], ∀ k p, s.allowed a n k p = allowed a n k p := by
  let all : List (Word × Nat × Access × Bool) := (List.finRange (2 ^ 32)).flatMap fun i =>
    [1, 2, 4].flatMap fun n => [Access.read, .write, .fetch].flatMap fun k =>
      [true, false].map fun p => (BitVec.ofFin i, n, k, p)
  have mem : ∀ a, ∀ n ∈ [1, 2, 4], ∀ k p, (a, n, k, p) ∈ all := by
    intro a n hn k p
    simp only [all, List.mem_flatMap, List.mem_map]
    exact ⟨a.toFin, List.mem_finRange _, n, hn, k, by cases k <;> simp, p, by cases p <;> simp, rfl⟩
  refine ⟨(all.filter fun x => !allowed x.1 x.2.1 x.2.2.1 x.2.2.2).map fun x => onlyAccess x.1 x.2.1 x.2.2.1 x.2.2.2,
    fun s hs a n hn k p => ?_⟩
  rw [State.allowed, hs, Bool.eq_iff_iff, List.all_eq_true]
  simp only [List.forall_mem_map, List.mem_filter, onlyAccess_denies _ _ _ _ _ _ _ _ hn]
  constructor
  · intro h
    by_contra hc
    simpa using h (a, n, k, p) ⟨mem a n hn k p, by simpa using hc⟩
  · rintro h ⟨b, m, j, q⟩ ⟨-, hx⟩
    simp only [Bool.not_eq_true', decide_eq_false_iff_not]
    rintro ⟨rfl, rfl, rfl, rfl⟩
    simp [h] at hx

end Sys2Proof.Machine
end

