-- ==== Sys2Proof/Laws/Registers.lean ====
section
/-! SUPPORT. The general registers: what a write to one leaves in the others, and what stays as it was. -/

namespace Sys2Proof.Machine

theorem physReg_inj (b : Bank) (r q : Reg) (hr : r ≠ 15#4) (hq : q ≠ 15#4) (h : physReg b r = physReg b q) : r = q := by
  obtain ⟨r⟩ := r
  obtain ⟨q⟩ := q
  revert r q
  cases b <;> decide

theorem State.bankReg_congr {s t : State} (h : t.gpr = s.gpr) (b : Bank) (r : Reg) : t.bankReg b r = s.bankReg b r := by
  simp [State.bankReg, h]

theorem State.reg_congr {s t : State} (h : t.gpr = s.gpr) (hp : t.pc = s.pc) (hc : t.cpsr.t = s.cpsr.t)
    (hm : t.cpsr.m = s.cpsr.m) (r : Reg) : t.reg r = s.reg r := by
  simp [State.reg, State.pcRead, State.bankReg, h, hp, hc, hm]

theorem State.setReg_gpr (s : State) (r : Reg) (v : Word) (h : r ≠ 15#4) :
    (s.setReg r v).gpr = s.gpr.set (physReg (bankOf s.cpsr.m) r) v := by
  simp [State.setReg, h]

theorem State.setReg_pcReg (s : State) (v : Word) : s.setReg 15#4 v = s := by simp [State.setReg]

theorem vector_get_set_self {n : Nat} (x : Vector Word n) (i : Fin n) (v : Word) : (x.set i v).get i = v := by
  rw [Vector.get_eq_getElem]
  exact Vector.getElem_set_self _

theorem vector_get_set_ne {n : Nat} (x : Vector Word n) (i j : Fin n) (v : Word) (h : j ≠ i) :
    (x.set i v).get j = x.get j := by
  have hn : (i : Nat) ≠ j := fun e => h (Fin.ext e.symm)
  rw [Vector.get_eq_getElem, Vector.get_eq_getElem]
  exact Vector.getElem_set_ne _ _ hn

theorem State.bankReg_setBankReg_self (s : State) (b : Bank) (r : Reg) (v : Word) :
    (s.setBankReg b r v).bankReg b r = v := vector_get_set_self _ _ _

/-- A write reads back in the same mode. -/
theorem State.reg_setReg_self (s : State) (r : Reg) (v : Word) (h : r ≠ 15#4) : (s.setReg r v).reg r = v := by
  simp [State.reg, h, State.bankReg, State.setReg_gpr s r v h, vector_get_set_self]

/-- A write leaves the other registers of the mode alone, r15 among them. -/
theorem State.reg_setReg_ne (s : State) (r q : Reg) (v : Word) (h : q ≠ r) : (s.setReg r v).reg q = s.reg q := by
  by_cases hr : r = 15#4
  · simp [State.setReg, hr]
  · by_cases hq : q = 15#4
    · simp [State.reg, hq, State.pcRead]
    · have hp : physReg (bankOf s.cpsr.m) q ≠ physReg (bankOf s.cpsr.m) r := fun e => h (physReg_inj _ _ _ hq hr e)
      simp [State.reg, hq, State.bankReg, State.setReg_gpr s r v hr, vector_get_set_ne _ _ _ _ hp]

@[simp] theorem State.reg_setPc (s : State) (a : Word) (r : Reg) (h : r ≠ 15#4) : (s.setPc a).reg r = s.reg r := by
  simp [State.reg, h, State.bankReg]

@[simp] theorem State.reg_setNzcv (s : State) (f : Nzcv) (r : Reg) : (s.setNzcv f).reg r = s.reg r :=
  State.reg_congr rfl rfl rfl rfl r

@[simp] theorem State.reg_setNzcvIf (s : State) (b : Bool) (f : Nzcv) (r : Reg) : (s.setNzcvIf b f).reg r = s.reg r := by
  unfold State.setNzcvIf
  split <;> simp

@[simp] theorem State.reg_setQIf (s : State) (b : Bool) (r : Reg) : (s.setQIf b).reg r = s.reg r :=
  State.reg_congr rfl rfl rfl rfl r

@[simp] theorem State.reg_setAcc (s : State) (v : BitVec 40) (r : Reg) : (s.setAcc v).reg r = s.reg r :=
  State.reg_congr rfl rfl rfl rfl r

@[simp] theorem State.reg_drawn (s : State) (k : Nat) (r : Reg) : (s.drawn k).reg r = s.reg r :=
  State.reg_congr rfl rfl rfl rfl r

@[simp] theorem State.reg_setByte (s : State) (a : Word) (v : Byte) (r : Reg) : (s.setByte a v).reg r = s.reg r :=
  State.reg_congr rfl rfl rfl rfl r

@[simp] theorem State.reg_setHalf (s : State) (a : Word) (v : Half) (r : Reg) : (s.setHalf a v).reg r = s.reg r :=
  State.reg_congr (by simp) (by simp) (by simp) (by simp) r

@[simp] theorem State.reg_setWord (s : State) (a : Word) (v : Word) (r : Reg) : (s.setWord a v).reg r = s.reg r :=
  State.reg_congr (by simp) (by simp) (by simp) (by simp) r

/-! ### What stays as it was -/

theorem State.RegsKept.refl (s : State) (w : List Reg) : s.RegsKept s w := fun _ _ => rfl

theorem State.RegsKept.of_gpr {s t : State} (w : List Reg) (h : t.gpr = s.gpr) : s.RegsKept t w := by
  intro i _
  rw [h]

/-- One more write, to a register of the list, in a state of the same mode. -/
theorem State.RegsKept.setReg {s t : State} {w : List Reg} (h : s.RegsKept t w) (hm : t.cpsr.m = s.cpsr.m) {r : Reg}
    (hr : r ∈ w) (v : Word) : s.RegsKept (t.setReg r v) w := by
  intro i hi
  by_cases h15 : r = 15#4
  · rw [h15, State.setReg_pcReg]
    exact h i hi
  · rw [State.setReg_gpr _ _ _ h15, vector_get_set_ne _ _ _ _ (by rw [hm]; exact hi r hr)]
    exact h i hi

theorem State.RegsKept.congr {s t u : State} {w : List Reg} (h : s.RegsKept t w) (hg : u.gpr = t.gpr) :
    s.RegsKept u w := by
  intro i hi
  rw [hg]
  exact h i hi

theorem State.MemKept.of_mem {s t : State} (h : t.mem = s.mem) : s.MemKept t := fun a => by simp [State.byte, h]

end Sys2Proof.Machine
end

