-- ==== Sys2Proof/Laws/Ops.lean ====
section
/-! SUPPORT. What each shared operation can do, said once: how an instruction's rule ends (`finish`, `ifPassed`,
`always`), the checks (`forbid`, alignment, transfers, access), the moves of the pc, and blocks of words. -/

namespace Sys2Proof.Machine

/-! ### How a rule ends -/

@[simp] theorem State.finish_ok (s t : State) : s.finish (.ok t) = .next t := rfl
@[simp] theorem State.finish_exc (s : State) (e : Exc) : s.finish (.error (.exc e)) = .next (s.takeException e) := rfl
@[simp] theorem State.finish_fault (s : State) (f : Fault) : s.finish (.error (.fault f)) = .fault f := rfl
@[simp] theorem State.finish_refused (s : State) (q : Refusal) : s.finish (.error (.refused q)) = .refused q := rfl
@[simp] theorem State.finish_raise (s : State) (e : Exc) : s.finish (raise e) = .next (s.takeException e) := rfl
@[simp] theorem State.finish_stop (s : State) (f : Fault) : s.finish (stop f) = .fault f := rfl

theorem State.ifPassed_true {s : State} {c : Cond} (h : s.cpsr.passed c = true) (rule : State → Except Trap State) :
    s.ifPassed c rule = s.finish (rule s) := by simp [State.ifPassed, h]

theorem State.ifPassed_false {s : State} {c : Cond} (h : s.cpsr.passed c = false) (rule : State → Except Trap State) :
    s.ifPassed c rule = s.finish s.advance := by simp [State.ifPassed, h]

theorem State.always_eq (s : State) (rule : State → Except Trap State) : s.always rule = s.finish (rule s) := rfl

theorem State.vfpRule_true {s : State} {c : Cond} (h : s.cpsr.passed c = true) (he : s.vfpEnabled = true)
    (rule : State → Except Trap State) : s.vfpRule c rule = s.finish (rule s) := by
  simp [State.vfpRule, State.ifPassed, h, State.needVfp, he, bind, Except.bind]

/-- A rule's next state is that of the rule, or of an exception it raises. -/
theorem State.finish_next {s t : State} {r : Except Trap State} (h : s.finish r = .next t) :
    r = .ok t ∨ ∃ e, r = .error (.exc e) ∧ t = s.takeException e := by
  match r, h with
  | .ok u, h =>
    simp only [State.finish_ok, Host.Outcome.next.injEq] at h
    exact .inl (by rw [h])
  | .error (.exc e), h =>
    simp only [State.finish_exc, Host.Outcome.next.injEq] at h
    exact .inr ⟨e, rfl, h.symm⟩
  | .error (.fault f), h => simp at h
  | .error (.refused q), h => simp at h

/-! ### Sequences of checks -/

@[simp] theorem bind_ok {α β : Type} (x : α) (f : α → Except Trap β) : ((.ok x : Except Trap α) >>= f) = f x := rfl
@[simp] theorem bind_error {α β : Type} (e : Trap) (f : α → Except Trap β) :
    ((.error e : Except Trap α) >>= f) = .error e := rfl
@[simp] theorem pure_eq_ok {α : Type} (x : α) : (pure x : Except Trap α) = .ok x := rfl

theorem bind_eq_ok {α β : Type} {x : Except Trap α} {f : α → Except Trap β} {b : β} (h : (x >>= f) = .ok b) :
    ∃ a, x = .ok a ∧ f a = .ok b := by
  match x, h with
  | .ok a, h => exact ⟨a, rfl, h⟩

@[simp] theorem forbid_true (f : Fault) : forbid true f = .error (.fault f) := rfl
@[simp] theorem forbid_false (f : Fault) : forbid false f = .ok () := rfl

theorem forbid_eq_ok {b : Bool} {f : Fault} {x : Unit} (h : forbid b f = .ok x) : b = false := by
  cases b
  · rfl
  · simp at h

/-- A check that fails faults. -/
theorem forbid_of {b : Bool} (h : b = true) (f : Fault) : forbid b f = .error (.fault f) := by rw [h]; rfl

/-- A check that holds lets the rule go on. -/
theorem forbid_of_not {b : Bool} (h : b = false) (f : Fault) : forbid b f = .ok () := by rw [h]; rfl

@[simp] theorem isPc_pc : isPc 15#4 = true := rfl

theorem isPc_false {r : Reg} (h : r ≠ 15#4) : isPc r = false := by simp [isPc, h]

theorem isPc_eq (r : Reg) : isPc r = decide (r = 15#4) := by simp [isPc, BEq.beq]

/-! ### Alignment (R75) and access (R80) -/

theorem State.checkAligned_ok {s : State} {a mask : Word} (h : a &&& mask = 0#32) : s.checkAligned a mask = .ok () := by
  simp [State.checkAligned, h]

theorem State.checkAligned_abort {s : State} {a mask : Word} (h : a &&& mask ≠ 0#32) (hc : s.cfg.alignCheck = true) :
    s.checkAligned a mask = .error (.exc .dataAbort) := by simp [State.checkAligned, h, hc, raise]

theorem State.checkAligned_fault {s : State} {a mask : Word} (h : a &&& mask ≠ 0#32)
    (hc : s.cfg.alignCheck = false) : s.checkAligned a mask = .error (.fault .misaligned) := by
  simp [State.checkAligned, h, hc, stop]

theorem State.checkAligned_eq_ok {s : State} {a mask : Word} {x : Unit} (h : s.checkAligned a mask = .ok x) :
    a &&& mask = 0#32 := by
  unfold State.checkAligned at h
  split at h
  · assumption
  · split at h <;> simp [raise, stop] at h

theorem State.checkWordAligned_ok {s : State} {a : Word} (h : s.WordAlignOk a) : s.checkWordAligned a = .ok () := by
  rcases h with h | h <;> simp [State.checkWordAligned, h]

theorem State.checkWordAligned_abort {s : State} {a : Word} (h : ¬s.WordAlignOk a) :
    s.checkWordAligned a = .error (.exc .dataAbort) := by
  simp only [State.WordAlignOk, not_or, Bool.not_eq_false] at h
  simp [State.checkWordAligned, h.1, h.2, raise]

theorem State.checkWordAligned_eq_ok {s : State} {a : Word} {x : Unit} (h : s.checkWordAligned a = .ok x) :
    s.WordAlignOk a := by
  unfold State.checkWordAligned at h
  split at h
  · simp [raise] at h
  · rename_i hc
    simp only [Bool.and_eq_true, bne_iff_ne, ne_eq, not_and, not_not] at hc
    by_cases ha : s.cfg.alignCheck = true
    · exact .inr (hc ha)
    · exact .inl (by simpa using ha)

theorem checkTransfer_ok {a : Word} {n : Nat} (h : FitsBelowTop a n) : checkTransfer a n = .ok () :=
  forbid_of_not (by simp only [decide_eq_false_iff_not]; omega) _

theorem checkTransfer_fault {a : Word} {n : Nat} (h : ¬FitsBelowTop a n) :
    checkTransfer a n = .error (.fault .transferWrap) := forbid_of (by simp only [decide_eq_true_eq]; omega) _

theorem checkTransfer_eq_ok {a : Word} {n : Nat} {x : Unit} (h : checkTransfer a n = .ok x) : FitsBelowTop a n := by
  have := forbid_eq_ok h
  simp only [decide_eq_false_iff_not] at this
  exact Nat.not_lt.mp this

@[simp] theorem orUnwritten_some {α : Type} (v : α) : orUnwritten (some v) = .ok v := rfl
@[simp] theorem orUnwritten_none {α : Type} : orUnwritten (none : Option α) = .error (.fault .unwritten) := rfl

theorem orUnwritten_eq_ok {α : Type} {o : Option α} {v : α} (h : orUnwritten o = .ok v) : o = some v := by
  cases o <;> simp_all

theorem State.checkAllowed_ok {s : State} {a : Word} {n : Nat} {k : Access} {p : Bool} (h : s.allowed a n k p = true) :
    s.checkAllowed a n k p = .ok () := if_pos h

theorem State.checkAllowed_abort {s : State} {a : Word} {n : Nat} {k : Access} {p : Bool}
    (h : s.allowed a n k p = false) : s.checkAllowed a n k p = .error (.exc .dataAbort) := by
  simp [State.checkAllowed, h, raise]

theorem State.checkAllowed_eq_ok {s : State} {a : Word} {n : Nat} {k : Access} {p : Bool} {x : Unit}
    (h : s.checkAllowed a n k p = .ok x) : s.allowed a n k p = true := by
  unfold State.checkAllowed at h
  split at h
  · assumption
  · simp [raise] at h

theorem State.readByte_ok {s : State} {a : Word} {p : Bool} {v : Byte} (h : s.allowed a 1 .read p = true)
    (hv : s.byte a = some v) : s.readByte a p = .ok v := by simp [State.readByte, State.checkAllowed_ok h, hv]
theorem State.readHalf_ok {s : State} {a : Word} {p : Bool} {v : Half} (h : s.allowed a 2 .read p = true)
    (hv : s.half a = some v) : s.readHalf a p = .ok v := by simp [State.readHalf, State.checkAllowed_ok h, hv]
theorem State.readWord_ok {s : State} {a : Word} {p : Bool} {v : Word} (h : s.allowed a 4 .read p = true)
    (hv : s.word a = some v) : s.readWord a p = .ok v := by simp [State.readWord, State.checkAllowed_ok h, hv]
theorem State.readByte_unwritten {s : State} {a : Word} {p : Bool} (h : s.allowed a 1 .read p = true)
    (hv : s.byte a = none) : s.readByte a p = .error (.fault .unwritten) := by
  simp [State.readByte, State.checkAllowed_ok h, hv]
theorem State.readHalf_unwritten {s : State} {a : Word} {p : Bool} (h : s.allowed a 2 .read p = true)
    (hv : s.half a = none) : s.readHalf a p = .error (.fault .unwritten) := by
  simp [State.readHalf, State.checkAllowed_ok h, hv]
theorem State.readWord_unwritten {s : State} {a : Word} {p : Bool} (h : s.allowed a 4 .read p = true)
    (hv : s.word a = none) : s.readWord a p = .error (.fault .unwritten) := by
  simp [State.readWord, State.checkAllowed_ok h, hv]
theorem State.writeByte_ok {s : State} {a : Word} {v : Byte} {p : Bool} (h : s.allowed a 1 .write p = true) :
    s.writeByte a v p = .ok (s.setByte a v) := by simp [State.writeByte, h]
theorem State.writeHalf_ok {s : State} {a : Word} {v : Half} {p : Bool} (h : s.allowed a 2 .write p = true) :
    s.writeHalf a v p = .ok (s.setHalf a v) := by simp [State.writeHalf, h]
theorem State.writeWord_ok {s : State} {a : Word} {v : Word} {p : Bool} (h : s.allowed a 4 .write p = true) :
    s.writeWord a v p = .ok (s.setWord a v) := by simp [State.writeWord, h]

theorem State.readByte_abort {s : State} {a : Word} {p : Bool} (h : s.allowed a 1 .read p = false) :
    s.readByte a p = .error (.exc .dataAbort) := by simp [State.readByte, State.checkAllowed_abort h]
theorem State.readHalf_abort {s : State} {a : Word} {p : Bool} (h : s.allowed a 2 .read p = false) :
    s.readHalf a p = .error (.exc .dataAbort) := by simp [State.readHalf, State.checkAllowed_abort h]
theorem State.readWord_abort {s : State} {a : Word} {p : Bool} (h : s.allowed a 4 .read p = false) :
    s.readWord a p = .error (.exc .dataAbort) := by simp [State.readWord, State.checkAllowed_abort h]
theorem State.writeByte_abort {s : State} {a : Word} {v : Byte} {p : Bool} (h : s.allowed a 1 .write p = false) :
    s.writeByte a v p = .error (.exc .dataAbort) := by simp [State.writeByte, h, raise]
theorem State.writeHalf_abort {s : State} {a : Word} {v : Half} {p : Bool} (h : s.allowed a 2 .write p = false) :
    s.writeHalf a v p = .error (.exc .dataAbort) := by simp [State.writeHalf, h, raise]
theorem State.writeWord_abort {s : State} {a : Word} {v : Word} {p : Bool} (h : s.allowed a 4 .write p = false) :
    s.writeWord a v p = .error (.exc .dataAbort) := by simp [State.writeWord, h, raise]

theorem State.readByte_eq_ok {s : State} {a : Word} {p : Bool} {v : Byte} (h : s.readByte a p = .ok v) :
    s.allowed a 1 .read p = true ∧ s.byte a = some v := by
  obtain ⟨_, hc, h⟩ := bind_eq_ok h
  exact ⟨State.checkAllowed_eq_ok hc, orUnwritten_eq_ok h⟩

theorem State.readHalf_eq_ok {s : State} {a : Word} {p : Bool} {v : Half} (h : s.readHalf a p = .ok v) :
    s.allowed a 2 .read p = true ∧ s.half a = some v := by
  obtain ⟨_, hc, h⟩ := bind_eq_ok h
  exact ⟨State.checkAllowed_eq_ok hc, orUnwritten_eq_ok h⟩

theorem State.readWord_eq_ok {s : State} {a : Word} {p : Bool} {v : Word} (h : s.readWord a p = .ok v) :
    s.allowed a 4 .read p = true ∧ s.word a = some v := by
  obtain ⟨_, hc, h⟩ := bind_eq_ok h
  exact ⟨State.checkAllowed_eq_ok hc, orUnwritten_eq_ok h⟩

theorem State.writeByte_eq_ok {s t : State} {a : Word} {p : Bool} {v : Byte} (h : s.writeByte a v p = .ok t) :
    s.allowed a 1 .write p = true ∧ t = s.setByte a v := by
  unfold State.writeByte at h
  split at h
  · exact ⟨‹_›, by simpa using h.symm⟩
  · simp [raise] at h

theorem State.writeHalf_eq_ok {s t : State} {a : Word} {p : Bool} {v : Half} (h : s.writeHalf a v p = .ok t) :
    s.allowed a 2 .write p = true ∧ t = s.setHalf a v := by
  unfold State.writeHalf at h
  split at h
  · exact ⟨‹_›, by simpa using h.symm⟩
  · simp [raise] at h

theorem State.writeWord_eq_ok {s t : State} {a : Word} {p : Bool} {v : Word} (h : s.writeWord a v p = .ok t) :
    s.allowed a 4 .write p = true ∧ t = s.setWord a v := by
  unfold State.writeWord at h
  split at h
  · exact ⟨‹_›, by simpa using h.symm⟩
  · simp [raise] at h

/-! ### The pc -/

/-- Where execution can go on, the pc does. -/
theorem State.advance_ok {s : State} (h : s.CanGoOn) : s.advance = .ok (s.setPc s.next) := by
  rw [State.advance, if_neg h]

/-- The last instruction of the address space has no next one (R29). -/
theorem State.advance_fault {s : State} (h : ¬s.CanGoOn) : s.advance = .error (.fault .pcWrap) := by
  rw [State.advance, if_pos (not_not.mp h), stop]

theorem State.advance_eq_ok {s t : State} (h : s.advance = .ok t) : s.CanGoOn ∧ t = s.setPc s.next := by
  by_cases hc : s.CanGoOn
  · rw [State.advance_ok hc] at h
    exact ⟨hc, by simpa using h.symm⟩
  · rw [State.advance_fault hc] at h
    simp at h

/-- `advance` of an updated state, where the pc and T are as before. -/
theorem State.advance_of {s t : State} (hp : t.pc = s.pc) (ht : t.cpsr.t = s.cpsr.t) (h : s.CanGoOn) :
    t.advance = .ok (t.setPc s.next) := by
  have hs : t.size = s.size := by simp [State.size, ht]
  have hn : t.next = s.next := by simp [State.next, hp, hs]
  rw [State.advance_ok (by simpa [State.CanGoOn, hp, hs] using h), hn]

theorem State.advance_of_fault {s t : State} (hp : t.pc = s.pc) (ht : t.cpsr.t = s.cpsr.t) (h : ¬s.CanGoOn) :
    t.advance = .error (.fault .pcWrap) := by
  have hs : t.size = s.size := by simp [State.size, ht]
  exact State.advance_fault (by simpa [State.CanGoOn, hp, hs] using h)

theorem Arch.atLeast4_eq (a : Arch) : a.atLeast4 = decide (a.version ≠ .v3) := by
  unfold Arch.atLeast4
  cases a.version <;> rfl

theorem Arch.atLeast5_eq (a : Arch) : a.atLeast5 = decide (a.version = .v5) := by
  unfold Arch.atLeast5
  cases a.version <;> rfl

/-- A write of r15 without S (R272(a)). -/
theorem State.finish_writePc (s t : State) (v : Word) : t.finish (s.writePc v) = s.pcWritten v := by
  unfold State.writePc State.pcWritten
  simp only [Arch.atLeast4_eq]
  by_cases hv : s.cfg.arch.version = .v3
  · simp [hv]
  · by_cases h3 : v &&& 3#32 = 0#32 <;> simp [hv, h3, stop]

/-- An interworking branch (R332). -/
theorem State.finish_branchExchange (s t : State) (v : Word) : t.finish (s.branchExchange v) = s.interworked v := by
  unfold State.branchExchange State.interworked
  split
  · split <;> simp_all [stop]
  · split <;> simp_all [stop]

/-- A load of r15 (R232): what `loadTarget` says. -/
theorem State.loadPc_eq (s : State) (v : Word) :
    s.loadPc v = match s.loadTarget v with
      | none => .error (.fault .pcTarget)
      | some (b, a) => .ok ((s.setThumb b).setPc a) := by
  have hb : s.setThumb s.cpsr.t = s := rfl
  unfold State.loadPc State.loadTarget State.writePc Arch.hasT5
  simp only [Arch.atLeast4_eq, Arch.atLeast5_eq]
  cases hv : s.cfg.arch.version <;> cases ht : s.cfg.arch.thumb <;> simp [stop, hb] <;> split <;> simp_all

/-! ### Blocks of words (R71, R83) -/

theorem word_step (a : Word) (j : Nat) : a + 4#32 + BitVec.ofNat 32 (4 * j) = a + BitVec.ofNat 32 (4 * (j + 1)) := by
  rw [Nat.mul_succ, Nat.add_comm (4 * j) 4, BitVec.ofNat_add, ← BitVec.add_assoc]

theorem State.BlockWritten.tail {s : State} {a : Word} {n : Nat} (h : s.BlockWritten a (n + 1)) :
    s.BlockWritten (a + 4#32) n := by
  intro j hj
  rw [word_step]
  exact h (j + 1) (by omega)

/-- A block that has been written has its words. -/
theorem State.words_of {s : State} {n : Nat} {a : Word} (h : s.BlockWritten a n) :
    ∃ vs, s.words n a = some vs ∧ vs.length = n ∧
      ∀ j < n, ∃ v, vs[j]? = some v ∧ s.word (a + BitVec.ofNat 32 (4 * j)) = some v := by
  induction n generalizing a with
  | zero => exact ⟨[], rfl, rfl, fun j hj => absurd hj (Nat.not_lt_zero j)⟩
  | succ n ih =>
    obtain ⟨vs, hs, hl, hv⟩ := ih h.tail
    obtain ⟨v, h0⟩ := Option.ne_none_iff_exists'.mp (by simpa using h 0 (by omega) : s.word a ≠ none)
    refine ⟨v :: vs, by simp [State.words, h0, hs], by simp [hl], fun j hj => ?_⟩
    cases j with
    | zero => exact ⟨v, rfl, by simpa using h0⟩
    | succ j =>
      obtain ⟨w, h1, h2⟩ := hv j (by omega)
      exact ⟨w, by simpa using h1, by rw [← word_step]; exact h2⟩

/-- A block with a word that nothing has written has no words. -/
theorem State.words_none {s : State} {n : Nat} {a : Word} (h : ¬s.BlockWritten a n) : s.words n a = none := by
  induction n generalizing a with
  | zero => exact absurd (fun j hj => absurd hj (Nat.not_lt_zero j)) h
  | succ n ih =>
    cases h0 : s.word a with
    | none => simp [State.words, h0]
    | some v =>
      have ht : ¬s.BlockWritten (a + 4#32) n := by
        intro hb
        refine h fun j hj => ?_
        cases j with
        | zero => simp [h0]
        | succ j =>
          rw [← word_step]
          exact hb j (by omega)
      simp [State.words, ih ht]

theorem State.words_length {s : State} {n : Nat} {a : Word} {vs : List Word} (h : s.words n a = some vs) :
    vs.length = n := by
  induction n generalizing a vs with
  | zero =>
    simp only [State.words, Option.some.injEq] at h
    simp [← h]
  | succ n ih =>
    simp only [State.words, Option.pure_def, Option.bind_eq_bind, Option.bind_eq_some_iff, Option.some.injEq] at h
    obtain ⟨v, -, ws, hw, rfl⟩ := h
    simp [ih hw]

theorem State.BlockAllowed.tail {s : State} {a : Word} {n : Nat} {k : Access} (h : s.BlockAllowed a (n + 1) k) :
    s.BlockAllowed (a + 4#32) n k := by
  intro j hj
  rw [word_step]
  exact h (j + 1) (by omega)

theorem State.BlockAllowed.head {s : State} {a : Word} {n : Nat} {k : Access} (h : s.BlockAllowed a (n + 1) k) :
    s.allowed a 4 k s.privileged = true := by simpa using h 0 (by omega)

theorem State.checkReads_ok {s : State} {n : Nat} {a : Word} (h : s.BlockAllowed a n .read) :
    s.checkReads s.privileged n a = .ok () := by
  induction n generalizing a with
  | zero => rfl
  | succ n ih => simp [State.checkReads, State.checkAllowed_ok h.head, ih h.tail]

theorem State.checkReads_abort {s : State} {n : Nat} {a : Word} (h : ¬s.BlockAllowed a n .read) :
    s.checkReads s.privileged n a = .error (.exc .dataAbort) := by
  induction n generalizing a with
  | zero => exact absurd (fun j hj => absurd hj (by omega)) h
  | succ n ih =>
    by_cases h0 : s.allowed a 4 .read s.privileged = true
    · have ht : ¬s.BlockAllowed (a + 4#32) n .read := by
        intro hb
        refine h fun j hj => ?_
        cases j with
        | zero => simpa using h0
        | succ j =>
          rw [← word_step]
          exact hb j (by omega)
      simp [State.checkReads, State.checkAllowed_ok h0, ih ht]
    · simp [State.checkReads, State.checkAllowed_abort (by simpa using h0)]

/-- A block that the memory system allows and that has been written is read whole. -/
theorem State.readWords_ok {s : State} {n : Nat} {a : Word} (h : s.BlockAllowed a n .read) (hw : s.BlockWritten a n) :
    ∃ vs, s.readWords s.privileged n a = .ok vs ∧ vs.length = n ∧
      ∀ j < n, ∃ v, vs[j]? = some v ∧ s.word (a + BitVec.ofNat 32 (4 * j)) = some v := by
  obtain ⟨vs, hs, hl, hv⟩ := State.words_of hw
  exact ⟨vs, by simp [State.readWords, State.checkReads_ok h, hs], hl, hv⟩

/-- A block of which one word is refused raises a Data Abort. -/
theorem State.readWords_abort {s : State} {n : Nat} {a : Word} (h : ¬s.BlockAllowed a n .read) :
    s.readWords s.privileged n a = .error (.exc .dataAbort) := by simp [State.readWords, State.checkReads_abort h]

/-- A block that is allowed but holds a word that nothing has written faults (R51, R860). -/
theorem State.readWords_unwritten {s : State} {n : Nat} {a : Word} (h : s.BlockAllowed a n .read)
    (hw : ¬s.BlockWritten a n) : s.readWords s.privileged n a = .error (.fault .unwritten) := by
  simp [State.readWords, State.checkReads_ok h, State.words_none hw]

theorem State.readWords_eq_ok {s : State} {p : Bool} {n : Nat} {a : Word} {vs : List Word}
    (h : s.readWords p n a = .ok vs) : s.words n a = some vs ∧ vs.length = n := by
  obtain ⟨_, -, h⟩ := bind_eq_ok h
  exact ⟨orUnwritten_eq_ok h, State.words_length (orUnwritten_eq_ok h)⟩

/-- A double word whose two words are allowed and written is read as them (R71). -/
theorem State.readPair_ok {s : State} {a v w : Word} (h0 : s.allowed a 4 .read s.privileged = true)
    (h1 : s.allowed (a + 4#32) 4 .read s.privileged = true) (hv : s.word a = some v)
    (hw : s.word (a + 4#32) = some w) : s.readPair s.privileged a = .ok (v, w) := by
  simp [State.readPair, State.checkReads, State.checkAllowed_ok h0, State.checkAllowed_ok h1, hv, hw]

theorem State.readPair_abort {s : State} {a : Word} (h : s.allowed a 4 .read s.privileged = false ∨
    s.allowed (a + 4#32) 4 .read s.privileged = false) : s.readPair s.privileged a = .error (.exc .dataAbort) := by
  cases h0 : s.allowed a 4 .read s.privileged
  · simp [State.readPair, State.checkReads, State.checkAllowed_abort h0]
  · have h1 : s.allowed (a + 4#32) 4 .read s.privileged = false := by simpa [h0] using h
    simp [State.readPair, State.checkReads, State.checkAllowed_ok h0, State.checkAllowed_abort h1]

theorem State.readPair_unwritten {s : State} {a : Word} (h0 : s.allowed a 4 .read s.privileged = true)
    (h1 : s.allowed (a + 4#32) 4 .read s.privileged = true) (h : s.word a = none ∨ s.word (a + 4#32) = none) :
    s.readPair s.privileged a = .error (.fault .unwritten) := by
  cases hv : s.word a <;>
    simp_all [State.readPair, State.checkReads, State.checkAllowed_ok]

/-- The state after words are written at `a`, `a + 4`, ... -/
def State.setWords (s : State) : List Word → Word → State
  | [], _ => s
  | v :: vs, a => (s.setWord a v).setWords vs (a + 4#32)

theorem State.writeWords_ok {s : State} {vs : List Word} {a : Word} {p : Bool}
    (h : ∀ j < vs.length, s.allowed (a + BitVec.ofNat 32 (4 * j)) 4 .write p = true) :
    s.writeWords p vs a = .ok (s.setWords vs a) := by
  induction vs generalizing s a with
  | nil => rfl
  | cons v vs ih =>
    have h0 : s.allowed a 4 .write p = true := by simpa using h 0 (by simp)
    simp only [State.writeWords, State.writeWord_ok h0, bind_ok, State.setWords]
    refine ih fun j hj => ?_
    rw [word_step]
    simpa [State.allowed] using h (j + 1) (by simpa using hj)

theorem State.writeWords_abort {s : State} {vs : List Word} {a : Word} {p : Bool}
    (h : ¬∀ j < vs.length, s.allowed (a + BitVec.ofNat 32 (4 * j)) 4 .write p = true) :
    s.writeWords p vs a = .error (.exc .dataAbort) := by
  induction vs generalizing s a with
  | nil => exact absurd (fun j hj => absurd hj (by simp)) h
  | cons v vs ih =>
    by_cases h0 : s.allowed a 4 .write p = true
    · simp only [State.writeWords, State.writeWord_ok h0, bind_ok]
      refine ih fun hb => h fun j hj => ?_
      cases j with
      | zero => simpa using h0
      | succ j =>
        rw [← word_step]
        simpa [State.allowed] using hb j (by simpa using hj)
    · simp [State.writeWords, State.writeWord_abort (by simpa using h0)]

theorem State.writeWords_eq_ok {s t : State} {p : Bool} {vs : List Word} {a : Word}
    (h : s.writeWords p vs a = .ok t) : t = s.setWords vs a := by
  induction vs generalizing s a with
  | nil =>
    simp only [State.writeWords, Except.ok.injEq] at h
    simp [← h, State.setWords]
  | cons v vs ih =>
    obtain ⟨u, hu, h⟩ := bind_eq_ok h
    obtain ⟨-, rfl⟩ := State.writeWord_eq_ok hu
    exact ih h

end Sys2Proof.Machine
end

