-- ==== Sys2Proof/Laws/Frames.lean ====
section
/-! SUPPORT. What each update leaves as it was, in the words of the statements: `special`, `GoesOn` and the like, and the
ends of the instructions that share them. -/

namespace Sys2Proof.Machine

/-! ### `special` -/

@[simp] theorem State.special_setPc (s : State) (a : Word) : (s.setPc a).special = s.special := rfl
@[simp] theorem State.special_setNzcv (s : State) (f : Nzcv) : (s.setNzcv f).special = s.special := rfl
@[simp] theorem State.special_setByte (s : State) (a : Word) (v : Byte) : (s.setByte a v).special = s.special := rfl
@[simp] theorem State.special_setBankReg (s : State) (b : Bank) (r : Reg) (v : Word) :
    (s.setBankReg b r v).special = s.special := rfl

@[simp] theorem State.special_setNzcvIf (s : State) (b : Bool) (f : Nzcv) :
    (s.setNzcvIf b f).special = s.special := by cases b <;> rfl
@[simp] theorem State.special_setReg (s : State) (r : Reg) (v : Word) : (s.setReg r v).special = s.special := by
  unfold State.setReg
  split <;> rfl
@[simp] theorem State.special_setUserReg (s : State) (r : Reg) (v : Word) :
    (s.setUserReg r v).special = s.special := by
  unfold State.setUserReg
  split <;> rfl
@[simp] theorem State.special_setHalf (s : State) (a : Word) (v : Half) : (s.setHalf a v).special = s.special := by
  unfold State.setHalf
  split <;> simp only [State.special_setByte]
@[simp] theorem State.special_setWord (s : State) (a : Word) (v : Word) : (s.setWord a v).special = s.special := by
  unfold State.setWord
  split <;> simp only [State.special_setByte]
@[simp] theorem State.special_drawn (s : State) (k : Nat) :
    (s.drawn k).special = { s.special with draws := s.draws + k } := rfl

@[simp] theorem State.nzcv_setNzcv (s : State) (f : Nzcv) : (s.setNzcv f).cpsr.nzcv = f := rfl
@[simp] theorem State.nzcv_setNzcvIf (s : State) (b : Bool) (f : Nzcv) :
    (s.setNzcvIf b f).cpsr.nzcv = if b then f else s.cpsr.nzcv := by cases b <;> rfl

@[simp] theorem State.setNzcvIf_cpsr_q (s : State) (b : Bool) (g : Nzcv) : (s.setNzcvIf b g).cpsr.q = s.cpsr.q := by
  cases b <;> rfl
@[simp] theorem State.setNzcvIf_cpsr_i (s : State) (b : Bool) (g : Nzcv) : (s.setNzcvIf b g).cpsr.i = s.cpsr.i := by
  cases b <;> rfl
@[simp] theorem State.setNzcvIf_cpsr_f (s : State) (b : Bool) (g : Nzcv) : (s.setNzcvIf b g).cpsr.f = s.cpsr.f := by
  cases b <;> rfl
@[simp] theorem State.setNzcvIf_cpsr_t (s : State) (b : Bool) (g : Nzcv) : (s.setNzcvIf b g).cpsr.t = s.cpsr.t := by
  cases b <;> rfl
@[simp] theorem State.setNzcvIf_cpsr_m (s : State) (b : Bool) (g : Nzcv) : (s.setNzcvIf b g).cpsr.m = s.cpsr.m := by
  cases b <;> rfl

/-! ### Blocks of registers and of words -/

theorem State.setWord_frame (s : State) (a v : Word) : s.setWord a v = { s with mem := (s.setWord a v).mem } := by
  unfold State.setWord
  split <;> simp only [State.setByte]

theorem State.setWords_frame (s : State) (vs : List Word) (a : Word) :
    s.setWords vs a = { s with mem := (s.setWords vs a).mem } := by
  induction vs generalizing s a with
  | nil => rfl
  | cons v vs ih =>
    rw [State.setWords, ih, State.setWord_frame]

@[simp] theorem State.setWords_gpr (s : State) (vs : List Word) (a : Word) : (s.setWords vs a).gpr = s.gpr := by
  rw [State.setWords_frame]
@[simp] theorem State.setWords_pc (s : State) (vs : List Word) (a : Word) : (s.setWords vs a).pc = s.pc := by
  rw [State.setWords_frame]
@[simp] theorem State.setWords_cpsr (s : State) (vs : List Word) (a : Word) : (s.setWords vs a).cpsr = s.cpsr := by
  rw [State.setWords_frame]
@[simp] theorem State.setWords_cfg (s : State) (vs : List Word) (a : Word) : (s.setWords vs a).cfg = s.cfg := by
  rw [State.setWords_frame]
@[simp] theorem State.setWords_vfp (s : State) (vs : List Word) (a : Word) : (s.setWords vs a).vfp = s.vfp := by
  rw [State.setWords_frame]
@[simp] theorem State.setWords_draws (s : State) (vs : List Word) (a : Word) : (s.setWords vs a).draws = s.draws := by
  rw [State.setWords_frame]
@[simp] theorem State.special_setWords (s : State) (vs : List Word) (a : Word) :
    (s.setWords vs a).special = s.special := by
  rw [State.setWords_frame]
  rfl
@[simp] theorem State.reg_setWords (s : State) (vs : List Word) (a : Word) (r : Reg) :
    (s.setWords vs a).reg r = s.reg r := State.reg_congr (by simp) (by simp) (by simp) (by simp) r

theorem State.setWords_wf (s : State) (vs : List Word) (a : Word) (h : s.mem.wf = true) :
    (s.setWords vs a).mem.wf = true := by
  induction vs generalizing s a with
  | nil => exact h
  | cons v vs ih => exact ih _ _ (State.setWord_wf s a v h)

theorem State.word_congr {s t : State} (hm : t.mem = s.mem) (hc : t.cfg = s.cfg) (a : Word) : t.word a = s.word a := by
  simp [State.word, State.byte, hm, hc]

theorem State.half_congr {s t : State} (hm : t.mem = s.mem) (hc : t.cfg = s.cfg) (a : Word) : t.half a = s.half a := by
  simp [State.half, State.byte, hm, hc]

/-- Bytes outside a block of words stay, if the block does not pass the top of the address space. -/
theorem State.byte_setWords_outside (s : State) (vs : List Word) (a b : Word) (hf : FitsBelowTop a vs.length)
    (h : 4 * vs.length ≤ (b - a).toNat) : (s.setWords vs a).byte b = s.byte b := by
  induction vs generalizing s a with
  | nil => rfl
  | cons v vs ih =>
    simp only [List.length_cons] at hf h
    rw [State.setWords]
    by_cases hv : vs.length = 0
    · rw [List.length_eq_zero_iff.mp hv]
      exact State.byte_setWord_outside s a b v (by omega)
    · rw [ih (s.setWord a v) (a + 4#32)]
      · exact State.byte_setWord_outside s a b v (by omega)
      · unfold FitsBelowTop at hf ⊢
        have : (a + 4#32).toNat = a.toNat + 4 := by bv_omega
        omega
      · have : b - (a + 4#32) = b - a - 4#32 := by bv_omega
        rw [this]
        have := (b - a).isLt
        bv_omega

/-- A word outside the written block stays. -/
theorem State.word_setWords_below (s : State) (vs : List Word) (a : Word) (hf : FitsBelowTop a (vs.length + 1)) :
    (s.setWords vs (a + 4#32)).word a = s.word a := by
  by_cases hv : vs.length = 0
  · rw [List.length_eq_zero_iff.mp hv]
    rfl
  have ha : (a + 4#32).toNat = a.toNat + 4 := by
    unfold FitsBelowTop at hf
    bv_omega
  have hb : ∀ k : Word, k.toNat < 4 → (s.setWords vs (a + 4#32)).byte (a + k) = s.byte (a + k) := by
    intro k hk
    refine State.byte_setWords_outside s vs _ _ ?_ ?_
    · unfold FitsBelowTop at hf ⊢
      omega
    · have : a + k - (a + 4#32) = k - 4#32 := by bv_omega
      rw [this]
      unfold FitsBelowTop at hf
      have := a.isLt
      bv_omega
  have h0 := hb 0#32 (by decide)
  simp only [BitVec.add_zero] at h0
  simp only [State.word, State.setWords_cfg, h0, hb 1#32 (by decide), hb 2#32 (by decide), hb 3#32 (by decide)]

/-- The words of a block read back. -/
theorem State.wordsAt_setWords (s : State) (vs : List Word) (a : Word) (hf : FitsBelowTop a vs.length) :
    (s.setWords vs a).WordsAt a vs := by
  induction vs generalizing s a with
  | nil =>
    intro j v h
    simp at h
  | cons v vs ih =>
    intro j x h
    cases j with
    | zero =>
      simp only [List.getElem?_cons_zero, Option.some.injEq] at h
      subst h
      rw [Nat.mul_zero, BitVec.add_zero, State.setWords, State.word_setWords_below _ _ _ hf, State.word_setWord]
    | succ j =>
      rw [List.getElem?_cons_succ] at h
      rw [State.setWords, ← word_step]
      have hl : 0 < vs.length := by
        by_contra hc
        have hn : vs = [] := List.length_eq_zero_iff.mp (by omega)
        simp [hn] at h
      refine ih _ (a + 4#32) ?_ j x h
      unfold FitsBelowTop at hf ⊢
      simp only [List.length_cons] at hf
      have : (a + 4#32).toNat = a.toNat + 4 := by bv_omega
      omega

theorem State.setRegs_frame (s : State) (rs : List Reg) (vs : List Word) :
    s.setRegs rs vs = { s with gpr := (s.setRegs rs vs).gpr } := by
  induction rs generalizing s vs with
  | nil => rfl
  | cons r rs ih =>
    cases vs with
    | nil => rfl
    | cons v vs =>
      rw [State.setRegs, ih]
      unfold State.setReg
      split <;> rfl

theorem State.setUserRegs_frame (s : State) (rs : List Reg) (vs : List Word) :
    s.setUserRegs rs vs = { s with gpr := (s.setUserRegs rs vs).gpr } := by
  induction rs generalizing s vs with
  | nil => rfl
  | cons r rs ih =>
    cases vs with
    | nil => rfl
    | cons v vs =>
      rw [State.setUserRegs, ih]
      unfold State.setUserReg
      split <;> rfl

@[simp] theorem State.special_setRegs (s : State) (rs : List Reg) (vs : List Word) :
    (s.setRegs rs vs).special = s.special := by
  rw [State.setRegs_frame]
  rfl

/-- A register that is not in the list is not written. -/
theorem State.reg_setRegs_notMem (s : State) (rs : List Reg) (vs : List Word) (q : Reg) (h : q ∉ rs) :
    (s.setRegs rs vs).reg q = s.reg q := by
  induction rs generalizing s vs with
  | nil => rfl
  | cons r rs ih =>
    simp only [List.mem_cons, not_or] at h
    cases vs with
    | nil => rfl
    | cons v vs => rw [State.setRegs, ih _ _ h.2, State.reg_setReg_ne _ _ _ _ h.1]

/-- The registers of a list take the values in order. -/
theorem State.reg_setRegs (s : State) (rs : List Reg) (vs : List Word) (hn : rs.Nodup) (j : Nat) (r : Reg) (v : Word)
    (hr : rs[j]? = some r) (hv : vs[j]? = some v) (h15 : r ≠ 15#4) : (s.setRegs rs vs).reg r = v := by
  induction rs generalizing s vs j with
  | nil => simp at hr
  | cons q rs ih =>
    rw [List.nodup_cons] at hn
    cases vs with
    | nil => simp at hv
    | cons w vs =>
      rw [State.setRegs]
      cases j with
      | zero =>
        simp only [List.getElem?_cons_zero, Option.some.injEq] at hr hv
        subst hr hv
        rw [State.reg_setRegs_notMem _ _ _ _ hn.1, State.reg_setReg_self _ _ _ h15]
      | succ j =>
        rw [List.getElem?_cons_succ] at hr hv
        exact ih _ _ hn.2 j hr hv

theorem State.regsKept_setRegs {s t : State} {w : List Reg} (h : s.RegsKept t w) (hm : t.cpsr.m = s.cpsr.m)
    (rs : List Reg) (vs : List Word) (hw : ∀ r ∈ rs, r ≠ 15#4 → r ∈ w) : s.RegsKept (t.setRegs rs vs) w := by
  induction rs generalizing t vs with
  | nil => exact h
  | cons r rs ih =>
    cases vs with
    | nil => exact h
    | cons v vs =>
      rw [State.setRegs]
      have hr : ∀ q ∈ rs, q ≠ 15#4 → q ∈ w := fun q hq => hw q (List.mem_cons_of_mem _ hq)
      by_cases h15 : r = 15#4
      · rw [h15, State.setReg_pcReg]
        exact ih h hm vs hr
      · refine ih (h.setReg hm (hw r (by simp) h15) v) ?_ vs hr
        simpa using hm

/-! ### Ends of instructions -/

/-- A result in a register, the flags changed or not (R273). -/
theorem State.writeResult_ok {s : State} {rd : Reg} (h : rd ≠ 15#4) (hg : s.CanGoOn) (b : Bool) (v : Word) (f : Nzcv) :
    s.writeResult b rd v f = .ok (((s.setReg rd v).setNzcvIf b f).setPc s.next) := by
  rw [State.writeResult, if_neg h]
  exact State.advance_of (by simp) (by simp) hg

theorem State.writeResult_fault {s : State} {rd : Reg} (h : rd ≠ 15#4) (hg : ¬s.CanGoOn) (b : Bool) (v : Word)
    (f : Nzcv) : s.writeResult b rd v f = .error (.fault .pcWrap) := by
  rw [State.writeResult, if_neg h]
  exact State.advance_of_fault (by simp) (by simp) hg

/-- A state that differs in one register, the flags and the pc alone. -/
theorem State.goesOn_writeReg (s : State) (rd : Reg) (b : Bool) (v : Word) (f : Nzcv) :
    s.GoesOn (((s.setReg rd v).setNzcvIf b f).setPc s.next) [rd] :=
  ⟨rfl, ((State.RegsKept.refl s [rd]).setReg (r := rd) rfl (by simp) v).congr (by simp), State.MemKept.of_mem (by simp), by simp⟩

/-- A rule that ends so writes a register. -/
theorem writesReg_of {i : Instr} {s : State} {rd : Reg} {v : Word} {f : Nzcv} (b : Bool) (h : rd ≠ 15#4)
    (he : exec i s = .next (((s.setReg rd v).setNzcvIf b f).setPc s.next)) :
    WritesReg i s rd v (if b then f else s.cpsr.nzcv) :=
  ⟨_, he, by rw [State.reg_setPc _ _ _ h, State.reg_setNzcvIf, State.reg_setReg_self _ _ _ h], by simp,
    State.goesOn_writeReg s rd b v f⟩

/-- A rule that ends so writes the flags alone. -/
theorem writesFlags_of {i : Instr} {s : State} {f : Nzcv} (he : exec i s = .next ((s.setNzcv f).setPc s.next)) :
    WritesFlags i s f :=
  ⟨_, he, rfl, rfl, State.RegsKept.of_gpr _ rfl, State.MemKept.of_mem rfl, rfl⟩

/-- A rule that ends so writes a register and keeps the flags. -/
theorem writesReg_of_plain {i : Instr} {s : State} {rd : Reg} {v : Word} (h : rd ≠ 15#4)
    (he : exec i s = .next ((s.setReg rd v).setPc s.next)) : WritesReg i s rd v s.cpsr.nzcv :=
  writesReg_of (f := s.cpsr.nzcv) false h he

/-- An exception return answers what `returnTo` says where that is a next state, and faults elsewhere. -/
theorem State.finish_exceptionReturn (s t : State) (v : Word) :
    ((∃ u, s.returnTo v = .next u) → t.finish (s.exceptionReturn v) = s.returnTo v) ∧
      ((¬∃ u, s.returnTo v = .next u) → ∃ f, t.finish (s.exceptionReturn v) = .fault f) := by
  unfold State.exceptionReturn State.returnTo State.hasSpsr
  by_cases h1 : s.cpsr.m = modeUser
  · simp [h1]
  by_cases h2 : s.cpsr.m = modeSystem
  · simp [h2]
  have h1' : (s.cpsr.m != modeUser) = true := by simpa using h1
  have h2' : (s.cpsr.m != modeSystem) = true := by simpa using h2
  by_cases h3 : modeLegal s.cfg.arch s.spsr.m = false
  · simp [h1, h2, h1', h2', h3]
  have h3 : modeLegal s.cfg.arch s.spsr.m = true := by simpa using h3
  cases h4 : s.spsr.t
  · simp [h1, h2, h1', h2', h3, h4]
  · cases s.cfg.arch.thumb <;> simp [h1, h2, h1', h2', h3, h4]

end Sys2Proof.Machine
end

