-- ==== Sys2Proof/Laws/Multiply.lean ====
section
/-! SUPPORT. What the ends of the multiplies and of the saturating arithmetic do, once for each. -/

namespace Sys2Proof.Machine

theorem halfOf_toInt (v : Word) (top : Bool) : (halfOf v top).toInt = halfInt v top := by cases top <;> rfl

/-- The top 32 bits of the 48-bit product, rounded down (R309). -/
theorem wideProduct_eq (m v : Word) (top : Bool) : wideProduct m (halfOf v top) = m.toInt * halfInt v top / 2 ^ 16 := by
  rw [wideProduct, halfOf_toInt]

/-- Counting draws changes the count alone. -/
theorem State.drawnIf_frame (s : State) (b : Bool) (k : Nat) :
    s.drawnIf b k = { s with draws := (s.drawnIf b k).draws } := by
  unfold State.drawnIf
  split <;> rfl

/-- From version 5 nothing is drawn. -/
theorem State.drawnIf_draws (s : State) (b : Bool) (k : Nat) (h : s.cfg.arch.version = .v5) :
    (s.drawnIf b k).draws = s.draws := by
  simp [State.drawnIf, Arch.atLeast5_eq, h]

/-- A result in registers and flags, with draws counted, goes on. -/
theorem State.advance_drawnIf {s t : State} (hp : t.pc = s.pc) (ht : t.cpsr.t = s.cpsr.t) (hg : s.CanGoOn) (b : Bool)
    (k : Nat) : (t.drawnIf b k).advance = .ok ((t.drawnIf b k).setPc s.next) := by
  refine State.advance_of ?_ ?_ hg
  · rw [State.drawnIf_frame]
    exact hp
  · rw [State.drawnIf_frame]
    exact ht

/-- Without S nothing is drawn. -/
theorem State.drawnIf_false (s : State) (k : Nat) : s.drawnIf false k = s := by simp [State.drawnIf]

/-- What a state that differs in registers, flags and draws alone keeps. -/
theorem State.goesOnDrawing_of {s t : State} {w : List Reg} (b : Bool) (k : Nat) (hr : s.RegsKept t w)
    (hm : t.mem = s.mem) (hs : t.special = s.special) (hd : t.draws = s.draws) (hc : t.cfg = s.cfg) :
    s.GoesOnDrawing ((t.drawnIf b k).setPc s.next) w := by
  refine ⟨rfl, hr.congr ?_, State.MemKept.of_mem ?_, ?_, fun h => ?_⟩
  · rw [State.drawnIf_frame]
    rfl
  · rw [State.drawnIf_frame]
    exact hm
  · rw [State.special_setPc, State.drawnIf_frame, ← hs]
    rfl
  · rw [State.setPc_draws, State.drawnIf_draws _ _ _ (by rw [hc, h]), hd]

/-- The end of MUL and MLA (R301, R302). -/
theorem State.writeProduct_ok {s : State} {rd : Reg} {b : Bool} {v : Word} (h : rd ≠ 15#4) (hg : s.CanGoOn) :
    ∃ t, s.writeProduct b rd v = .ok t ∧ t.reg rd = v ∧ s.MulFlags t b v.msb (decide (v = 0#32)) ∧
      s.GoesOnDrawing t [rd] := by
  refine ⟨_, State.advance_drawnIf (by simp) (by simp) hg b 1, ?_, ?_, ?_⟩
  · rw [State.reg_setPc _ _ _ h, State.drawnIf_frame]
    exact (State.reg_congr rfl rfl rfl rfl rd).trans
      ((State.reg_setNzcvIf _ _ _ _).trans (State.reg_setReg_self _ _ _ h))
  · rw [State.drawnIf_frame]
    have h5 := Arch.atLeast5_eq s.cfg.arch
    cases b
    · simp [State.MulFlags, State.FlagsKept, State.setNzcvIf]
    · refine ⟨rfl, ?_, rfl, fun hv => ?_⟩
      · simp [State.setNzcvIf, State.setNzcv, Psr.withNzcv, State.mulNzcv, BEq.beq]
      · simp [State.setNzcvIf, State.setNzcv, Psr.withNzcv, State.mulNzcv, h5, hv]
  · exact State.goesOnDrawing_of b 1
      (((State.RegsKept.refl s [rd]).setReg (r := rd) rfl (by simp) v).congr (by simp)) (by simp) (by simp) (by simp)
      (by simp)

/-- The end of the long multiplies (R303 to R306, R311). -/
theorem State.writeLongProduct_ok {s : State} {hi lo : Reg} {b : Bool} {v : DWord} (h1 : hi ≠ 15#4) (h2 : lo ≠ 15#4)
    (h3 : lo ≠ hi) (hg : s.CanGoOn) :
    ∃ t, s.writeLongProduct b hi lo v = .ok t ∧ t.reg hi ++ t.reg lo = v ∧
      s.LongMulFlags t b v.msb (decide (v = 0#64)) ∧ s.GoesOnDrawing t [lo, hi] ∧ (b = false → t.draws = s.draws) := by
  refine ⟨_, State.advance_drawnIf (by simp) (by simp) hg b 2, ?_, ?_, ?_, ?_⟩
  · rw [State.reg_setPc _ _ _ h1, State.reg_setPc _ _ _ h2, State.drawnIf_frame]
    have e (r : Reg) : ({ ((s.setReg lo (v.extractLsb' 0 32)).setReg hi (v.extractLsb' 32 32)).setNzcvIf b
        (s.longMulNzcv v) with draws := ((((s.setReg lo (v.extractLsb' 0 32)).setReg hi
          (v.extractLsb' 32 32)).setNzcvIf b (s.longMulNzcv v)).drawnIf b 2).draws } : State).reg r =
        ((s.setReg lo (v.extractLsb' 0 32)).setReg hi (v.extractLsb' 32 32)).reg r :=
      (State.reg_congr rfl rfl rfl rfl r).trans (State.reg_setNzcvIf _ _ _ _)
    rw [e, e, State.reg_setReg_self _ _ _ h1, State.reg_setReg_ne _ _ _ _ h3, State.reg_setReg_self _ _ _ h2]
    exact dword_split v
  · rw [State.drawnIf_frame]
    have h5 := Arch.atLeast5_eq s.cfg.arch
    cases b
    · simp [State.LongMulFlags, State.FlagsKept, State.setNzcvIf]
    · refine ⟨rfl, ?_, fun hv => ?_⟩
      · simp [State.setNzcvIf, State.setNzcv, Psr.withNzcv, State.longMulNzcv, BEq.beq]
      · simp [State.setNzcvIf, State.setNzcv, Psr.withNzcv, State.longMulNzcv, h5, hv]
  · exact State.goesOnDrawing_of b 2
      ((((State.RegsKept.refl s [lo, hi]).setReg (r := lo) rfl (by simp) (v.extractLsb' 0 32)).setReg (r := hi)
        (by simp) (by simp) (v.extractLsb' 32 32)).congr (by simp)) (by simp) (by simp) (by simp) (by simp)
  · rintro rfl
    simp [State.drawnIf_false]

/-- A rule that ends so writes a register and may set Q. -/
theorem writesRegQ_of {i : Instr} {s : State} {rd : Reg} {v : Word} {q : Bool} (h : rd ≠ 15#4)
    (he : exec i s = .next (((s.setReg rd v).setQIf q).setPc s.next)) : WritesRegQ i s rd v q := by
  refine ⟨_, he, ?_, ?_, ?_, rfl, ?_, State.MemKept.of_mem (by simp), ?_⟩
  · rw [State.reg_setPc _ _ _ h, State.reg_setQIf, State.reg_setReg_self _ _ _ h]
  · simp
  · simp [State.FlagsKept, Psr.nzcv]
  · exact ((State.RegsKept.refl s [rd]).setReg (r := rd) rfl (by simp) v).congr (by simp)
  · simp only [State.setReg, h, if_false]
    rfl

/-- The end of an accumulating multiply that can set Q (R308, R310). -/
theorem State.writeAccumulated_ok {s : State} {rd : Reg} {x : Int} (hg : s.CanGoOn) :
    s.writeAccumulated rd x = .ok (((s.setReg rd (BitVec.ofInt 32 x)).setQIf (!fits32 x)).setPc s.next) := by
  rw [State.writeAccumulated, ofInt32_ne]
  exact State.advance_of (by simp) (by simp) hg

/-- The end of a saturating instruction (R315). -/
theorem State.writeSaturated_ok {s : State} {rd : Reg} {v : Word} {q : Bool} (hg : s.CanGoOn) :
    s.writeSaturated rd v q = .ok (((s.setReg rd v).setQIf q).setPc s.next) :=
  State.advance_of (by simp) (by simp) hg

end Sys2Proof.Machine
end

