-- ==== Sys2Proof/Laws/Rounding.lean ====
section
/-! SUPPORT. Rounding: what `roundQuantum` and `FpFormat.round` deliver for a real number, given by its magnitude exactly or
by an odd significand within whose last place it lies; the fields of a pattern and of one with its sign flipped. -/

namespace Sys2Proof.Machine

/-! ### The choice between two neighbours -/

/-- The choice between `sig` and `sig + 1` for a magnitude `sig + t`. -/
def RoundsUp {K : Type} [Field K] [LinearOrder K] (r : Rounding) (negative : Bool) (sig : Nat) (t : K) (up : Bool) : Prop :=
  match r with
  | .nearest => (1 / 2 < t → up = true) ∧ (t < 1 / 2 → up = false) ∧ (t = 1 / 2 → up = decide (sig % 2 = 1))
  | .plusInfinity => (t = 0 → up = false) ∧ (t ≠ 0 → up = !negative)
  | .minusInfinity => (t = 0 → up = false) ∧ (t ≠ 0 → up = negative)
  | .zero => up = false

/-- The neighbour that is chosen is the one that the mode asks for (R504). -/
theorem roundedTo_of_up {K : Type} [Field K] [LinearOrder K] [IsStrictOrderedRing K] {r : Rounding} {negative : Bool}
    {sig : Nat} {t : K} {up : Bool} (h0 : 0 ≤ t) (h1 : t < 1) (h : RoundsUp r negative sig t up) :
    RoundedTo r (if negative then -((sig : K) + t) else sig + t)
      (signed negative (if up then sig + 1 else sig)) := by
  have hs : (0 : K) ≤ sig := Nat.cast_nonneg _
  cases r
  case nearest =>
    obtain ⟨ha, hb, hc⟩ := h
    have key : |((if up then sig + 1 else sig : ℕ) : K) - (sig + t)| ≤ 1 / 2 ∧
        (|((if up then sig + 1 else sig : ℕ) : K) - (sig + t)| = 1 / 2 → (if up then sig + 1 else sig) % 2 = 0) := by
      rcases lt_trichotomy t (1 / 2) with h | h | h
      · rw [hb h]
        have e : ((if false = true then sig + 1 else sig : ℕ) : K) - (sig + t) = -t := by simp
        rw [e, abs_neg, abs_of_nonneg h0]
        exact ⟨h.le, fun e => absurd e h.ne⟩
      · rw [hc h]
        have e : |((if decide (sig % 2 = 1) = true then sig + 1 else sig : ℕ) : K) - (sig + t)| = 1 / 2 := by
          subst h
          split
          · push_cast
            rw [show (sig : K) + 1 - (sig + 1 / 2) = 1 / 2 by ring, abs_of_pos (by norm_num)]
          · rw [show (sig : K) - (sig + 1 / 2) = -(1 / 2) by ring, abs_neg, abs_of_pos (by norm_num)]
        refine ⟨e.le, fun _ => ?_⟩
        split <;> (simp_all; try omega)
      · rw [ha h]
        have e : ((if true = true then sig + 1 else sig : ℕ) : K) - (sig + t) = 1 - t := by simp
        rw [e, abs_of_pos (by linarith)]
        exact ⟨by linarith, fun e => by linarith⟩
    cases negative
    · simp only [RoundedTo, signed, Bool.false_eq_true, if_false, Int.cast_natCast]
      exact ⟨key.1, fun e => by exact_mod_cast key.2 e⟩
    · simp only [RoundedTo, signed, if_true, Int.cast_neg, Int.cast_natCast]
      rw [show -(((if up then sig + 1 else sig : ℕ) : K)) - -((sig : K) + t) =
        -(((if up then sig + 1 else sig : ℕ) : K) - (sig + t)) by ring, abs_neg]
      exact ⟨key.1, fun e => by have := key.2 e; omega⟩
  case zero =>
    subst h
    simp only [RoundedTo, signed]
    cases negative
    · simp only [Bool.false_eq_true, if_false, Int.cast_natCast]
      rw [abs_of_nonneg hs, abs_of_nonneg (by linarith)]
      exact ⟨by linarith, by linarith, by positivity⟩
    · simp only [Bool.false_eq_true, if_false, if_true, Int.cast_neg, Int.cast_natCast, abs_neg]
      rw [abs_of_nonneg hs, abs_of_nonneg (by linarith)]
      exact ⟨by linarith, by linarith, by rw [neg_mul_neg]; positivity⟩
  all_goals
    obtain ⟨ha, hb⟩ := h
    by_cases ht : t = 0
    · rw [ha ht]
      subst ht
      cases negative <;> simp [RoundedTo, signed]
    · have hp : 0 < t := lt_of_le_of_ne h0 (Ne.symm ht)
      rw [hb ht]
      cases negative <;> simp [RoundedTo, signed] <;> constructor <;> linarith

/-! ### Rounding at a quantum -/

/-- A magnitude is `mant * 2^exp`, or lies strictly within one of an odd `mant`. -/
def StandsFor (mag : ℝ) (mant : Nat) (exp : ℤ) : Prop :=
  mag = mant * (2 : ℝ) ^ exp ∨
    (mant % 2 = 1 ∧ ((mant : ℝ) - 1) * (2 : ℝ) ^ exp < mag ∧ mag < ((mant : ℝ) + 1) * (2 : ℝ) ^ exp)

/-- A power of two is a natural number of times a smaller one. -/
theorem zpow_two_toNat {a b : ℤ} (h : a ≤ b) : (2 : ℝ) ^ b = (2 : ℝ) ^ a * ((2 ^ (b - a).toNat : ℕ) : ℝ) := by
  push_cast
  rw [← zpow_natCast, ← zpow_add₀ (by norm_num), Int.toNat_of_nonneg (by omega)]
  congr 1; omega

/-- What rounding at a quantum chooses, for the magnitude that its arguments stand for. -/
theorem roundQuantum_of_stands (r : Rounding) (negative : Bool) {mag : ℝ} {mant : Nat} {exp q : ℤ}
    (h : mag = mant * (2 : ℝ) ^ exp ∨ (StandsFor mag mant exp ∧ exp + 2 ≤ q)) :
    ∃ (sig : Nat) (t : ℝ) (up : Bool), 0 ≤ t ∧ t < 1 ∧ mag / (2 : ℝ) ^ q = sig + t ∧ RoundsUp r negative sig t up ∧
      (roundQuantum r negative mant exp q).1 = (if up then sig + 1 else sig) ∧
      ((roundQuantum r negative mant exp q).2 = true ↔ t ≠ 0) := by
  have pq : (0 : ℝ) < (2 : ℝ) ^ q := by positivity
  have pe : (0 : ℝ) < (2 : ℝ) ^ exp := by positivity
  by_cases hq : q ≤ exp
  · have h : mag = mant * (2 : ℝ) ^ exp := by
      rcases h with h | ⟨-, h⟩
      · exact h
      · omega
    refine ⟨mant * 2 ^ (exp - q).toNat, 0, false, le_rfl, by norm_num, ?_, ?_, by simp [roundQuantum, hq],
      by simp [roundQuantum, hq]⟩
    · rw [h, zpow_two_toNat hq, div_eq_iff pq.ne']; push_cast; ring
    · cases r <;> simp [RoundsUp]
  · obtain ⟨unit, hun⟩ : ∃ u : Nat, u = 2 ^ (q - exp).toNat := ⟨_, rfl⟩
    have hu : 0 < unit := by rw [hun]; positivity
    have hu' : (0 : ℝ) < unit := by exact_mod_cast hu
    have hpow : (2 : ℝ) ^ q = (2 : ℝ) ^ exp * unit := by rw [hun]; exact zpow_two_toNat (by omega)
    have hdm := Nat.div_add_mod mant unit
    have hlt := Nat.mod_lt mant hu
    obtain ⟨sig, hsig⟩ : ∃ s, s = mant / unit := ⟨_, rfl⟩
    obtain ⟨rem, hrem⟩ : ∃ s, s = mant % unit := ⟨_, rfl⟩
    rw [← hsig, ← hrem] at hdm
    rw [← hrem] at hlt
    have hm : (mant : ℝ) = unit * sig + rem := by exact_mod_cast hdm.symm
    let up := match r with
      | .nearest => decide (unit < 2 * rem) || (decide (unit = 2 * rem) && sig % 2 == 1)
      | .plusInfinity => rem != 0 && !negative
      | .minusInfinity => rem != 0 && negative
      | .zero => false
    have hrq : roundQuantum r negative mant exp q = (if up then sig + 1 else sig, rem != 0) := by
      rw [roundQuantum, if_neg hq]
      simp only [← hun, ← hsig, ← hrem]
      rfl
    obtain ⟨t, ht⟩ : ∃ t : ℝ, t = mag / (2 : ℝ) ^ q - sig := ⟨_, rfl⟩
    have hmag : mag = (unit * (sig + t)) * (2 : ℝ) ^ exp := by rw [ht, hpow]; field_simp; ring
    have h : mag = mant * (2 : ℝ) ^ exp ∨ (mant % 2 = 1 ∧ ((mant : ℝ) - 1) * (2 : ℝ) ^ exp < mag ∧
        mag < ((mant : ℝ) + 1) * (2 : ℝ) ^ exp ∧ exp + 2 ≤ q) := by
      rcases h with h | ⟨h | h, hge⟩
      · exact .inl h
      · exact .inl h
      · exact .inr ⟨h.1, h.2.1, h.2.2, hge⟩
    -- how t compares, from either form
    have facts : 0 ≤ t ∧ t < 1 ∧ (rem = 0 ↔ t = 0) ∧ (unit < 2 * rem ↔ 1 / 2 < t) ∧ (unit = 2 * rem ↔ t = 1 / 2) := by
      rcases h with h | ⟨hodd, hlo, hhi, hge⟩
      · have e : (unit : ℝ) * t = rem := by
          have : (unit * (sig + t)) * (2 : ℝ) ^ exp = (unit * sig + rem) * (2 : ℝ) ^ exp := by rw [← hmag, h, hm]
          have := mul_right_cancel₀ pe.ne' this
          linarith
        have et : t = rem / unit := by rw [eq_div_iff hu'.ne']; linarith
        refine ⟨by rw [et]; positivity, by rw [et, div_lt_one hu']; exact_mod_cast hlt, ?_, ?_, ?_⟩
        · rw [et, div_eq_zero_iff]; simp [hu'.ne']
        · rw [et, lt_div_iff₀ hu', ← Nat.cast_lt (α := ℝ)]; push_cast; constructor <;> intro h <;> linarith
        · rw [et, div_eq_iff hu'.ne', ← Nat.cast_inj (R := ℝ)]; push_cast; constructor <;> intro h <;> linarith
      · rw [hmag] at hlo hhi
        have hlo := lt_of_mul_lt_mul_right hlo pe.le
        have hhi := lt_of_mul_lt_mul_right hhi pe.le
        rw [hm] at hlo hhi
        obtain ⟨k, hk⟩ : ∃ k, unit = 4 * k := by
          refine ⟨2 ^ ((q - exp).toNat - 2), ?_⟩
          rw [hun, show (4 : ℕ) = 2 ^ 2 by rfl, ← pow_add]
          congr 1; omega
        subst hk
        have hro : rem % 2 = 1 := by
          rw [← hdm, mul_assoc, Nat.add_mod, Nat.mul_mod] at hodd
          omega
        have hr1 : 1 ≤ rem := by omega
        have hr2 : rem + 1 ≤ 4 * k := by omega
        have c1 : (1 : ℝ) ≤ rem := by exact_mod_cast hr1
        have c2 : (rem : ℝ) + 1 ≤ (4 * k : ℕ) := by exact_mod_cast hr2
        have t0 : 0 < t := by
          by_contra hc
          have := mul_nonpos_of_nonneg_of_nonpos hu'.le (not_lt.1 hc)
          linarith
        have t1 : t < 1 := by
          by_contra hc
          have := mul_le_mul_of_nonneg_left (not_lt.1 hc) hu'.le
          linarith
        refine ⟨t0.le, t1, ?_, ?_, ?_⟩
        · constructor
          · omega
          · intro h; linarith
        · constructor
          · intro h
            have : 2 * k + 1 ≤ rem := by omega
            have : 2 * (k : ℝ) + 1 ≤ rem := by exact_mod_cast this
            by_contra hc
            have := mul_le_mul_of_nonneg_left (not_lt.1 hc) hu'.le
            push_cast at this hlo
            linarith
          · intro h
            by_contra hc
            have : rem + 1 ≤ 2 * k := by omega
            have : (rem : ℝ) + 1 ≤ 2 * k := by exact_mod_cast this
            have := mul_lt_mul_of_pos_left h hu'
            push_cast at this hhi
            linarith
        · constructor
          · omega
          · intro h
            exfalso
            subst h
            push_cast at hlo hhi
            rcases Nat.lt_or_ge rem (2 * k) with h | h
            · have : (rem : ℝ) + 1 ≤ 2 * k := by exact_mod_cast h
              linarith
            · have : 2 * k + 1 ≤ rem := by omega
              have : 2 * (k : ℝ) + 1 ≤ rem := by exact_mod_cast this
              linarith
    obtain ⟨f0, f1, fz, fh, fe⟩ := facts
    refine ⟨sig, t, up, f0, f1, by rw [ht]; ring, ?_, by rw [hrq], by rw [hrq]; simp [fz]⟩
    cases r
    · refine ⟨fun h => ?_, fun h => ?_, fun h => ?_⟩
      · simp [up, fh.2 h]
      · have a : ¬unit < 2 * rem := fun c => by have := fh.1 c; linarith
        have b : unit ≠ 2 * rem := fun c => by have := fe.1 c; linarith
        simp [up, a, b]
      · have a : ¬unit < 2 * rem := fun c => by have := fh.1 c; linarith
        have b := fe.2 h
        simp only [up, ← b, lt_irrefl, decide_false, decide_true, Bool.true_and, Bool.false_or]
        rcases Nat.mod_two_eq_zero_or_one sig with h | h <;> simp [h]
    · exact ⟨fun h => by simp [up, fz.2 h], fun h => by simp [up, mt fz.1 h]⟩
    · exact ⟨fun h => by simp [up, fz.2 h], fun h => by simp [up, mt fz.1 h]⟩
    · rfl

/-! ### Patterns -/

/-- The fields of a pattern that is put together from them. -/
theorem FpFormat.fields_of (f : FpFormat) (neg : Bool) {b fr : Nat} (hb : b < 2 ^ f.expBits) (hf : fr < 2 ^ f.fracBits) :
    f.negative (b * 2 ^ f.fracBits + fr + f.signBits neg) = neg ∧
    f.biased (b * 2 ^ f.fracBits + fr + f.signBits neg) = b ∧
    f.fraction (b * 2 ^ f.fracBits + fr + f.signBits neg) = fr := by
  have hp : 0 < 2 ^ f.fracBits := by positivity
  have hx : 2 ^ (f.expBits + f.fracBits) = 2 ^ f.expBits * 2 ^ f.fracBits := pow_add ..
  have hlt : b * 2 ^ f.fracBits + fr < 2 ^ (f.expBits + f.fracBits) := by
    rw [hx]; nlinarith [Nat.mul_le_mul_right (2 ^ f.fracBits) (Nat.succ_le_of_lt hb)]
  obtain ⟨s, hs1, hs⟩ : ∃ s, s < 2 ∧ f.signBits neg = s * 2 ^ (f.expBits + f.fracBits) ∧ (s == 1) = neg := by
    cases neg
    · exact ⟨0, by omega, by simp [FpFormat.signBits], rfl⟩
    · exact ⟨1, by omega, by simp [FpFormat.signBits], rfl⟩
  have e : b * 2 ^ f.fracBits + fr + f.signBits neg = (s * 2 ^ f.expBits + b) * 2 ^ f.fracBits + fr := by
    rw [hs.1, hx]; ring
  refine ⟨?_, ?_, ?_⟩
  · rw [FpFormat.negative, hs.1, Nat.add_mul_div_right _ _ (by positivity), Nat.div_eq_of_lt hlt, zero_add,
      Nat.mod_eq_of_lt hs1, hs.2]
  · rw [FpFormat.biased, e, add_comm, Nat.add_mul_div_right _ _ hp, Nat.div_eq_of_lt hf, zero_add, add_comm,
      Nat.add_mul_mod_self_right, Nat.mod_eq_of_lt hb]
  · rw [FpFormat.fraction, e, add_comm, Nat.add_mul_mod_self_right, Nat.mod_eq_of_lt hf]

theorem finValue_eq (neg : Bool) (mant : Nat) (exp : ℤ) :
    finValue neg mant exp = (if neg then -1 else 1) * mant * (2 : ℚ) ^ exp := rfl

/-- `n` steps above the lowest quantum a significand `s` stands for `s` times that quantum. -/
theorem FpFormat.unpack_pattern (f : FpFormat) (neg : Bool) {n s : Nat} (hs : s ≤ 2 ^ (f.fracBits + 1))
    (hn : 0 < n → 2 ^ f.fracBits ≤ s) (hi : n * 2 ^ f.fracBits + s < f.infBits) :
    ∃ mant exp, f.unpack (n * 2 ^ f.fracBits + s + f.signBits neg) = .fin neg mant exp ∧
      finValue neg mant exp = finValue neg s (f.expMin - f.fracBits + n) := by
  have hp : 0 < 2 ^ f.fracBits := by positivity
  have h2 : 2 ^ (f.fracBits + 1) = 2 ^ f.fracBits + 2 ^ f.fracBits := by rw [pow_succ]; omega
  have lt_max : ∀ b fr, n * 2 ^ f.fracBits + s = b * 2 ^ f.fracBits + fr → b < f.expMax := fun b fr h => by
    rw [h, FpFormat.infBits] at hi
    exact lt_of_mul_lt_mul_right (lt_of_le_of_lt (Nat.le_add_right _ _) hi) (Nat.zero_le _)
  have max_lt : f.expMax < 2 ^ f.expBits := by
    rw [FpFormat.expMax]; exact Nat.sub_lt (by positivity) (by omega)
  rcases Nat.lt_or_ge s (2 ^ f.fracBits) with h | h
  · have hn0 : n = 0 := by by_contra hc; exact absurd (hn (by omega)) (by omega)
    subst hn0
    have hb := lt_max 0 s rfl
    obtain ⟨h1, h2, h3⟩ := f.fields_of neg (lt_trans hb max_lt) h
    refine ⟨s, f.expMin - f.fracBits, ?_, by simp⟩
    simp only [FpFormat.unpack, h1, h2, h3, hb.ne, if_false, if_true]
  · rcases Nat.lt_or_ge s (2 ^ (f.fracBits + 1)) with h' | h'
    · have e : n * 2 ^ f.fracBits + s = (n + 1) * 2 ^ f.fracBits + (s - 2 ^ f.fracBits) := by
        rw [Nat.succ_mul]; omega
      have hb := lt_max _ _ e
      obtain ⟨h1, h2, h3⟩ := f.fields_of neg (lt_trans hb max_lt) (fr := s - 2 ^ f.fracBits) (by omega)
      rw [e]
      refine ⟨s, f.expMin - f.fracBits + n, ?_, rfl⟩
      simp only [FpFormat.unpack, h1, h2, h3, hb.ne, if_false, Nat.succ_ne_zero, Nat.add_sub_cancel]
      congr 1; omega
    · have hs' : s = 2 ^ (f.fracBits + 1) := by omega
      have e : n * 2 ^ f.fracBits + s = (n + 2) * 2 ^ f.fracBits + 0 := by
        rw [hs', h2]; ring
      have hb := lt_max _ _ e
      obtain ⟨h1, h2, h3⟩ := f.fields_of neg (lt_trans hb max_lt) hp
      rw [e]
      refine ⟨0 + 2 ^ f.fracBits, f.expMin - f.fracBits + (n + 2 - 1 : ℕ), ?_, ?_⟩
      · simp only [FpFormat.unpack, h1, h2, h3, hb.ne, if_false, Nat.succ_ne_zero]
      · rw [hs', finValue_eq, finValue_eq, show ((n + 2 - 1 : ℕ) : ℤ) = n + 1 by omega, ← add_assoc,
          zpow_add₀ (by norm_num : (2 : ℚ) ≠ 0) _ 1]
        push_cast
        ring

/-! ### Rounding to a format -/

/-- The binade of a magnitude is that of what stands for it. -/
theorem StandsFor.binade {mag : ℝ} {mant : Nat} {exp : ℤ} (h : StandsFor mag mant exp)
    (hm : mag = mant * (2 : ℝ) ^ exp ∨ 1 < mant) (h0 : mant ≠ 0) :
    (2 : ℝ) ^ ((Nat.log2 mant : ℤ) + exp) ≤ mag ∧ mag < (2 : ℝ) ^ ((Nat.log2 mant : ℤ) + exp + 1) := by
  have pe : (0 : ℝ) < (2 : ℝ) ^ exp := by positivity
  obtain ⟨l, hl⟩ : ∃ l, l = Nat.log2 mant := ⟨_, rfl⟩
  have lo : 2 ^ l ≤ mant := by rw [hl]; exact Nat.log2_self_le h0
  have hi : mant < 2 ^ (l + 1) := by rw [hl]; exact Nat.lt_log2_self
  rw [← hl, add_right_comm, zpow_add₀ (by norm_num), zpow_add₀ (by norm_num) _ exp]
  have e1 : (2 : ℝ) ^ (l : ℤ) = ((2 ^ l : ℕ) : ℝ) := by push_cast; exact zpow_natCast _ _
  have e2 : (2 : ℝ) ^ ((l : ℤ) + 1) = ((2 ^ (l + 1) : ℕ) : ℝ) := by
    push_cast; rw [← zpow_natCast]; push_cast; rfl
  rw [e1, e2]
  rcases h with h | ⟨hodd, hlo, hhi⟩
  · rw [h]
    exact ⟨mul_le_mul_of_nonneg_right (by exact_mod_cast lo) pe.le, mul_lt_mul_of_pos_right (by exact_mod_cast hi) pe⟩
  · rcases hm with hm | hm
    · rw [hm]
      exact ⟨mul_le_mul_of_nonneg_right (by exact_mod_cast lo) pe.le, mul_lt_mul_of_pos_right (by exact_mod_cast hi) pe⟩
    · have l1 : 1 ≤ l := by
        by_contra hc
        have : l = 0 := by omega
        subst this; simp at hi; omega
      obtain ⟨k, hk⟩ : ∃ k, 2 ^ l = 2 * k := ⟨2 ^ (l - 1), by rw [← pow_succ']; congr 1; omega⟩
      have h1 : 2 ^ l + 1 ≤ mant := by omega
      have h2 : mant + 1 ≤ 2 ^ (l + 1) := hi
      have c1 : ((2 ^ l : ℕ) : ℝ) ≤ (mant : ℝ) - 1 := by
        have : ((2 ^ l + 1 : ℕ) : ℝ) ≤ mant := by exact_mod_cast h1
        push_cast at this ⊢; linarith
      have c2 : (mant : ℝ) + 1 ≤ ((2 ^ (l + 1) : ℕ) : ℝ) := by exact_mod_cast h2
      exact ⟨(lt_of_le_of_lt (mul_le_mul_of_nonneg_right c1 pe.le) hlo).le,
        lt_of_lt_of_le hhi (mul_le_mul_of_nonneg_right c2 pe.le)⟩

theorem FpFormat.infBits_eq (f : FpFormat) : f.infBits = (2 ^ f.expBits - 1) * 2 ^ f.fracBits := rfl

/-- `B = n * 2^p + s` reaches infinity exactly when `s * 2^(least + n)` is beyond the largest number. -/
theorem FpFormat.largest_lt (f : FpFormat) (he : 2 ≤ f.expBits) {n s : Nat} (hs : s ≤ 2 ^ (f.fracBits + 1))
    (hn : 0 < n → 2 ^ f.fracBits ≤ s) :
    (f.largest : ℝ) < s * (2 : ℝ) ^ (f.expMin - f.fracBits + n : ℤ) ↔ f.infBits ≤ n * 2 ^ f.fracBits + s := by
  obtain ⟨p, hp⟩ : ∃ p, p = f.fracBits := ⟨_, rfl⟩
  obtain ⟨E, hE⟩ : ∃ E, f.expBits = E + 2 := ⟨f.expBits - 2, by omega⟩
  have hmax : f.expMax = 2 ^ (E + 2) - 1 := by rw [FpFormat.expMax, hE]
  have h4 : 2 ^ (E + 2) = 2 * 2 ^ (E + 1) := by rw [pow_succ' 2 (E + 1)]
  have hE1 : 2 ≤ 2 ^ (E + 1) := by rw [pow_succ]; have := Nat.one_le_two_pow (n := E); omega
  -- write the largest number with the quantum of the top binade
  obtain ⟨N, hN⟩ : ∃ N : ℕ, N = 2 ^ (E + 2) - 3 := ⟨_, rfl⟩
  have hlarge : (f.largest : ℝ) = ((2 : ℝ) ^ (p + 1) - 1) * (2 : ℝ) ^ (f.expMin - p + N : ℤ) := by
    rw [FpFormat.largest, FpFormat.expMin, ← hp, hE]
    push_cast
    congr 2
    rw [hN, Nat.cast_sub (by omega), h4]
    push_cast
    ring
  have hinf : f.infBits = (N + 2) * 2 ^ p := by rw [FpFormat.infBits, hmax, ← hp]; congr 1; omega
  rw [← hp] at hs hn ⊢
  rw [hlarge, hinf]
  have pw : ∀ z : ℤ, (0 : ℝ) < (2 : ℝ) ^ z := fun z => by positivity
  have hP : (2 : ℝ) ^ (p + 1) = 2 * 2 ^ p := pow_succ' _ _
  have hPn : 2 ^ (p + 1) = 2 * 2 ^ p := pow_succ' _ _
  have p1 : (1 : ℝ) ≤ 2 ^ p := one_le_pow₀ (by norm_num)
  have p1n : 1 ≤ 2 ^ p := Nat.one_le_two_pow
  have hsr : (s : ℝ) ≤ 2 ^ (p + 1) := by exact_mod_cast hs
  rcases Nat.lt_trichotomy n N with h | h | h
  · -- below the top binade
    have hk : (f.expMin - p + N : ℤ) = (f.expMin - p + n) + ((N - n : ℕ) : ℤ) := by omega
    have hdiv : (2 : ℝ) ≤ 2 ^ (N - n) := by
      calc (2 : ℝ) = 2 ^ 1 := by norm_num
        _ ≤ _ := pow_le_pow_right₀ (by norm_num) (by omega)
    constructor
    · intro hlt
      exfalso
      rw [hk, zpow_add₀ (by norm_num), zpow_natCast, mul_comm ((2:ℝ) ^ (f.expMin - p + n)), ← mul_assoc] at hlt
      have := lt_of_mul_lt_mul_right hlt (pw _).le
      nlinarith
    · intro hle
      exfalso
      have : n * 2 ^ p + s ≤ (N + 1) * 2 ^ p := by
        have : n * 2 ^ p ≤ (N - 1) * 2 ^ p := Nat.mul_le_mul_right _ (by omega)
        obtain ⟨N', rfl⟩ : ∃ N', N = N' + 1 := ⟨N - 1, by omega⟩
        simp only [Nat.add_sub_cancel] at this
        nlinarith
      nlinarith
  · subst h
    rw [mul_lt_mul_iff_left₀ (pw _)]
    constructor
    · intro hlt
      have : 2 ^ (p + 1) < s + 1 := by
        have : ((2 ^ (p + 1) : ℕ) : ℝ) < (s + 1 : ℕ) := by push_cast; linarith
        exact_mod_cast this
      nlinarith
    · intro hle
      have : 2 ^ (p + 1) ≤ s := by nlinarith
      have : ((2 ^ (p + 1) : ℕ) : ℝ) ≤ s := by exact_mod_cast this
      push_cast at this
      linarith
  · have hs1 := hn (by omega)
    have hk : (f.expMin - p + n : ℤ) = (f.expMin - p + N) + ((n - N : ℕ) : ℤ) := by omega
    have hdiv : (2 : ℝ) ≤ 2 ^ (n - N) := by
      calc (2 : ℝ) = 2 ^ 1 := by norm_num
        _ ≤ _ := pow_le_pow_right₀ (by norm_num) (by omega)
    have hsr1 : (2 : ℝ) ^ p ≤ s := by exact_mod_cast hs1
    refine ⟨fun _ => ?_, fun _ => ?_⟩
    · have : (N + 1) * 2 ^ p ≤ n * 2 ^ p := Nat.mul_le_mul_right _ (by omega)
      nlinarith
    · have e : (2 : ℝ) ^ (f.expMin - p + n : ℤ) = 2 ^ (n - N) * (2 : ℝ) ^ (f.expMin - p + N : ℤ) := by
        rw [hk, zpow_add₀ (by norm_num) _ ((n - N : ℕ) : ℤ), zpow_natCast, mul_comm]
      rw [e, ← mul_assoc]
      refine mul_lt_mul_of_pos_right ?_ (pw _)
      nlinarith

/-- Rounding delivers the number that its arguments stand for (R504, R505). -/
theorem FpFormat.round_delivers (f : FpFormat) (he : 2 ≤ f.expBits) (m : FpMode) {x : ℝ} {negative : Bool} {mant : Nat}
    {exp : ℤ} (h0 : mant ≠ 0) (hneg : negative = true ↔ x < 0) (hs : StandsFor |x| mant exp)
    (hx : |x| = mant * (2 : ℝ) ^ exp ∨ 2 ^ (f.fracBits + 3) ≤ mant) :
    f.Delivers m x (f.round m negative mant exp) := by
  have big : 8 ≤ 2 ^ (f.fracBits + 3) := by
    rw [pow_add]; have := Nat.one_le_two_pow (n := f.fracBits); omega
  obtain ⟨b1, b2⟩ := hs.binade (hx.imp_right (by omega)) h0
  obtain ⟨top, htop⟩ : ∃ top : ℤ, top = (Nat.log2 mant : ℤ) + exp := ⟨_, rfl⟩
  rw [← htop] at b1 b2
  have two : (1 : ℝ) < 2 := by norm_num
  have htiny : |x| < (2 : ℝ) ^ f.expMin ↔ top < f.expMin := by
    constructor
    · intro h
      by_contra hc
      exact absurd (lt_of_le_of_lt (zpow_le_zpow_right₀ two.le (not_lt.1 hc)) (lt_of_le_of_lt b1 h)) (lt_irrefl _)
    · intro h
      exact lt_of_lt_of_le b2 (zpow_le_zpow_right₀ two.le (by omega))
  refine ⟨fun hf ht => ?_, fun hn => ?_⟩
  · simp [FpFormat.round, ← htop, hf, htiny.1 ht]
  obtain ⟨q, hq⟩ : ∃ q : ℤ, q = max top f.expMin - f.fracBits := ⟨_, rfl⟩
  have hq' : max (top - f.fracBits) (f.expMin - f.fracBits) = q := by omega
  have hst : |x| = mant * (2 : ℝ) ^ exp ∨ (StandsFor |x| mant exp ∧ exp + 2 ≤ q) := by
    refine hx.imp_right fun h => ⟨hs, ?_⟩
    have : f.fracBits + 3 ≤ Nat.log2 mant := (Nat.le_log2 h0).2 h
    omega
  obtain ⟨sig, t, up, t0, t1, hmag, hup, hr1, hr2⟩ := roundQuantum_of_stands m.rounding negative hst
  obtain ⟨v, hv⟩ : ∃ v : ℕ, v = if up then sig + 1 else sig := ⟨_, rfl⟩
  rw [← hv] at hr1
  have pq : (0 : ℝ) < (2 : ℝ) ^ q := by positivity
  have hxs : x = (if negative then -|x| else |x|) := by
    cases negative
    · rw [if_neg (by simp), abs_of_nonneg (not_lt.1 fun c => by simpa using hneg.2 c)]
    · rw [if_pos rfl, abs_of_neg (hneg.1 rfl), neg_neg]
  have hxq : x / (2 : ℝ) ^ q = if negative then -((sig : ℝ) + t) else sig + t := by
    rw [← hmag]
    conv_lhs => rw [hxs]
    cases negative <;> simp [neg_div]
  have hround : RoundedTo m.rounding (x / (2 : ℝ) ^ q) (signed negative v) := by
    rw [hxq, hv]; exact roundedTo_of_up t0 t1 hup
  have hyabs : |((signed negative v : ℤ) : ℝ) * (2 : ℝ) ^ q| = v * (2 : ℝ) ^ q := by
    rw [abs_mul, abs_of_pos pq]
    cases negative <;> simp [signed]
  have hyval : ((finValue negative v q : ℚ) : ℝ) = ((signed negative v : ℤ) : ℝ) * (2 : ℝ) ^ q := by
    rw [finValue_eq]; cases negative <;> simp [signed]
  -- the bits
  obtain ⟨n, hn'⟩ : ∃ n : ℕ, n = (q - (f.expMin - f.fracBits)).toNat := ⟨_, rfl⟩
  have hqn : q = f.expMin - f.fracBits + n := by omega
  have sig_lt : sig < 2 ^ (f.fracBits + 1) := by
    have h1 : (sig : ℝ) + t < (2 : ℝ) ^ (f.fracBits + 1) := by
      rw [← hmag, div_lt_iff₀ pq, ← zpow_natCast, ← zpow_add₀ (by norm_num)]
      exact lt_of_lt_of_le b2 (zpow_le_zpow_right₀ two.le (by push_cast; omega))
    have h2 : (sig : ℝ) < ((2 ^ (f.fracBits + 1) : ℕ) : ℝ) := by push_cast; linarith
    exact_mod_cast h2
  have v_le : v ≤ 2 ^ (f.fracBits + 1) := by rw [hv]; split <;> omega
  have v_ge : 0 < n → 2 ^ f.fracBits ≤ v := by
    intro hpos
    have h1 : (2 : ℝ) ^ f.fracBits ≤ (sig : ℝ) + t := by
      rw [← hmag, le_div_iff₀ pq, ← zpow_natCast, ← zpow_add₀ (by norm_num)]
      exact le_trans (zpow_le_zpow_right₀ two.le (by omega)) b1
    have h2 : ((2 ^ f.fracBits : ℕ) : ℝ) < ((sig + 1 : ℕ) : ℝ) := by push_cast; linarith
    have h3 : 2 ^ f.fracBits < sig + 1 := by exact_mod_cast h2
    rw [hv]; split <;> omega
  have hval : f.round m negative mant exp =
      if f.infBits ≤ n * 2 ^ f.fracBits + v then
        { bits := f.overflowed m.rounding negative, exc := excOFC ||| excIXC }
      else
        { bits := n * 2 ^ f.fracBits + v + f.signBits negative
          exc := if (roundQuantum m.rounding negative mant exp q).2 then
            (if decide (top < f.expMin) then excUFC ||| excIXC else excIXC) else 0#5 } := by
    have hc : (m.flush && decide (top < f.expMin)) = false := by
      rw [Bool.eq_false_iff]
      intro c
      rw [Bool.and_eq_true, decide_eq_true_eq] at c
      exact hn ⟨c.1, htiny.2 c.2⟩
    simp only [FpFormat.round, ← htop, hc, hq', ← hn', hr1]
    rfl
  have hbig : (f.largest : ℝ) < v * (2 : ℝ) ^ q ↔ f.infBits ≤ n * 2 ^ f.fracBits + v := by
    rw [hqn]; exact f.largest_lt he v_le v_ge
  have hexact : ((signed negative v : ℤ) : ℝ) * (2 : ℝ) ^ q = x ↔ t = 0 := by
    rw [← eq_div_iff pq.ne', hxq]
    have ht1 : ((signed negative v : ℤ) : ℝ) = (if negative then -((sig : ℝ) + t) else sig + t) ↔ (v : ℝ) = sig + t := by
      cases negative
      · simp [signed]
      · simp only [signed, if_true]
        push_cast
        exact neg_inj
    rw [ht1, hv]
    constructor
    · intro h
      cases up
      · simp at h; linarith
      · simp at h; linarith
    · intro h
      have : up = false := by
        subst h
        cases hm : m.rounding <;> rw [hm] at hup
        · exact hup.2.1 (by norm_num)
        · exact hup.1 rfl
        · exact hup.1 rfl
        · exact hup
      subst this; subst h; simp
  refine ⟨negative, top, signed negative v, hneg, b1, b2, ?_⟩
  simp only [← hq]
  refine ⟨hround, fun h => ?_, fun h => ?_⟩
  · rw [hyabs] at h
    rw [hval, if_pos (hbig.1 h)]
    refine ⟨?_, rfl⟩
    cases hm : m.rounding <;> cases negative <;> simp [FpFormat.OverflowsTo, FpFormat.overflowed, FpFormat.signBits]
  · rw [hyabs] at h
    have hni : ¬f.infBits ≤ n * 2 ^ f.fracBits + v := fun c => absurd (hbig.2 c) (not_lt.2 h)
    rw [hval, if_neg hni]
    refine ⟨?_, ?_, fun h => ?_, fun h ht => ?_, fun h ht => ?_⟩
    · obtain ⟨mm, ee, h1, h2⟩ := f.unpack_pattern negative v_le v_ge (not_le.1 hni)
      exact ⟨mm, ee, h1, by rw [← hyval, h2, hqn]⟩
    · have hi := not_le.1 hni
      rw [f.infBits_eq] at hi
      have h1 : n * 2 ^ f.fracBits + v < 2 ^ f.expBits * 2 ^ f.fracBits :=
        lt_of_lt_of_le hi (Nat.mul_le_mul_right _ (Nat.sub_le _ _))
      show n * 2 ^ f.fracBits + v + f.signBits negative < 2 ^ f.width
      rw [← pow_add] at h1
      have h2 : 2 ^ f.width = 2 ^ (f.expBits + f.fracBits) + 2 ^ (f.expBits + f.fracBits) := by
        rw [FpFormat.width, show 1 + f.expBits + f.fracBits = (f.expBits + f.fracBits) + 1 by omega, pow_succ]; omega
      have h3 : f.signBits negative ≤ 2 ^ (f.expBits + f.fracBits) := by
        cases negative <;> simp [FpFormat.signBits]
      omega
    · have := mt hr2.1 (not_not.2 (hexact.1 h))
      simp [this]
    · have := hr2.2 (mt hexact.2 h)
      simp [this, htiny.1 ht]
    · have := hr2.2 (mt hexact.2 h)
      simp [this, not_lt.1 (mt htiny.2 ht)]

/-! ### Quotients and roots -/

/-- A jammed quotient or root stands for the exact one. -/
theorem standsFor_jam {mag : ℝ} {v : Nat} {exact : Bool} {e : ℤ} (h0 : (v : ℝ) * (2 : ℝ) ^ (e + 1) ≤ mag)
    (h1 : mag < ((v : ℝ) + 1) * (2 : ℝ) ^ (e + 1)) (hx : exact = true ↔ mag = v * (2 : ℝ) ^ (e + 1)) :
    StandsFor mag (jam v exact) e := by
  have pe : (0 : ℝ) < (2 : ℝ) ^ e := by positivity
  rw [zpow_add₀ (by norm_num), zpow_one] at h0 h1 hx
  cases exact
  · right
    have hne : mag ≠ v * ((2 : ℝ) ^ e * 2) := fun c => by simpa using hx.2 c
    have hlt := lt_of_le_of_ne h0 (Ne.symm hne)
    refine ⟨by simp [jam], ?_, ?_⟩
    · simp only [jam, Bool.false_eq_true, if_false]; push_cast; linarith
    · simp only [jam, Bool.false_eq_true, if_false]; push_cast; linarith
  · left
    rw [hx.1 rfl]
    simp [jam]; ring

/-- A significand has one bit more than the fraction. -/
theorem FpFormat.mant_lt {f : FpFormat} {b : Nat} {s mant exp} (h : f.unpack b = .fin s mant exp) :
    mant < 2 ^ (f.fracBits + 1) := by
  have : f.fraction b < 2 ^ f.fracBits := Nat.mod_lt _ (by positivity)
  rw [pow_succ]
  simp only [FpFormat.unpack] at h
  split at h
  · split at h <;> cases h
  · split at h
    · cases h; omega
    · cases h; omega

/-- The integer square root. -/
theorem rootBits_spec (x : Nat) : ∀ n r, r * r ≤ x → x < (r + 2 ^ n) * (r + 2 ^ n) →
    rootBits x n r * rootBits x n r ≤ x ∧ x < (rootBits x n r + 1) * (rootBits x n r + 1)
  | 0, r, h0, h1 => by simpa [rootBits] using ⟨h0, h1⟩
  | n + 1, r, h0, h1 => by
    rw [rootBits]
    refine rootBits_spec x n _ ?_ ?_
    · split <;> assumption
    · have e : r + 2 ^ (n + 1) = r + 2 ^ n + 2 ^ n := by rw [pow_succ]; omega
      split
      · rw [← e]; exact h1
      · omega

/-! ### Finite operands -/

/-- Without a NaN among the operands the NaN rule does not apply. -/
theorem FpFormat.nanResult_none {f : FpFormat} {l : List Nat} (h : ∀ b ∈ l, f.isNan b = false) :
    f.nanResult l = none := by
  have hs : ∀ b ∈ l, f.signalling b = false := fun b hb => by simp [FpFormat.signalling, h b hb]
  have h1 : l.find? f.signalling = none := by rw [List.find?_eq_none]; intro b hb; simp [hs b hb]
  have h2 : l.find? f.isNan = none := by rw [List.find?_eq_none]; intro b hb; simp [h b hb]
  simp [FpFormat.nanResult, h1, h2]

theorem FpFormat.isNan_of_fin {f : FpFormat} {b : Nat} {s mant exp} (h : f.unpack b = .fin s mant exp) :
    f.isNan b = false := by
  simp only [FpFormat.unpack] at h
  split at h
  · split at h <;> cases h
  · rename_i h'
    simp [FpFormat.isNan, h']

theorem finValue_real (s : Bool) (mant : Nat) (exp : ℤ) :
    ((finValue s mant exp : ℚ) : ℝ) = ((signed s mant : ℤ) : ℝ) * (2 : ℝ) ^ exp := by
  rw [finValue_eq]; cases s <;> simp [signed]

/-- A finite value at a lower exponent. -/
theorem signed_zpow (s : Bool) (ma : Nat) {ea e : ℤ} (h : e ≤ ea) :
    ((finValue s ma ea : ℚ) : ℝ) = ((signed s (ma * 2 ^ (ea - e).toNat) : ℤ) : ℝ) * (2 : ℝ) ^ e := by
  rw [finValue_real, zpow_two_toNat h]; cases s <;> simp [signed] <;> ring

/-! ### The sign flipped -/

theorem FpFormat.width_pow (f : FpFormat) : 2 ^ f.width = 2 ^ (f.expBits + f.fracBits) + 2 ^ (f.expBits + f.fracBits) := by
  rw [FpFormat.width, show 1 + f.expBits + f.fracBits = (f.expBits + f.fracBits) + 1 by omega, pow_succ]; omega

theorem FpFormat.negative_iff (f : FpFormat) {b : Nat} (h : b < 2 ^ f.width) :
    f.negative b = true ↔ 2 ^ (f.expBits + f.fracBits) ≤ b := by
  have hp : 0 < 2 ^ (f.expBits + f.fracBits) := by positivity
  rw [f.width_pow] at h
  rw [FpFormat.negative, beq_iff_eq]
  constructor
  · intro h1; by_contra hc; rw [Nat.div_eq_of_lt (by omega)] at h1; omega
  · intro h1
    have : b / 2 ^ (f.expBits + f.fracBits) = 1 := by
      rw [Nat.div_eq_iff hp]; omega
    rw [this]

theorem FpFormat.flipSign_eq (f : FpFormat) {b : Nat} (h : b < 2 ^ f.width) : f.flipSign b = f.otherSign b := by
  have h' := h
  rw [f.width_pow] at h'
  rw [FpFormat.flipSign, FpFormat.otherSign, f.width_pow]
  split
  · rename_i hn
    have := (f.negative_iff h).1 hn
    rw [Nat.mod_eq_sub_mod (by omega), Nat.mod_eq_of_lt (by omega)]; omega
  · rename_i hn
    have := mt (f.negative_iff h).2 hn
    rw [Nat.mod_eq_of_lt (by omega)]

theorem FpFormat.flipSign_lt (f : FpFormat) {b : Nat} (h : b < 2 ^ f.width) : f.flipSign b < 2 ^ f.width := by
  rw [f.flipSign_eq h]; exact Nat.mod_lt _ (by positivity)

theorem FpFormat.flipSign_fields (f : FpFormat) {b : Nat} (h : b < 2 ^ f.width) :
    f.negative (f.flipSign b) = !f.negative b ∧ f.biased (f.flipSign b) = f.biased b ∧ f.fraction (f.flipSign b) = f.fraction b := by
  have hx : 2 ^ (f.expBits + f.fracBits) = 2 ^ f.expBits * 2 ^ f.fracBits := pow_add ..
  have hp : 0 < 2 ^ f.fracBits := by positivity
  have hl := f.flipSign_lt h
  have h' := h
  rw [f.width_pow] at h'
  cases hn : f.negative b
  · have h1 := mt (f.negative_iff h).2 (by simp [hn])
    have e : f.flipSign b = b + 2 ^ (f.expBits + f.fracBits) := by simp [FpFormat.flipSign, hn]
    refine ⟨(f.negative_iff hl).2 (by omega), ?_, ?_⟩
    · rw [e, FpFormat.biased, FpFormat.biased, hx, Nat.add_mul_div_right _ _ hp, Nat.add_mod_right]
    · rw [e, FpFormat.fraction, FpFormat.fraction, hx, Nat.add_mul_mod_self_right]
  · have h1 := (f.negative_iff h).1 hn
    have e : b = f.flipSign b + 2 ^ (f.expBits + f.fracBits) := by simp [FpFormat.flipSign, hn]; omega
    refine ⟨?_, ?_, ?_⟩
    · rw [Bool.not_true, Bool.eq_false_iff]; intro c; have := (f.negative_iff hl).1 c; omega
    · conv_rhs => rw [e]
      rw [FpFormat.biased, FpFormat.biased, hx, Nat.add_mul_div_right _ _ hp, Nat.add_mod_right]
    · conv_rhs => rw [e]
      rw [FpFormat.fraction, FpFormat.fraction, hx, Nat.add_mul_mod_self_right]

theorem FpFormat.unpack_flipSign (f : FpFormat) {b : Nat} (h : b < 2 ^ f.width) {s mant exp}
    (hu : f.unpack b = .fin s mant exp) :
    f.unpack (f.flipSign b) = .fin (!s) mant exp := by
  obtain ⟨h1, h2, h3⟩ := f.flipSign_fields h
  simp only [FpFormat.unpack, h1, h2, h3] at hu ⊢
  split at hu
  · split at hu <;> cases hu
  · rename_i h'
    rw [if_neg h']
    split at hu
    · rename_i h''; cases hu; simp [h'']
    · rename_i h''; cases hu; simp [h'']

theorem FpFormat.operand_lt (f : FpFormat) (m : FpMode) {b : Nat} (h : b < 2 ^ f.width) : f.operand m b < 2 ^ f.width := by
  rw [FpFormat.operand]; split
  · positivity
  · exact h

end Sys2Proof.Machine
end

