-- ==== Sys2Proof/Laws/Transfers.lean ====
section
/-! SUPPORT. The ends of the single transfers: what a load into a register, and a store, leave behind, with the base
written back or not. -/

namespace Sys2Proof.Machine

/-! ### Writing the base back (R230) -/

@[simp] theorem State.special_writeBack (s : State) (a : Address) (rn : Reg) :
    (s.writeBack a rn).special = s.special := by
  unfold State.writeBack
  split <;> simp

theorem State.reg_writeBack_base {s : State} {a : Address} {rn : Reg} (hw : a.writeback = true) (hr : rn ≠ 15#4) :
    (s.writeBack a rn).reg rn = a.target := by
  rw [State.writeBack, if_pos hw, State.reg_setReg_self _ _ _ hr]

theorem State.reg_writeBack_ne {s : State} {a : Address} {rn r : Reg} (h : r ≠ rn) :
    (s.writeBack a rn).reg r = s.reg r := by
  unfold State.writeBack
  split
  · exact State.reg_setReg_ne _ _ _ _ h
  · rfl

/-- The registers that a writeback writes. -/
abbrev Address.written (a : Address) (rn : Reg) : List Reg := if a.writeback then [rn] else []

theorem State.RegsKept.writeBack {s t : State} {w : List Reg} (h : s.RegsKept t w) (hm : t.cpsr.m = s.cpsr.m)
    {a : Address} {rn : Reg} (hw : a.writeback = true → rn ∈ w) : s.RegsKept (t.writeBack a rn) w := by
  unfold State.writeBack
  split
  · exact h.setReg hm (hw (by assumption)) _
  · exact h

/-! ### Loads -/

/-- A load into a register other than r15, after the base is written back: the pc moves on. -/
theorem State.advance_loaded {s : State} {a : Address} {rn rd : Reg} (v : Word) (hg : s.CanGoOn) :
    ((s.writeBack a rn).setReg rd v).advance = .ok (((s.writeBack a rn).setReg rd v).setPc s.next) :=
  State.advance_of (by simp) (by simp) hg

/-- What such a load leaves. -/
theorem State.loaded_state {s : State} {a : Address} {rn rd : Reg} (v : Word) (hd : rd ≠ 15#4)
    (hb : a.writeback = true → rn ≠ 15#4 ∧ rn ≠ rd) :
    let t := ((s.writeBack a rn).setReg rd v).setPc s.next
    t.reg rd = v ∧ (a.writeback = true → t.reg rn = a.target) ∧ s.FlagsKept t ∧
      ∀ w : List Reg, rd ∈ w → (a.writeback = true → rn ∈ w) → s.GoesOn t w := by
  refine ⟨?_, fun hw => ?_, ?_, fun w h1 h2 => ⟨rfl, ?_, State.MemKept.of_mem (by simp), by simp⟩⟩
  · rw [State.reg_setPc _ _ _ hd, State.reg_setReg_self _ _ _ hd]
  · rw [State.reg_setPc _ _ _ (hb hw).1, State.reg_setReg_ne _ _ _ _ (hb hw).2, State.reg_writeBack_base hw (hb hw).1]
  · simp [State.FlagsKept]
  · exact (((State.RegsKept.refl s w).writeBack rfl h2).setReg (by simp) h1 v).congr rfl

/-! ### Stores -/

/-- What a store leaves: `u` is the state after memory is written, the same in all else. -/
theorem State.stored_state {s u : State} {a : Address} {rn : Reg} {lo : Word} {n : Nat}
    (hu : u = { s with mem := u.mem }) (ho : s.MemKeptOutside u lo n) (hb : a.writeback = true → rn ≠ 15#4)
    (hg : s.CanGoOn) :
    ∃ t, (u.writeBack a rn).advance = .ok t ∧ t.mem = u.mem ∧ t.cfg = s.cfg ∧
      (a.writeback = true → t.reg rn = a.target) ∧ s.GoesOnStoring t (a.written rn) lo n := by
  have hp : u.pc = s.pc := by rw [hu]
  have hc : u.cpsr = s.cpsr := by rw [hu]
  have hr : u.gpr = s.gpr := by rw [hu]
  have hf : u.cfg = s.cfg := by rw [hu]
  have hs : u.special = s.special := by
    rw [hu]
    rfl
  refine ⟨_, State.advance_of (s := s) (by simpa using hp) (by simp [hc]) hg, by simp, by simpa using hf,
    fun hw => ?_, rfl, ?_, ?_, ?_, by simpa using hs⟩
  · rw [State.reg_setPc _ _ _ (hb hw), State.reg_writeBack_base hw (hb hw)]
  · refine (((State.RegsKept.of_gpr _ hr : s.RegsKept u (a.written rn)).writeBack (by rw [hc]) fun hw => ?_).congr rfl)
    simp [Address.written, hw]
  · intro b hb
    rw [← ho b hb]
    exact State.byte_congr (by simp) b
  · simp [State.FlagsKept, hc]

theorem State.setByte_frame (s : State) (a : Word) (v : Byte) : s.setByte a v = { s with mem := (s.setByte a v).mem } := rfl

theorem State.setHalf_frame (s : State) (a : Word) (v : Half) : s.setHalf a v = { s with mem := (s.setHalf a v).mem } := by
  unfold State.setHalf
  split <;> rfl

theorem State.memKept_setByte (s : State) (a : Word) (v : Byte) : s.MemKeptOutside (s.setByte a v) a 1 := by
  intro b hb
  refine State.byte_setByte_ne _ _ _ _ ?_
  rintro rfl
  simp at hb

theorem State.memKept_setHalf (s : State) (a : Word) (v : Half) : s.MemKeptOutside (s.setHalf a v) a 2 :=
  fun b hb => State.byte_setHalf_outside s a b v hb

theorem State.memKept_setWord (s : State) (a v : Word) : s.MemKeptOutside (s.setWord a v) a 4 :=
  fun b hb => State.byte_setWord_outside s a b v hb

end Sys2Proof.Machine
end

