-- ==== Sys2Proof/Laws/Vfp.lean ====
section
/-! SUPPORT. The VFP registers read back as written; what the shared VFP operations do: the tests for the VFP and its
traps, the elements of an operation, the ends of arithmetic, conversions and comparisons. -/

namespace Sys2Proof.Machine

/-! ### The registers (R40) -/

theorem fin32_ne {i j : Nat} (hi : i < 32) (hj : j < 32) (h : j ≠ i) : Fin.ofNat 32 j ≠ Fin.ofNat 32 i := by
  intro e
  have := congrArg Fin.val e
  simp only [Fin.ofNat] at this
  omega

theorem State.sreg_setSreg_self (s : State) (i : Nat) (v : Word) : (s.setSreg i v).sreg i = v := by
  exact vector_get_set_self ..

theorem State.sreg_setSreg_ne (s : State) {i j : Nat} (v : Word) (hi : i < 32) (hj : j < 32) (h : j ≠ i) :
    (s.setSreg i v).sreg j = s.sreg j := by
  exact vector_get_set_ne _ _ _ _ (fin32_ne hi hj h)

theorem State.sreg_congr {s t : State} (h : t.vfp = s.vfp) (i : Nat) : t.sreg i = s.sreg i := by
  simp [State.sreg, h]

theorem State.dreg_congr {s t : State} (h : t.vfp = s.vfp) (i : Nat) : t.dreg i = s.dreg i := by
  simp [State.dreg, State.sreg_congr h]

theorem State.sreg_setDreg_low (s : State) {i : Nat} (v : DWord) (hi : i < 16) :
    (s.setDreg i v).sreg (2 * i) = v.extractLsb' 0 32 := by
  rw [State.setDreg, State.sreg_setSreg_ne _ _ (by omega) (by omega) (by omega), State.sreg_setSreg_self]

theorem State.sreg_setDreg_high (s : State) (i : Nat) (v : DWord) :
    (s.setDreg i v).sreg (2 * i + 1) = v.extractLsb' 32 32 := by
  rw [State.setDreg, State.sreg_setSreg_self]

theorem State.sreg_setDreg_ne (s : State) {i j : Nat} (v : DWord) (hi : i < 16) (hj : j < 32) (h : j / 2 ≠ i) :
    (s.setDreg i v).sreg j = s.sreg j := by
  rw [State.setDreg, State.sreg_setSreg_ne _ _ (by omega) hj (by omega),
    State.sreg_setSreg_ne _ _ (by omega) hj (by omega)]

theorem State.dreg_setDreg_self (s : State) {i : Nat} (v : DWord) (hi : i < 16) : (s.setDreg i v).dreg i = v := by
  rw [State.dreg, State.sreg_setDreg_low _ _ hi, State.sreg_setDreg_high, dword_split]

theorem State.dreg_setDreg_ne (s : State) {i j : Nat} (v : DWord) (hi : i < 16) (hj : j < 16) (h : j ≠ i) :
    (s.setDreg i v).dreg j = s.dreg j := by
  rw [State.dreg, State.dreg, State.sreg_setDreg_ne _ _ hi (by omega) (by omega),
    State.sreg_setDreg_ne _ _ hi (by omega) (by omega)]

/-- A register of a precision reads back as the bits that fit it. -/
theorem State.freg_setFreg_self (s : State) (p : Precision) {i : Nat} (b : Nat) (hi : i < 4 * p.bankSize) :
    (s.setFreg p i b).freg p i = b % 2 ^ p.width := by
  cases p
  · simp [State.freg, State.setFreg, State.sreg_setSreg_self, Precision.width]
  · have : i < 16 := hi
    simp [State.freg, State.setFreg, State.dreg_setDreg_self _ _ this, Precision.width]

theorem State.freg_setFreg_ne (s : State) (p : Precision) {i j : Nat} (b : Nat) (hi : i < 4 * p.bankSize)
    (hj : j < 4 * p.bankSize) (h : j ≠ i) : (s.setFreg p i b).freg p j = s.freg p j := by
  cases p
  · simp [State.freg, State.setFreg, State.sreg_setSreg_ne _ _ (show i < 32 from hi) (show j < 32 from hj) h]
  · simp [State.freg, State.setFreg, State.dreg_setDreg_ne _ _ (show i < 16 from hi) (show j < 16 from hj) h]

theorem State.freg_congr {s t : State} (p : Precision) (h : t.vfp = s.vfp) (i : Nat) : t.freg p i = s.freg p i := by
  cases p
  · simp [State.freg, State.sreg_congr h]
  · simp [State.freg, State.dreg_congr h]

theorem State.freg_lt (s : State) (p : Precision) (i : Nat) : s.freg p i < 2 ^ p.width := by
  cases p
  · exact (s.sreg i).isLt
  · exact (s.dreg i).isLt

/-- Writing a VFP register changes the VFP registers alone. -/
theorem State.setFreg_frame (s : State) (p : Precision) (i b : Nat) :
    s.setFreg p i b = { s with vfp := (s.setFreg p i b).vfp } := by cases p <;> rfl

/-! ### When an instruction runs (R500, R504, R610) -/

theorem Arch.hasFpu_eq (a : Arch) : a.hasFpu = decide (a.fpu ≠ .none) := by
  unfold Arch.hasFpu
  cases a.fpu <;> rfl

theorem State.needVfp_ok {s : State} (h : s.vfpEnabled = true) : s.needVfp = .ok () := by simp [State.needVfp, h]

theorem State.needVfp_undefined {s : State} (h : s.vfpEnabled = false) :
    s.needVfp = .error (.exc .undefined) := by simp [State.needVfp, h, raise]

/-- A VFP instruction without a VFP that is enabled (R500). -/
theorem State.vfpRule_disabled {s : State} {c : Cond} (h : s.cpsr.passed c = true) (he : s.vfpEnabled = false)
    (rule : State → Except Trap State) : s.vfpRule c rule = .next (s.takeException .undefined) := by
  simp [State.vfpRule, State.ifPassed_true h, State.needVfp_undefined he]

theorem State.refuseTraps_ok {s : State} (h : s.trapEnables = 0#5) : s.refuseTraps = .ok () := if_pos h

theorem State.refuseTraps_refused {s : State} (h : s.trapEnables ≠ 0#5) :
    s.refuseTraps = .error (.refused .vfpTrapEnabled) := if_neg h

theorem State.refuseTrapped_ok {s : State} {e : FpExc} (h : s.trapEnables &&& e = 0#5) :
    s.refuseTrapped e = .ok () := if_pos h

theorem State.refuseTrapped_refused {s : State} {e : FpExc} (h : s.trapEnables &&& e ≠ 0#5) :
    s.refuseTrapped e = .error (.refused .vfpTrapEnabled) := if_neg h

/-! ### Scalar operation (R503) -/

theorem State.elements_scalar {s : State} {p : Precision} {fd : Nat} (h : s.scalar p fd) (fn fm : Nat) :
    s.elements p fd fn fm = .ok [{ d := fd, n := fn, m := fm }] := by
  have : (decide (s.vecLen = 1) || p.firstBank fd) = true := by simpa using h
  simp [State.elements, h]

/-- A scalar operation writes Fd and adds its exceptions. -/
theorem State.vfpOperate_scalar {s : State} {p : Precision} {fd : Nat} (h : s.scalar p fd) (hg : s.CanGoOn) (fn fm : Nat)
    (op : Nat → Nat → Nat → FpResult) :
    let r := op (s.freg p fd) (s.freg p fn) (s.freg p fm)
    s.vfpOperate p fd fn fm op = .ok (((s.setFreg p fd r.bits).cumulate r.exc).setPc s.next) := by
  rw [State.vfpOperate, State.elements_scalar h]
  exact State.advance_of (by simp [State.runElements]) (by simp [State.runElements]) hg

/-- The end of a conversion. -/
theorem State.vfpConvert_ok {s : State} {p : Precision} {fd : Nat} {r : FpResult} (h : s.trapEnables &&& r.exc = 0#5)
    (hg : s.CanGoOn) :
    s.vfpConvert p fd r = .ok (((s.setFreg p fd r.bits).cumulate r.exc).setPc s.next) := by
  rw [State.vfpConvert, State.refuseTrapped_ok h]
  exact State.advance_of (by simp) (by simp) hg

/-- The end of a comparison. -/
theorem State.vfpCompare_ok {s : State} {c : FpComparison} (h : s.trapEnables &&& c.exc = 0#5) (hg : s.CanGoOn) :
    s.vfpCompare c = .ok (((s.setFpFlags c.flags).cumulate c.exc).setPc s.next) := by
  rw [State.vfpCompare, State.refuseTrapped_ok h]
  exact State.advance_of (by simp) (by simp) hg

/-- What writing one register of a precision with its exceptions leaves. -/
theorem State.wroteFreg (s : State) (p : Precision) {fd : Nat} (b : Nat) (e : FpExc) (hd : fd < 4 * p.bankSize) :
    let t := ((s.setFreg p fd b).cumulate e).setPc s.next
    t.freg p fd = b % 2 ^ p.width ∧ t.fpscr = s.fpscr ||| e.zeroExtend 32 ∧
      (∀ j < 4 * p.bankSize, j ≠ fd → t.freg p j = s.freg p j) ∧ s.VfpOnly t := by
  refine ⟨?_, by simp, fun j hj hn => ?_, ?_⟩
  · rw [State.freg_congr p (s := s.setFreg p fd b) (by simp), State.freg_setFreg_self _ _ _ hd]
  · rw [State.freg_congr p (s := s.setFreg p fd b) (by simp), State.freg_setFreg_ne _ _ _ hd hj hn]
  · rw [State.setFreg_frame]
    rfl

end Sys2Proof.Machine
end

