-- ==== Sys2Proof/Tests/Slice0.lean ====
section
/-! SUPPORT. Tests of the model: the check of well-formedness refuses ill-formed terms; every constructor's encoding,
read and written; single steps whose results are those of 95_test_vectors.md; and, for each statement of
`Sys2Proof.Certificates.Slice0.Obligations` that has hypotheses, states and operands that meet them. -/

namespace Sys2Proof.Tests

set_option Elab.async false

open Sys2Proof Sys2Proof.Machine

/-! ### Well-formedness: for each check a term that it refuses -/

theorem test_wf_unallocated : (Instr.unallocatedUncond 0x5D1F004#28).wf = false := by decide
theorem test_wf_fmrx : (Instr.fmrx .al 1#4 15#4).wf = false := by decide
theorem test_wf_mcrr_mrrc :
    (Instr.mcrr .al 1#4 2#4 0#4 0#4 0#4).wf = false ∧ (Instr.mrrc .al 1#4 2#4 0#4 0#4 0#4).wf = false := by decide
theorem test_wf_word_byte_T_forms :
    (Instr.ldrImm .al false true true 1#4 0#4 4#12).wf = false ∧
    (Instr.strImm .al false true true 1#4 0#4 4#12).wf = false ∧
    (Instr.ldrbImm .al false true true 1#4 0#4 4#12).wf = false ∧
    (Instr.strbImm .al false true true 1#4 0#4 4#12).wf = false ∧
    (Instr.ldrReg .al false true true 1#4 0#4 0#5 .lsl 2#4).wf = false ∧
    (Instr.strReg .al false true true 1#4 0#4 0#5 .lsl 2#4).wf = false ∧
    (Instr.ldrbReg .al false true true 1#4 0#4 0#5 .lsl 2#4).wf = false ∧
    (Instr.strbReg .al false true true 1#4 0#4 0#5 .lsl 2#4).wf = false := by decide
theorem test_wf_mcr_accumulator : (Instr.mcr .al 1#3 8#4 0#4 0#4 0#3 1#4).wf = false := by decide
theorem test_wf_mcr_mrc_vfp :
    (Instr.mcr .al 0#3 1#4 0#4 10#4 0#3 0#4).wf = false ∧ (Instr.mrc .al 1#3 1#4 0#4 11#4 0#3 0#4).wf = false :=
  by decide
theorem test_wf_ldc_stc_vfp :
    (Instr.ldcPost .al true false 1#4 0#4 10#4 4#8).wf = false ∧
    (Instr.stcPost .al true false 1#4 0#4 11#4 4#8).wf = false ∧
    (Instr.ldcPre .al true false false 1#4 0#4 10#4 4#8).wf = false ∧
    (Instr.stcPre .al false false true 1#4 0#4 11#4 4#8).wf = false := by decide
theorem test_wf_cdp_vfp : (Instr.cdp .al 3#4 0#4 0#4 10#4 0#3 0#4).wf = false := by decide
theorem test_wf_thumb_condition : (Instr.tBCond .al 0#8).wf = false := by decide

/-! ### Every constructor: a word written out from its encoding (30_encoding.md) decodes to it, and it is encoded so -/

theorem test_decode_preload_branch_swi : ∀ p ∈ ([
    (.arm 0xF7DFF56D#32, .pldReg true 0xF#4 0xA#5 .ror 0xD#4),
    (.arm 0xF5D1F94C#32, .pldImm true 1#4 0x94C#12),
    (.arm 0xFAE44550#32, .blxLabel false 0xE44550#24),
    (.arm 0x3ADF2348#32, .b .cc 0xDF2348#24),
    (.arm 0xBBB338EB#32, .bl .lt 0xB338EB#24),
    (.arm 0x3F96C6C8#32, .swi .cc 0x96C6C8#24),
    (.arm 0xF65EDA32#32, .unallocatedUncond 0x65EDA32#28)] : List (Code × Instr)),
    decode Arch.full true p.1 = .instr p.2 ∧ encode p.2 = p.1 := by decide +kernel

theorem test_decode_coprocessor : ∀ p ∈ ([
    (.arm 0xFE4D3E37#32, .mcr2 2#3 0xD#4 3#4 0xE#4 1#3 7#4),
    (.arm 0xFE5B5FBB#32, .mrc2 2#3 0xB#4 5#4 0xF#4 5#3 0xB#4),
    (.arm 0xFCB9108D#32, .ldc2Post true false 9#4 1#4 0#4 0x8D#8),
    (.arm 0xFCEDE805#32, .stc2Post true true 0xD#4 0xE#4 8#4 5#8),
    (.arm 0xFE34D7C1#32, .cdp2 3#4 4#4 0xD#4 7#4 6#3 1#4),
    (.arm 0xFDBB4876#32, .ldc2Pre true false true 0xB#4 4#4 8#4 0x76#8),
    (.arm 0xFD01E2BD#32, .stc2Pre false false false 1#4 0xE#4 2#4 0xBD#8),
    (.arm 0x0C4793F5#32, .mcrr .eq 7#4 9#4 3#4 0xF#4 5#4),
    (.arm 0x2C57C1EC#32, .mrrc .cs 7#4 0xC#4 1#4 0xE#4 0xC#4),
    (.arm 0x9E4768F0#32, .mcr .ls 2#3 7#4 6#4 8#4 7#3 0#4),
    (.arm 0x7ED55EF6#32, .mrc .vc 6#3 5#4 5#4 0xE#4 7#3 6#4),
    (.arm 0xDC357E9D#32, .ldcPost .le false false 5#4 7#4 0xE#4 0x9D#8),
    (.arm 0x9C2719FD#32, .stcPost .ls false false 7#4 1#4 9#4 0xFD#8),
    (.arm 0x3E775505#32, .cdp .cc 7#4 7#4 5#4 5#4 0#3 5#4),
    (.arm 0xDD5B77F2#32, .ldcPre .le false true false 0xB#4 7#4 7#4 0xF2#8),
    (.arm 0x9D461CB5#32, .stcPre .ls false true false 6#4 1#4 0xC#4 0xB5#8)] : List (Code × Instr)),
    decode Arch.full true p.1 = .instr p.2 ∧ encode p.2 = p.1 := by decide +kernel

theorem test_decode_accumulator_swap : ∀ p ∈ ([
    (.arm 0x8E20F016#32, .mia .hi 0xF#4 6#4),
    (.arm 0x1E28901B#32, .miaph .ne 9#4 0xB#4),
    (.arm 0x0E2EB013#32, .miaXY .eq true false 0xB#4 3#4),
    (.arm 0x0C4DD000#32, .mar .eq 0xD#4 0xD#4),
    (.arm 0x1C5A2000#32, .mra .ne 0xA#4 2#4),
    (.arm 0x810C609A#32, .swp .hi 0xC#4 6#4 0xA#4),
    (.arm 0x414E8090#32, .swpb .mi 0xE#4 8#4 0#4)] : List (Code × Instr)),
    decode Arch.full true p.1 = .instr p.2 ∧ encode p.2 = p.1 := by decide +kernel

theorem test_decode_misc : ∀ p ∈ ([
    (.arm 0xE102E05F#32, .qadd .al 2#4 0xE#4 0xF#4),
    (.arm 0xD128505A#32, .qsub .le 8#4 5#4 0xA#4),
    (.arm 0x114CD05A#32, .qdadd .ne 0xC#4 0xD#4 0xA#4),
    (.arm 0xB163005C#32, .qdsub .lt 3#4 0#4 0xC#4),
    (.arm 0x412FFF17#32, .bx .mi 7#4),
    (.arm 0x512FFF3C#32, .blxReg .pl 0xC#4),
    (.arm 0xC16FAF12#32, .clz .gt 0xA#4 2#4),
    (.arm 0x312B6276#32, .bkpt .cc 0xB62#12 6#4),
    (.arm 0x010FB000#32, .mrs .eq false 0xB#4),
    (.arm 0x3128F00F#32, .msrReg .cc false 8#4 0xF#4),
    (.arm 0x1321FB57#32, .msrImm .ne false 1#4 0xB#4 0x57#8)] : List (Code × Instr)),
    decode Arch.full true p.1 = .instr p.2 ∧ encode p.2 = p.1 := by decide +kernel

theorem test_decode_multiply : ∀ p ∈ ([
    (.arm 0x10180B94#32, .mul .ne true 8#4 0xB#4 4#4),
    (.arm 0xD039B49C#32, .mla .le true 9#4 0xB#4 4#4 0xC#4),
    (.arm 0x40989C93#32, .umull .mi true 8#4 9#4 0xC#4 3#4),
    (.arm 0x60B28D9A#32, .umlal .vs true 2#4 8#4 0xD#4 0xA#4),
    (.arm 0x10DB8A9A#32, .smull .ne true 0xB#4 8#4 0xA#4 0xA#4),
    (.arm 0x00F2EF95#32, .smlal .eq true 2#4 0xE#4 0xF#4 5#4),
    (.arm 0xD1294B85#32, .smlawY .le 9#4 4#4 0xB#4 false 5#4),
    (.arm 0xA12500EE#32, .smulwY .ge 5#4 0#4 true 0xE#4),
    (.arm 0x9105388E#32, .smlaXY .ls 5#4 3#4 8#4 false false 0xE#4),
    (.arm 0xA143F581#32, .smlalXY .ge 3#4 0xF#4 5#4 false false 1#4),
    (.arm 0x31600FCD#32, .smulXY .cc 0#4 0xF#4 true false 0xD#4)] : List (Code × Instr)),
    decode Arch.full true p.1 = .instr p.2 ∧ encode p.2 = p.1 := by decide +kernel

theorem test_decode_data_register_shift : ∀ p ∈ ([
    (.arm 0xB11A0A1D#32, .tstRegReg .lt 0xA#4 0xA#4 .lsl 0xD#4),
    (.arm 0x613D0A5B#32, .teqRegReg .vs 0xD#4 0xA#4 .asr 0xB#4),
    (.arm 0x6157031F#32, .cmpRegReg .vs 7#4 3#4 .lsl 0xF#4),
    (.arm 0x11720414#32, .cmnRegReg .ne 2#4 4#4 .lsl 4#4),
    (.arm 0x50045471#32, .andRegReg .pl false 4#4 5#4 4#4 .ror 1#4),
    (.arm 0x0020D611#32, .eorRegReg .eq false 0#4 0xD#4 6#4 .lsl 1#4),
    (.arm 0x60591858#32, .subRegReg .vs true 9#4 1#4 8#4 .asr 8#4),
    (.arm 0xC06EF174#32, .rsbRegReg .gt false 0xE#4 0xF#4 1#4 .ror 4#4),
    (.arm 0xE09FBF5D#32, .addRegReg .al true 0xF#4 0xB#4 0xF#4 .asr 0xD#4),
    (.arm 0x10B4B371#32, .adcRegReg .ne true 4#4 0xB#4 3#4 .ror 1#4),
    (.arm 0x20D4EA18#32, .sbcRegReg .cs true 4#4 0xE#4 0xA#4 .lsl 8#4),
    (.arm 0x30F3475E#32, .rscRegReg .cc true 3#4 4#4 7#4 .asr 0xE#4),
    (.arm 0x71864C3C#32, .orrRegReg .vc false 6#4 4#4 0xC#4 .lsr 0xC#4),
    (.arm 0xC1A09A1E#32, .movRegReg .gt false 9#4 0xA#4 .lsl 0xE#4),
    (.arm 0x71C07316#32, .bicRegReg .vc false 0#4 7#4 3#4 .lsl 6#4),
    (.arm 0x21F05058#32, .mvnRegReg .cs true 5#4 0#4 .asr 8#4)] : List (Code × Instr)),
    decode Arch.full true p.1 = .instr p.2 ∧ encode p.2 = p.1 := by decide +kernel

theorem test_decode_data_immediate_shift : ∀ p ∈ ([
    (.arm 0xB11F00AE#32, .tstRegImm .lt 0xF#4 1#5 .lsr 0xE#4),
    (.arm 0x113E0BC1#32, .teqRegImm .ne 0xE#4 0x17#5 .asr 1#4),
    (.arm 0x015D02AF#32, .cmpRegImm .eq 0xD#4 5#5 .lsr 0xF#4),
    (.arm 0x01750C84#32, .cmnRegImm .eq 5#4 0x19#5 .lsl 4#4),
    (.arm 0x101377AF#32, .andRegImm .ne true 3#4 7#4 0xF#5 .lsr 0xF#4),
    (.arm 0x60351C40#32, .eorRegImm .vs true 5#4 1#4 0x18#5 .asr 0#4),
    (.arm 0x6056A3CE#32, .subRegImm .vs true 6#4 0xA#4 7#5 .asr 0xE#4),
    (.arm 0x307E5D6D#32, .rsbRegImm .cc true 0xE#4 5#4 0x1A#5 .ror 0xD#4),
    (.arm 0x009EDC8E#32, .addRegImm .eq true 0xE#4 0xD#4 0x19#5 .lsl 0xE#4),
    (.arm 0x40B14889#32, .adcRegImm .mi true 1#4 4#4 0x11#5 .lsl 9#4),
    (.arm 0xD0C4FD26#32, .sbcRegImm .le false 4#4 0xF#4 0x1A#5 .lsr 6#4),
    (.arm 0xC0EC6046#32, .rscRegImm .gt false 0xC#4 6#4 0#5 .asr 6#4),
    (.arm 0x31911AE2#32, .orrRegImm .cc true 1#4 1#4 0x15#5 .ror 2#4),
    (.arm 0x21B06007#32, .movRegImm .cs true 6#4 0#5 .lsl 7#4),
    (.arm 0x61CF2EAE#32, .bicRegImm .vs false 0xF#4 2#4 0x1D#5 .lsr 0xE#4),
    (.arm 0xD1F071C5#32, .mvnRegImm .le true 7#4 3#5 .asr 5#4)] : List (Code × Instr)),
    decode Arch.full true p.1 = .instr p.2 ∧ encode p.2 = p.1 := by decide +kernel

theorem test_decode_data_immediate : ∀ p ∈ ([
    (.arm 0x931D0982#32, .tstImm .ls 0xD#4 9#4 0x82#8),
    (.arm 0x433C04C8#32, .teqImm .mi 0xC#4 4#4 0xC8#8),
    (.arm 0xE356052C#32, .cmpImm .al 6#4 5#4 0x2C#8),
    (.arm 0x037604BF#32, .cmnImm .eq 6#4 4#4 0xBF#8),
    (.arm 0x32171E1B#32, .andImm .cc true 7#4 1#4 0xE#4 0x1B#8),
    (.arm 0x7228E022#32, .eorImm .vc false 8#4 0xE#4 0#4 0x22#8),
    (.arm 0x425E7A60#32, .subImm .mi true 0xE#4 7#4 0xA#4 0x60#8),
    (.arm 0x027385C9#32, .rsbImm .eq true 3#4 8#4 5#4 0xC9#8),
    (.arm 0xC28EFDD8#32, .addImm .gt false 0xE#4 0xF#4 0xD#4 0xD8#8),
    (.arm 0x92BECB54#32, .adcImm .ls true 0xE#4 0xC#4 0xB#4 0x54#8),
    (.arm 0x52D66C21#32, .sbcImm .pl true 6#4 6#4 0xC#4 0x21#8),
    (.arm 0xD2EDD9F3#32, .rscImm .le false 0xD#4 0xD#4 9#4 0xF3#8),
    (.arm 0x439BF090#32, .orrImm .mi true 0xB#4 0xF#4 0#4 0x90#8),
    (.arm 0x63B008D6#32, .movImm .vs true 0#4 8#4 0xD6#8),
    (.arm 0x13CA3F70#32, .bicImm .ne false 0xA#4 3#4 0xF#4 0x70#8),
    (.arm 0x13E01452#32, .mvnImm .ne false 1#4 4#4 0x52#8)] : List (Code × Instr)),
    decode Arch.full true p.1 = .instr p.2 ∧ encode p.2 = p.1 := by decide +kernel

theorem test_decode_half_double : ∀ p ∈ ([
    (.arm 0xA0CCA0BB#32, .strhImm .ge false true false 0xC#4 0xA#4 0#4 0xB#4),
    (.arm 0x812DF0B0#32, .strhReg .hi true false true 0xD#4 0xF#4 0#4),
    (.arm 0x307A07B2#32, .ldrhImm .cc false false true 0xA#4 0#4 7#4 2#4),
    (.arm 0x709A60BF#32, .ldrhReg .vc false true false 0xA#4 6#4 0xF#4),
    (.arm 0x805501D4#32, .ldrsbImm .hi false false false 5#4 0#4 1#4 4#4),
    (.arm 0x3090B0D4#32, .ldrsbReg .cc false true false 0#4 0xB#4 4#4),
    (.arm 0xB15D6BF8#32, .ldrshImm .lt true false false 0xD#4 6#4 0xB#4 8#4),
    (.arm 0xC0BF60FE#32, .ldrshReg .gt false true true 0xF#4 6#4 0xE#4),
    (.arm 0x21C70FDB#32, .ldrdImm .cs true true false 7#4 0#4 0xF#4 0xB#4),
    (.arm 0x6102B0DD#32, .ldrdReg .vs true false false 2#4 0xB#4 0xD#4),
    (.arm 0xA0CA83F2#32, .strdImm .ge false true false 0xA#4 8#4 3#4 2#4),
    (.arm 0x602D80F7#32, .strdReg .vs false false true 0xD#4 8#4 7#4)] : List (Code × Instr)),
    decode Arch.full true p.1 = .instr p.2 ∧ encode p.2 = p.1 := by decide +kernel

theorem test_decode_word_byte : ∀ p ∈ ([
    (.arm 0x07B8670D#32, .ldrReg .eq true true true 8#4 6#4 0xE#5 .lsl 0xD#4),
    (.arm 0x97ADBCE7#32, .strReg .ls true true true 0xD#4 0xB#4 0x19#5 .ror 7#4),
    (.arm 0x5777FF08#32, .ldrbReg .pl true false true 7#4 0xF#4 0x1E#5 .lsl 8#4),
    (.arm 0x97452C07#32, .strbReg .ls true false false 5#4 2#4 0x18#5 .lsl 7#4),
    (.arm 0xD594A054#32, .ldrImm .le true true false 4#4 0xA#4 0x54#12),
    (.arm 0x64874145#32, .strImm .vs false true false 7#4 4#4 0x145#12),
    (.arm 0x24DDCC0A#32, .ldrbImm .cs false true false 0xD#4 0xC#4 0xC0A#12),
    (.arm 0xA4C31ED4#32, .strbImm .ge false true false 3#4 1#4 0xED4#12),
    (.arm 0x963DE24E#32, .ldrtReg .ls false 0xD#4 0xE#4 4#5 .asr 0xE#4),
    (.arm 0xA62F576A#32, .strtReg .ge false 0xF#4 5#4 0xE#5 .ror 0xA#4),
    (.arm 0x96F3A3C9#32, .ldrbtReg .ls true 3#4 0xA#4 7#5 .asr 9#4),
    (.arm 0x16EF684D#32, .strbtReg .ne true 0xF#4 6#4 0x10#5 .asr 0xD#4),
    (.arm 0x343F8BD1#32, .ldrtImm .cc false 0xF#4 8#4 0xBD1#12),
    (.arm 0x942E1B8B#32, .strtImm .ls false 0xE#4 1#4 0xB8B#12),
    (.arm 0xA4F7647A#32, .ldrbtImm .ge true 7#4 6#4 0x47A#12),
    (.arm 0x34661858#32, .strbtImm .cc false 6#4 1#4 0x858#12)] : List (Code × Instr)),
    decode Arch.full true p.1 = .instr p.2 ∧ encode p.2 = p.1 := by decide +kernel

theorem test_decode_multiple : ∀ p ∈ ([
    (.arm 0x78557241#32, .ldmUser .vc false false false 5#4 0x7241#15),
    (.arm 0x28D18FA7#32, .ldmReturn .cs false true false 1#4 0xFA7#15),
    (.arm 0x29356991#32, .ldm .cs true false true 5#4 0x6991#16),
    (.arm 0x4981540C#32, .stm .mi true true false 1#4 0x540C#16),
    (.arm 0xE8CE752F#32, .stmUser .al false true false 0xE#4 0x752F#16)] : List (Code × Instr)),
    decode Arch.full true p.1 = .instr p.2 ∧ encode p.2 = p.1 := by decide +kernel

theorem test_decode_vfp_two_operand : ∀ p ∈ ([
    (.arm 0x2EF0EA68#32, .fcpys .cs 0x1D#5 0x11#5),
    (.arm 0xCEB06B49#32, .fcpyd .gt 6#4 9#4),
    (.arm 0x8EB07AC2#32, .fabss .hi 0xE#5 4#5),
    (.arm 0x7EB09BC6#32, .fabsd .vc 9#4 6#4),
    (.arm 0xAEB1FA69#32, .fnegs .ge 0x1E#5 0x13#5),
    (.arm 0x9EB16B4D#32, .fnegd .ls 6#4 0xD#4),
    (.arm 0xCEB18AC3#32, .fsqrts .gt 0x10#5 6#5),
    (.arm 0x2EB11BC5#32, .fsqrtd .cs 1#4 5#4),
    (.arm 0x1EB47A43#32, .fcmps .ne 0xE#5 6#5),
    (.arm 0x7EB4EB46#32, .fcmpd .vc 0xE#4 6#4),
    (.arm 0x4EB4BAC1#32, .fcmpes .mi 0x16#5 2#5),
    (.arm 0x2EB4ABCC#32, .fcmped .cs 0xA#4 0xC#4),
    (.arm 0x1EB52A40#32, .fcmpzs .ne 4#5),
    (.arm 0x8EB5DB40#32, .fcmpzd .hi 0xD#4),
    (.arm 0xCEF5DAC0#32, .fcmpezs .gt 0x1B#5),
    (.arm 0xEEB5FBC0#32, .fcmpezd .al 0xF#4)] : List (Code × Instr)),
    decode Arch.full true p.1 = .instr p.2 ∧ encode p.2 = p.1 := by decide +kernel

theorem test_decode_vfp_convert : ∀ p ∈ ([
    (.arm 0xBEB72AE7#32, .fcvtds .lt 2#4 0xF#5),
    (.arm 0xAEF77BC2#32, .fcvtsd .ge 0xF#5 2#4),
    (.arm 0x0EB8AA67#32, .fuitos .eq 0x14#5 0xF#5),
    (.arm 0x9EB88B4B#32, .fuitod .ls 8#4 0x16#5),
    (.arm 0x6EF8BAE2#32, .fsitos .vs 0x17#5 5#5),
    (.arm 0x7EB87BEA#32, .fsitod .vc 7#4 0x15#5),
    (.arm 0xAEFC7A46#32, .ftouis .ge 0xF#5 0xC#5),
    (.arm 0xBEBC9B43#32, .ftouid .lt 0x12#5 3#4),
    (.arm 0x9EBC8AEE#32, .ftouizs .ls 0x10#5 0x1D#5),
    (.arm 0xAEFC0BC8#32, .ftouizd .ge 1#5 8#4),
    (.arm 0x2EFD8A67#32, .ftosis .cs 0x11#5 0xF#5),
    (.arm 0x9EBD5B46#32, .ftosid .ls 0xA#5 6#4),
    (.arm 0x0EFD1AC4#32, .ftosizs .eq 3#5 8#5),
    (.arm 0xDEFD6BC0#32, .ftosizd .le 0xD#5 0#4)] : List (Code × Instr)),
    decode Arch.full true p.1 = .instr p.2 ∧ encode p.2 = p.1 := by decide +kernel

theorem test_decode_vfp_three_operand : ∀ p ∈ ([
    (.arm 0x0E008A25#32, .fmacs .eq 0#5 0x10#5 0xB#5),
    (.arm 0x3E017B0B#32, .fmacd .cc 1#4 7#4 0xB#4),
    (.arm 0xEE0B2ACF#32, .fnmacs .al 0x17#5 4#5 0x1E#5),
    (.arm 0x3E0FFB48#32, .fnmacd .cc 0xF#4 0xF#4 8#4),
    (.arm 0x9E109A25#32, .fmscs .ls 0#5 0x12#5 0xB#5),
    (.arm 0x0E137B04#32, .fmscd .eq 3#4 7#4 4#4),
    (.arm 0xCE121AC0#32, .fnmscs .gt 5#5 2#5 0#5),
    (.arm 0x7E146B4E#32, .fnmscd .vc 4#4 6#4 0xE#4),
    (.arm 0x5E27FA03#32, .fmuls .pl 0xE#5 0x1E#5 6#5),
    (.arm 0x7E26AB08#32, .fmuld .vc 6#4 0xA#4 8#4),
    (.arm 0x9E691A63#32, .fnmuls .ls 0x12#5 3#5 7#5),
    (.arm 0xDE294B4D#32, .fnmuld .le 9#4 4#4 0xD#4),
    (.arm 0x3E309AAA#32, .fadds .cc 1#5 0x12#5 0x15#5),
    (.arm 0x8E355B00#32, .faddd .hi 5#4 5#4 0#4),
    (.arm 0x3E703A46#32, .fsubs .cc 0#5 7#5 0xC#5),
    (.arm 0xAE3A2B4D#32, .fsubd .ge 0xA#4 2#4 0xD#4),
    (.arm 0x4ECD8A24#32, .fdivs .mi 0x1A#5 0x11#5 9#5),
    (.arm 0x7E812B09#32, .fdivd .vc 1#4 2#4 9#4)] : List (Code × Instr)),
    decode Arch.full true p.1 = .instr p.2 ∧ encode p.2 = p.1 := by decide +kernel

theorem test_decode_vfp_transfer : ∀ p ∈ ([
    (.arm 0x3EF1FA10#32, .fmstat .cc),
    (.arm 0x6EE2AA10#32, .fmxr .vs 2#4 0xA#4),
    (.arm 0x8EFFEA10#32, .fmrx .hi 0xF#4 0xE#4),
    (.arm 0x0E0D0A90#32, .fmsr .eq 0x1B#5 0#4),
    (.arm 0xAE164A90#32, .fmrs .ge 0xD#5 4#4),
    (.arm 0x1E01DB10#32, .fmdlr .ne 1#4 0xD#4),
    (.arm 0x7E139B10#32, .fmrdl .vc 3#4 9#4),
    (.arm 0xAE211B10#32, .fmdhr .ge 1#4 1#4),
    (.arm 0x4E35AB10#32, .fmrdh .mi 5#4 0xA#4)] : List (Code × Instr)),
    decode Arch.full true p.1 = .instr p.2 ∧ encode p.2 = p.1 := by decide +kernel

theorem test_decode_vfp_memory : ∀ p ∈ ([
    (.arm 0x9D3A1B4E#32, .fldmdbd .ls 0xA#4 1#4 0x27#7),
    (.arm 0xCD3B7B71#32, .fldmdbx .gt 0xB#4 7#4 0x38#7),
    (.arm 0x1D211B2E#32, .fstmdbd .ne 1#4 1#4 0x17#7),
    (.arm 0x6D209B11#32, .fstmdbx .vs 0#4 9#4 8#7),
    (.arm 0x3CB00B54#32, .fldmiad .cc true 0#4 0#4 0x2A#7),
    (.arm 0xEC92AB41#32, .fldmiax .al false 2#4 0xA#4 0x20#7),
    (.arm 0xED379ADF#32, .fldmdbs .al 7#4 0x12#5 0xDF#8),
    (.arm 0x0CA50B72#32, .fstmiad .eq true 5#4 0#4 0x39#7),
    (.arm 0x7C811B09#32, .fstmiax .vc false 1#4 1#4 4#7),
    (.arm 0x6D2E5A45#32, .fstmdbs .vs 0xE#4 0xA#5 0x45#8),
    (.arm 0x1CDF1A13#32, .fldmias .ne false 0xF#4 3#5 0x13#8),
    (.arm 0x4CAB6A3E#32, .fstmias .mi true 0xB#4 0xC#5 0x3E#8),
    (.arm 0xCD5C7ACF#32, .flds .gt false 0xC#4 0xF#5 0xCF#8),
    (.arm 0xAD96DBF2#32, .fldd .ge true 6#4 0xD#4 0xF2#8),
    (.arm 0x4D000A58#32, .fsts .mi false 0#4 0#5 0x58#8),
    (.arm 0x5D0E9BED#32, .fstd .pl false 0xE#4 9#4 0xED#8)] : List (Code × Instr)),
    decode Arch.full true p.1 = .instr p.2 ∧ encode p.2 = p.1 := by decide +kernel

theorem test_decode_thumb_alu : ∀ p ∈ ([
    (.thumb 0x4011#16, .tAnd 2#3 1#3),
    (.thumb 0x404A#16, .tEor 1#3 2#3),
    (.thumb 0x4084#16, .tLslReg 0#3 4#3),
    (.thumb 0x40FE#16, .tLsrReg 7#3 6#3),
    (.thumb 0x410E#16, .tAsrReg 1#3 6#3),
    (.thumb 0x4153#16, .tAdc 2#3 3#3),
    (.thumb 0x419D#16, .tSbc 3#3 5#3),
    (.thumb 0x41FC#16, .tRor 7#3 4#3),
    (.thumb 0x4221#16, .tTst 4#3 1#3),
    (.thumb 0x4257#16, .tNeg 2#3 7#3),
    (.thumb 0x4286#16, .tCmpLow 0#3 6#3),
    (.thumb 0x42C1#16, .tCmn 0#3 1#3),
    (.thumb 0x4318#16, .tOrr 3#3 0#3),
    (.thumb 0x4364#16, .tMul 4#3 4#3),
    (.thumb 0x43A2#16, .tBic 4#3 2#3),
    (.thumb 0x43D5#16, .tMvn 2#3 5#3),
    (.thumb 0x19BA#16, .tAddReg3 6#3 7#3 2#3),
    (.thumb 0x1ADF#16, .tSubReg3 3#3 3#3 7#3),
    (.thumb 0x1DA2#16, .tAddImm3 6#3 4#3 2#3),
    (.thumb 0x1EB2#16, .tSubImm3 2#3 6#3 2#3),
    (.thumb 0x0732#16, .tLslImm 0x1C#5 6#3 2#3),
    (.thumb 0x0F4C#16, .tLsrImm 0x1D#5 1#3 4#3),
    (.thumb 0x1236#16, .tAsrImm 8#5 6#3 6#3),
    (.thumb 0x25A9#16, .tMovImm8 5#3 0xA9#8),
    (.thumb 0x2D42#16, .tCmpImm8 5#3 0x42#8),
    (.thumb 0x32FA#16, .tAddImm8 2#3 0xFA#8),
    (.thumb 0x3FBC#16, .tSubImm8 7#3 0xBC#8)] : List (Code × Instr)),
    decode Arch.full true p.1 = .instr p.2 ∧ encode p.2 = p.1 := by decide +kernel

theorem test_decode_thumb_memory : ∀ p ∈ ([
    (.thumb 0x51B2#16, .tStrReg 6#3 6#3 2#3),
    (.thumb 0x531E#16, .tStrhReg 4#3 3#3 6#3),
    (.thumb 0x5523#16, .tStrbReg 4#3 4#3 3#3),
    (.thumb 0x56E9#16, .tLdrsbReg 3#3 5#3 1#3),
    (.thumb 0x59E2#16, .tLdrReg 7#3 4#3 2#3),
    (.thumb 0x5A69#16, .tLdrhReg 1#3 5#3 1#3),
    (.thumb 0x5C28#16, .tLdrbReg 0#3 5#3 0#3),
    (.thumb 0x5F9B#16, .tLdrshReg 6#3 3#3 3#3),
    (.thumb 0xB45B#16, .tPush false 0x5B#8),
    (.thumb 0xBC78#16, .tPop false 0x78#8),
    (.thumb 0x4E5F#16, .tLdrPc 6#3 0x5F#8),
    (.thumb 0x62D8#16, .tStrImm 0xB#5 3#3 0#3),
    (.thumb 0x6A3A#16, .tLdrImm 8#5 7#3 2#3),
    (.thumb 0x7437#16, .tStrbImm 0x10#5 6#3 7#3),
    (.thumb 0x7FBD#16, .tLdrbImm 0x1E#5 7#3 5#3),
    (.thumb 0x843E#16, .tStrhImm 0x10#5 7#3 6#3),
    (.thumb 0x89B4#16, .tLdrhImm 6#5 6#3 4#3),
    (.thumb 0x94E9#16, .tStrSpRel 4#3 0xE9#8),
    (.thumb 0x9953#16, .tLdrSpRel 1#3 0x53#8),
    (.thumb 0xC77A#16, .tStmia 7#3 0x7A#8),
    (.thumb 0xCBED#16, .tLdmia 3#3 0xED#8)] : List (Code × Instr)),
    decode Arch.full true p.1 = .instr p.2 ∧ encode p.2 = p.1 := by decide +kernel

theorem test_decode_thumb_rest : ∀ p ∈ ([
    (.thumb 0x4768#16, .tBx true 5#3),
    (.thumb 0x47E8#16, .tBlxReg true 5#3),
    (.thumb 0xB029#16, .tAddSp 0x29#7),
    (.thumb 0xB0F2#16, .tSubSp 0x72#7),
    (.thumb 0x4453#16, .tAddHigh false true 2#3 3#3),
    (.thumb 0x4508#16, .tCmpHigh false false 1#3 0#3),
    (.thumb 0x4665#16, .tMovHigh false true 4#3 5#3),
    (.thumb 0xBE5F#16, .tBkpt 0x5F#8),
    (.thumb 0xDF40#16, .tSwi 0x40#8),
    (.thumb 0xDEC9#16, .tUnallocated 0xC9#8),
    (.thumb 0xEAB2#16, .tBlxSecond 0x159#10),
    (.thumb 0xF02E#16, .tBlFirst 0x2E#11),
    (.thumb 0xFE68#16, .tBlSecond 0x668#11),
    (.thumb 0xA219#16, .tAddPcImm 2#3 0x19#8),
    (.thumb 0xAFC2#16, .tAddSpImm 7#3 0xC2#8),
    (.thumb 0xE51E#16, .tB 0x51E#11),
    (.thumb 0xD7EF#16, .tBCond .vc 0xEF#8)] : List (Code × Instr)),
    decode Arch.full true p.1 = .instr p.2 ∧ encode p.2 = p.1 := by decide +kernel

/-- No row; an allocated pattern with a wrong should-be bit (R102); rows that a processor does not have (R150). -/
theorem test_decode_refuses :
    decode Arch.full true (.arm 0xE7F000F0#32) = .undefined ∧
    decode Arch.full true (.arm 0xE1501001#32) = .unpredictable ∧
    decode { Arch.full with version := .v4 } true (.arm 0xE16F4F19#32) = .undefined ∧
    decode Arch.full false (.arm 0xEE300A81#32) = .instr (.cdp .al 3#4 0#4 0#4 10#4 4#3 1#4) ∧
    decode { Arch.full with thumb := false } true (.thumb 0x194B#16) = .undefined := by decide +kernel

theorem test_decodeTableWord :
    decodeTableWord 32 0xE16F4F19 = some (.clz .al 4#4 9#4) ∧
    decodeTableWord 16 0x194B = some (.tAddReg3 5#3 1#3 3#3) := by
  decide +kernel

/-! ### Helpers: a start state, what it holds, and what is looked at after one step -/

/-- Supervisor mode, ARM state, the pc at 0x8000 (95_test_vectors.md, section 0), no semihosting. -/
def start : State := { State.reset with pc := 0x8000#32, cfg := { Config.default with semihosting := false } }

def inMode (m : Nat) (s : State) : State := { s with cpsr := { s.cpsr with m := BitVec.ofNat 5 m } }
def at_ (a : Nat) (s : State) : State := s.setPc (BitVec.ofNat 32 a)
def inThumb (s : State) : State := s.setThumb true
def bigEndian (s : State) : State := { s with cfg := { s.cfg with bigEndian := true } }
def version4 (s : State) : State :=
  { s with cfg := { s.cfg with arch := { Arch.full with version := .v4, enhanced := false, xscale := false } } }
def bkptAborts (s : State) : State := { s with cfg := { s.cfg with bkpt := .prefetchAbort } }
def fpexc (v : Nat) (s : State) : State := { s with fpexc := BitVec.ofNat 32 v }
def fpscr (v : Nat) (s : State) : State := { s with fpscr := BitVec.ofNat 32 v }
def reg (r v : Nat) (s : State) : State := s.setReg (BitVec.ofNat 4 r) (BitVec.ofNat 32 v)
def sreg (r v : Nat) (s : State) : State := s.setSreg r (BitVec.ofNat 32 v)
def dreg (r v : Nat) (s : State) : State := s.setDreg r (BitVec.ofNat 64 v)
def byteAt (a v : Nat) (s : State) : State := s.setByte (BitVec.ofNat 32 a) (BitVec.ofNat 8 v)
def halfAt (a v : Nat) (s : State) : State := s.setHalf (BitVec.ofNat 32 a) (BitVec.ofNat 16 v)
def wordAt (a v : Nat) (s : State) : State := s.setWord (BitVec.ofNat 32 a) (BitVec.ofNat 32 v)
/-- `n` words of zeros from an address on. -/
def zeros (a : Nat) : Nat → State → State
  | 0, s => s
  | n + 1, s => zeros (a + 4) n (wordAt a 0 s)

/-- A memory system that refuses every access to the word at 0x5000. -/
def onlyWord : Region :=
  { lo := 0x5000#32, hi := 0x5003#32, bytes := true, halves := true, words := true, reads := true, writes := true
    fetches := true, user := true, privileged := true }

def nzcvOf (v : Nat) : Nzcv := { n := v.testBit 3, z := v.testBit 2, c := v.testBit 1, v := v.testBit 0 }
def flags (v : Nat) (s : State) : State := s.setNzcv (nzcvOf v)

abbrev Answer := Host.Outcome State Fault Refusal

def next (o : Answer) (p : State → Bool) : Bool :=
  match o with
  | .next s => p s
  | .fault _ => false
  | .refused _ => false

def isFault (o : Answer) : Bool :=
  match o with
  | .next _ => false
  | .fault _ => true
  | .refused _ => false

/-- It stops where memory has no value. -/
def isUnwritten (o : Answer) : Bool :=
  match o with
  | .next _ => false
  | .fault f => f == .unwritten
  | .refused _ => false

def isRefused (o : Answer) : Bool :=
  match o with
  | .next _ => false
  | .fault _ => false
  | .refused _ => true

def pcIs (a : Nat) (o : Answer) : Bool := next o fun s => s.pc.toNat == a
def regIs (r v : Nat) (o : Answer) : Bool := next o fun s => (s.reg (BitVec.ofNat 4 r)).toNat == v
def sregIs (r v : Nat) (o : Answer) : Bool := next o fun s => (s.sreg r).toNat == v
def dregIs (r v : Nat) (o : Answer) : Bool := next o fun s => (s.dreg r).toNat == v
def byteIs (a v : Nat) (o : Answer) : Bool := next o fun s => s.byte (BitVec.ofNat 32 a) == some (BitVec.ofNat 8 v)
def cpsrLow (v : Nat) (o : Answer) : Bool := next o fun s => s.cpsr.toWord.toNat % 256 == v
def cpsrIs (v : Nat) (o : Answer) : Bool := next o fun s => s.cpsr.toWord.toNat == v
def spsrIs (v : Nat) (o : Answer) : Bool := next o fun s => s.spsr.toWord.toNat == v
def fpscrIs (v : Nat) (o : Answer) : Bool := next o fun s => s.fpscr.toNat == v
def fpexcIs (v : Nat) (o : Answer) : Bool := next o fun s => s.fpexc.toNat == v
def flagsAre (v : Nat) (o : Answer) : Bool := next o fun s => s.cpsr.nzcv == nzcvOf v
def qSet (o : Answer) : Bool := next o fun s => s.cpsr.q

/-- The general registers are as before but for those of the list. -/
def onlyRegs (s0 : State) (rs : List Nat) (o : Answer) : Bool :=
  next o fun s => s.gpr ==
    (rs.foldl (fun t r => t.setReg (BitVec.ofNat 4 r) (s.reg (BitVec.ofNat 4 r))) s0).gpr

/-- One step from a start state answers as the checks say. -/
noncomputable def runs (f : State → State) (checks : State → List (Answer → Bool)) : Bool :=
  (checks (f start)).all fun c => c (step (f start))

/-! ### Single steps: the vectors of 95_test_vectors.md, under their numbers there -/

theorem test_withFetchWord_arm :
    next (step (State.reset.withFetchWord 32 0xE3A0000A)) (fun t => t.reg 0#4 == 10#32 && t.pc == 4#32) = true := by
  decide +kernel

theorem test_withFetchWord_thumb :
    next (step (State.reset.withFetchWord 16 0x2103)) (fun t => t.reg 1#4 == 3#32 && t.pc == 2#32) = true := by
  decide +kernel

/-- Nothing has been written: the first fetch from reset faults (R51, R860). -/
theorem test_fetch_unwritten : isUnwritten (step State.reset) = true := by decide +kernel

/-- One byte of four is missing; with it the word reads (R51, R72). -/
theorem test_ldr_unwritten :
    let s := start |> reg 1 0x1000 |> byteAt 0x1000 0 |> byteAt 0x1001 0 |> byteAt 0x1003 0
    let i := Instr.ldrImm .al true true false 1#4 0#4 0#12
    isUnwritten (exec i s) = true ∧ next (exec i (s |> byteAt 0x1002 7)) (fun t => t.reg 0#4 == 0x70000#32) = true := by
  decide +kernel

/-- A refused word of a block comes before one without a value (R607). -/
theorem test_ldm_refused_before_unwritten :
    let s := { start with cfg := { start.cfg with denied := [onlyWord] } } |> reg 1 0x4FFC
    next (exec (.ldm .al false true false 1#4 12#16) s) (fun t => t.pc == 0x10#32) = true ∧
      isUnwritten (exec (.ldm .al false true false 1#4 4#16) s) = true := by decide +kernel

theorem test_adds_V1 : runs (fun s => s
    |> reg 1 0xFFFFFFFF |> reg 2 0x00000001 |> wordAt 0x8000 0xE0910002) (fun s0 =>
    [pcIs 0x8004, regIs 0 0x00000000, onlyRegs s0 [0], flagsAre 0b0110]) = true := by decide +kernel

theorem test_subs_V4 : runs (fun s => s
    |> reg 1 0x00000005 |> reg 2 0x00000005 |> wordAt 0x8000 0xE0510002) (fun s0 =>
    [pcIs 0x8004, regIs 0 0x00000000, onlyRegs s0 [0], flagsAre 0b0110]) = true := by decide +kernel

theorem test_sbcs_V11 : runs (fun s => s
    |> reg 1 0x00000005 |> reg 2 0x00000003 |> wordAt 0x8000 0xE0D10002) (fun s0 =>
    [pcIs 0x8004, regIs 0 0x00000001, onlyRegs s0 [0], flagsAre 0b0010]) = true := by decide +kernel

theorem test_rscs_V14 : runs (fun s => s
    |> flags 0b0010 |> reg 1 0x00000003 |> reg 2 0x00000005 |> wordAt 0x8000 0xE0F10002) (fun s0 =>
    [pcIs 0x8004, regIs 0 0x00000002, onlyRegs s0 [0], flagsAre 0b0010]) = true := by decide +kernel

theorem test_movs_V30 : runs (fun s => s
    |> flags 0b0010 |> reg 1 0x00000003 |> wordAt 0x8000 0xE1B00061) (fun s0 =>
    [pcIs 0x8004, regIs 0 0x80000001, onlyRegs s0 [0], flagsAre 0b1010]) = true := by decide +kernel

theorem test_movs_V42 : runs (fun s => s
    |> reg 1 0x80000001 |> reg 2 0x000000C8 |> wordAt 0x8000 0xE1B00251) (fun s0 =>
    [pcIs 0x8004, regIs 0 0xFFFFFFFF, onlyRegs s0 [0], flagsAre 0b1010]) = true := by decide +kernel

theorem test_sub_V49 : runs (fun s => s
    |> reg 3 0xFFFFFFC0 |> reg 12 0x00000064 |> wordAt 0x8000 0xE04CB2C3) (fun s0 =>
    [pcIs 0x8004, regIs 11 0x00000066, onlyRegs s0 [11], flagsAre 0b0000]) = true := by decide +kernel

theorem test_tst_V53 : runs (fun s => s
    |> flags 0b0001 |> reg 0 0x7FFFFFFF |> wordAt 0x8000 0xE3100102) (fun s0 =>
    [pcIs 0x8004, onlyRegs s0 [], flagsAre 0b0111]) = true := by decide +kernel

theorem test_mov_V57 : runs (fun s => s
    |> reg 1 0x00009000 |> wordAt 0x8000 0xE1A0F001) (fun s0 =>
    [pcIs 0x9000, onlyRegs s0 [], flagsAre 0b0000]) = true := by decide +kernel

theorem test_clz_V69 : runs (fun s => s
    |> reg 1 0x00000001 |> wordAt 0x8000 0xE16F0F11) (fun s0 =>
    [pcIs 0x8004, regIs 0 0x0000001F, onlyRegs s0 [0], flagsAre 0b0000]) = true := by decide +kernel

theorem test_mla_V74 : runs (fun s => s
    |> reg 1 0x00000003 |> reg 2 0x00000004 |> reg 3 0x00000005 |> wordAt 0x8000 0xE0203291) (fun s0 =>
    [pcIs 0x8004, regIs 0 0x00000011, onlyRegs s0 [0], flagsAre 0b0000]) = true := by decide +kernel

theorem test_smulls_V78 : runs (fun s => s
    |> reg 2 0xFFFFFFFF |> reg 3 0x00000002 |> wordAt 0x8000 0xE0D10392) (fun s0 =>
    [pcIs 0x8004, regIs 0 0xFFFFFFFE, regIs 1 0xFFFFFFFF, onlyRegs s0 [0, 1], flagsAre 0b1000]) = true :=
  by decide +kernel

theorem test_qdadd_V85 : runs (fun s => s
    |> reg 1 0x00000001 |> reg 2 0x40000000 |> wordAt 0x8000 0xE1420051) (fun s0 =>
    [pcIs 0x8004, regIs 0 0x7FFFFFFF, onlyRegs s0 [0], qSet, flagsAre 0b0000]) = true := by decide +kernel

theorem test_qdsub_V88 : runs (fun s => s
    |> reg 1 0x00000000 |> reg 2 0xBFFFFFFF |> wordAt 0x8000 0xE1620051) (fun s0 =>
    [pcIs 0x8004, regIs 0 0x7FFFFFFF, onlyRegs s0 [0], qSet, flagsAre 0b0000]) = true := by decide +kernel

theorem test_smlabb_V92 : runs (fun s => s
    |> reg 1 0x00000002 |> reg 2 0x00000003 |> reg 3 0x7FFFFFFD |> wordAt 0x8000 0xE1003281) (fun s0 =>
    [pcIs 0x8004, regIs 0 0x80000003, onlyRegs s0 [0], qSet, flagsAre 0b0000]) = true := by decide +kernel

theorem test_smlawb_V96 : runs (fun s => s
    |> reg 1 0x7FFFFFFF |> reg 2 0x00007FFF |> reg 3 0x7FFFFFFF |> wordAt 0x8000 0xE1203281) (fun s0 =>
    [pcIs 0x8004, regIs 0 0xBFFF7FFE, onlyRegs s0 [0], qSet, flagsAre 0b0000]) = true := by decide +kernel

theorem test_ldr_V101 : runs (fun s => s
    |> reg 1 0x00001000 |> byteAt 0x1000 0x11 |> byteAt 0x1001 0x22 |> byteAt 0x1002 0x33 |> byteAt 0x1003 0x44 |>
    byteAt 0x1004 0x55 |> byteAt 0x1005 0x66 |> byteAt 0x1006 0x77 |> byteAt 0x1007 0x88 |> wordAt 0x8000 0xE5910002)
    (fun s0 =>
    [pcIs 0x8004, regIs 0 0x22114433, onlyRegs s0 [0], flagsAre 0b0000]) = true := by decide +kernel

theorem test_ldr_V113 : runs (fun s => s
    |> bigEndian |> reg 1 0x00001000 |> byteAt 0x1000 0x11 |> byteAt 0x1001 0x22 |> byteAt 0x1002 0x33 |>
    byteAt 0x1003 0x44 |> byteAt 0x1004 0x55 |> byteAt 0x1005 0x66 |> byteAt 0x1006 0x77 |> byteAt 0x1007 0x88 |>
    wordAt 0x8000 0xE5910003) (fun s0 =>
    [pcIs 0x8004, regIs 0 0x22334411, onlyRegs s0 [0], flagsAre 0b0000]) = true := by decide +kernel

theorem test_str_V121 : runs (fun s => s
    |> reg 0 0xAABBCCDD |> reg 1 0x00001000 |> wordAt 0x1000 0x44332211 |> wordAt 0x1004 0x88776655 |>
    wordAt 0x8000 0xE5810002) (fun s0 =>
    [pcIs 0x8004, onlyRegs s0 [], flagsAre 0b0000, byteIs 0x1000 0xDD, byteIs 0x1001 0xCC, byteIs 0x1002 0xBB,
     byteIs 0x1003 0xAA]) = true := by decide +kernel

theorem test_ldr_V127 : runs (fun s => s
    |> reg 1 0x00001004 |> reg 2 0xFFFFFFF8 |> wordAt 0x1000 0x44332211 |> wordAt 0x1004 0x88776655 |>
    wordAt 0x8000 0xE69100C2) (fun s0 =>
    [pcIs 0x8004, regIs 0 0x88776655, regIs 1 0x00001000, onlyRegs s0 [0, 1], flagsAre 0b0000]) = true :=
  by decide +kernel

theorem test_ldr_V130 : runs (fun s => s
    |> version4 |> reg 1 0x00001000 |> wordAt 0x1000 0x00009000 |> wordAt 0x8000 0xE591F000) (fun s0 =>
    [pcIs 0x9000, onlyRegs s0 [], flagsAre 0b0000]) = true := by decide +kernel

theorem test_str_V131 : runs (fun s => s
    |> reg 1 0x00001000 |> wordAt 0x1000 0x44332211 |> wordAt 0x1004 0x88776655 |> wordAt 0x8000 0xE581F000) (fun s0 =>
    [pcIs 0x8004, onlyRegs s0 [], flagsAre 0b0000, byteIs 0x1000 0x0C, byteIs 0x1001 0x80, byteIs 0x1002 0x00,
     byteIs 0x1003 0x00]) = true := by decide +kernel

theorem test_strd_V133 : runs (fun s => s
    |> reg 1 0x00001000 |> reg 2 0x11111111 |> reg 3 0x22222222 |> wordAt 0x1008 0x00000000 |>
    wordAt 0x100C 0x00000000 |> wordAt 0x8000 0xE1E120F8) (fun s0 =>
    [pcIs 0x8004, regIs 1 0x00001008, onlyRegs s0 [1], flagsAre 0b0000, byteIs 0x1008 0x11, byteIs 0x1009 0x11,
     byteIs 0x100A 0x11, byteIs 0x100B 0x11, byteIs 0x100C 0x22, byteIs 0x100D 0x22, byteIs 0x100E 0x22,
     byteIs 0x100F 0x22]) = true := by decide +kernel

theorem test_ldmda_V137 : runs (fun s => s
    |> reg 0 0x0000100C |> wordAt 0x1000 0x000000A0 |> wordAt 0x1004 0x000000A1 |> wordAt 0x1008 0x000000A2 |>
    wordAt 0x100C 0x000000A3 |> wordAt 0x1010 0x000000A4 |> wordAt 0x8000 0xE830000E) (fun s0 =>
    [pcIs 0x8004, regIs 0 0x00001000, regIs 1 0x000000A1, regIs 2 0x000000A2, regIs 3 0x000000A3,
     onlyRegs s0 [0, 1, 2, 3], flagsAre 0b0000]) = true := by decide +kernel

theorem test_ldmia_V139 : runs (fun s => s
    |> reg 0 0x00001000 |> wordAt 0x1000 0x000000A0 |> wordAt 0x1004 0x000000A1 |> wordAt 0x1008 0x000000A2 |>
    wordAt 0x100C 0x000000A3 |> wordAt 0x1010 0x000000A4 |> wordAt 0x8000 0xE8900003) (fun s0 =>
    [pcIs 0x8004, regIs 0 0x000000A0, regIs 1 0x000000A1, onlyRegs s0 [0, 1], flagsAre 0b0000]) = true :=
  by decide +kernel

theorem test_stmdb_V140 : runs (fun s => s
    |> reg 0 0x00000010 |> reg 1 0x00000011 |> reg 13 0x0000100C |> reg 14 0x00008123 |>
    wordAt 0x1000 0x00000000 |> wordAt 0x1004 0x00000000 |> wordAt 0x1008 0x00000000 |> wordAt 0x8000 0xE92D4003)
    (fun s0 =>
    [pcIs 0x8004, regIs 13 0x00001000, onlyRegs s0 [13], flagsAre 0b0000, byteIs 0x1000 0x10, byteIs 0x1001 0x00,
     byteIs 0x1002 0x00, byteIs 0x1003 0x00, byteIs 0x1004 0x11, byteIs 0x1005 0x00, byteIs 0x1006 0x00,
     byteIs 0x1007 0x00, byteIs 0x1008 0x23, byteIs 0x1009 0x81, byteIs 0x100A 0x00, byteIs 0x100B 0x00]) = true :=
  by decide +kernel

theorem test_ldmia_V142 : runs (fun s => s
    |> reg 13 0x00001000 |> wordAt 0x1000 0x00000005 |> wordAt 0x1004 0x00009001 |> wordAt 0x8000 0xE8BD8001) (fun _ =>
    [pcIs 0x9000, regIs 0 0x00000005, regIs 13 0x00001008, flagsAre 0b0000, cpsrLow 0xF3]) = true := by decide +kernel

theorem test_swp_V144 : runs (fun s => s
    |> reg 1 0xAABBCCDD |> reg 2 0x00001000 |> wordAt 0x1000 0x44332211 |> wordAt 0x1004 0x88776655 |>
    wordAt 0x8000 0xE1020091) (fun s0 =>
    [pcIs 0x8004, regIs 0 0x44332211, onlyRegs s0 [0], flagsAre 0b0000, byteIs 0x1000 0xDD, byteIs 0x1001 0xCC,
     byteIs 0x1002 0xBB, byteIs 0x1003 0xAA]) = true := by decide +kernel

theorem test_b_V154 : runs (fun s => s
    |> at_ 0x2008000 |> wordAt 0x2008000 0xEA800000) (fun s0 =>
    [pcIs 0x8008, onlyRegs s0 [], flagsAre 0b0000]) = true := by decide +kernel

theorem test_bx_V156 : runs (fun s => s
    |> reg 0 0x00009000 |> wordAt 0x8000 0xE12FFF10) (fun s0 =>
    [pcIs 0x9000, onlyRegs s0 [], flagsAre 0b0000]) = true := by decide +kernel

theorem test_blx_V158 : runs (fun s => s
    |> reg 0 0x00009001 |> wordAt 0x8000 0xE12FFF30) (fun _ =>
    [pcIs 0x9000, regIs 14 0x00008004, flagsAre 0b0000, cpsrLow 0xF3]) = true := by decide +kernel

theorem test_blx_V159 : runs (fun s => s
    |> wordAt 0x8000 0xFB0003FE) (fun _ =>
    [pcIs 0x9002, regIs 14 0x00008004, flagsAre 0b0000, cpsrLow 0xF3]) = true := by decide +kernel

theorem test_mrs_V161 : runs (fun s => s
    |> flags 0b1010 |> wordAt 0x8000 0xE10F0000) (fun s0 =>
    [pcIs 0x8004, regIs 0 0xA00000D3, onlyRegs s0 [0], flagsAre 0b1010]) = true := by decide +kernel

theorem test_msr_V164 : runs (fun s => s
    |> flags 0b0100 |> reg 0 0x0000001F |> wordAt 0x8000 0xE121F000) (fun _ =>
    [pcIs 0x8004, flagsAre 0b0100, cpsrLow 0x1F]) = true := by decide +kernel

theorem test_mrs_V167 : runs (fun s => s
    |> inMode 0x1F |> wordAt 0x8000 0xE14F0000) (fun _ =>
    [isFault]) = true := by decide +kernel

theorem test_swi_V168 : runs (fun s => s
    |> flags 0b0010 |> inMode 0x10 |> reg 0 0x00000018 |> reg 1 0x00020026 |> wordAt 0x8000 0xEF123456) (fun _ =>
    [pcIs 0x8, regIs 14 0x00008004, flagsAre 0b0010, cpsrLow 0xD3, spsrIs 0x200000D0]) = true := by decide +kernel

theorem test_bkpt_V170 : runs (fun s => s
    |> inMode 0x10 |> bkptAborts |> wordAt 0x8000 0xE12ABC7D) (fun _ =>
    [pcIs 0xC, regIs 14 0x00008004, flagsAre 0b0000, cpsrLow 0xD7, spsrIs 0x000000D0]) = true := by decide +kernel

theorem test_lsr_V173 : runs (fun s => s
    |> inThumb |> reg 1 0x80000001 |> halfAt 0x8000 0x0808) (fun s0 =>
    [pcIs 0x8002, regIs 0 0x00000000, onlyRegs s0 [0], flagsAre 0b0110]) = true := by decide +kernel

theorem test_asr_V191 : runs (fun s => s
    |> inThumb |> reg 0 0x80000000 |> reg 1 0x00000021 |> halfAt 0x8000 0x4108) (fun s0 =>
    [pcIs 0x8002, regIs 0 0xFFFFFFFF, onlyRegs s0 [0], flagsAre 0b1010]) = true := by decide +kernel

theorem test_sbc_V193 : runs (fun s => s
    |> inThumb |> reg 0 0x00000005 |> reg 1 0x00000003 |> halfAt 0x8000 0x4188) (fun s0 =>
    [pcIs 0x8002, regIs 0 0x00000001, onlyRegs s0 [0], flagsAre 0b0010]) = true := by decide +kernel

theorem test_neg_V199 : runs (fun s => s
    |> inThumb |> reg 1 0x80000000 |> halfAt 0x8000 0x4248) (fun s0 =>
    [pcIs 0x8002, regIs 0 0x80000000, onlyRegs s0 [0], flagsAre 0b1001]) = true := by decide +kernel

theorem test_cmp_V208 : runs (fun s => s
    |> inThumb |> reg 8 0x00000005 |> reg 9 0x00000005 |> halfAt 0x8000 0x45C8) (fun s0 =>
    [pcIs 0x8002, onlyRegs s0 [], flagsAre 0b0110]) = true := by decide +kernel

theorem test_mov_V211 : runs (fun s => s
    |> inThumb |> reg 0 0x00009001 |> halfAt 0x8000 0x4687) (fun s0 =>
    [pcIs 0x9000, onlyRegs s0 [], flagsAre 0b0000]) = true := by decide +kernel

theorem test_add_V213 : runs (fun s => s
    |> at_ 0x8002 |> inThumb |> halfAt 0x8002 0xA001) (fun s0 =>
    [pcIs 0x8004, regIs 0 0x00008008, onlyRegs s0 [0], flagsAre 0b0000]) = true := by decide +kernel

theorem test_strb_V220 : runs (fun s => s
    |> inThumb |> reg 0 0x000001FF |> reg 1 0x00001001 |> wordAt 0x1000 0x44332211 |> wordAt 0x1004 0x88776655 |>
    halfAt 0x8000 0x7008) (fun s0 =>
    [pcIs 0x8002, onlyRegs s0 [], flagsAre 0b0000, byteIs 0x1000 0x11, byteIs 0x1001 0xFF, byteIs 0x1002 0x33,
     byteIs 0x1003 0x44]) = true := by decide +kernel

theorem test_ldr_V231 : runs (fun s => s
    |> at_ 0x8002 |> inThumb |> wordAt 0x8008 0xCAFEF00D |> halfAt 0x8002 0x4801) (fun s0 =>
    [pcIs 0x8004, regIs 0 0xCAFEF00D, onlyRegs s0 [0], flagsAre 0b0000]) = true := by decide +kernel

theorem test_push_V235 : runs (fun s => s
    |> inThumb |> reg 0 0x00000010 |> reg 1 0x00000011 |> reg 13 0x0000100C |> reg 14 0x00008123 |>
    wordAt 0x1000 0x00000000 |> wordAt 0x1004 0x00000000 |> wordAt 0x1008 0x00000000 |> halfAt 0x8000 0xB503) (fun s0 =>
    [pcIs 0x8002, regIs 13 0x00001000, onlyRegs s0 [13], flagsAre 0b0000, byteIs 0x1000 0x10, byteIs 0x1001 0x00,
     byteIs 0x1002 0x00, byteIs 0x1003 0x00, byteIs 0x1004 0x11, byteIs 0x1005 0x00, byteIs 0x1006 0x00,
     byteIs 0x1007 0x00, byteIs 0x1008 0x23, byteIs 0x1009 0x81, byteIs 0x100A 0x00, byteIs 0x100B 0x00]) = true :=
  by decide +kernel

theorem test_pop_V236 : runs (fun s => s
    |> inThumb |> reg 13 0x00001000 |> wordAt 0x1000 0x00000005 |> wordAt 0x1004 0x00000006 |>
    wordAt 0x1008 0x00009001 |> halfAt 0x8000 0xBD03) (fun s0 =>
    [pcIs 0x9000, regIs 0 0x00000005, regIs 1 0x00000006, regIs 13 0x0000100C, onlyRegs s0 [0, 1, 13],
     flagsAre 0b0000]) = true := by decide +kernel

theorem test_ldmia_V240 : runs (fun s => s
    |> inThumb |> reg 0 0x00001000 |> wordAt 0x1000 0x000000A0 |> wordAt 0x1004 0x000000A1 |>
    wordAt 0x1008 0x000000A2 |> wordAt 0x100C 0x000000A3 |> wordAt 0x1010 0x000000A4 |> halfAt 0x8000 0xC803) (fun s0 =>
    [pcIs 0x8002, regIs 0 0x000000A0, regIs 1 0x000000A1, onlyRegs s0 [0, 1], flagsAre 0b0000]) = true :=
  by decide +kernel

theorem test_beq_V242 : runs (fun s => s
    |> flags 0b0100 |> inThumb |> halfAt 0x8000 0xD07F) (fun s0 =>
    [pcIs 0x8102, onlyRegs s0 [], flagsAre 0b0100]) = true := by decide +kernel

theorem test_bl_V250 : runs (fun s => s
    |> inThumb |> halfAt 0x8000 0xF000) (fun s0 =>
    [pcIs 0x8002, regIs 14 0x00008004, onlyRegs s0 [14], flagsAre 0b0000]) = true := by decide +kernel

theorem test_bx_V255 : runs (fun s => s
    |> inThumb |> reg 0 0x00009000 |> halfAt 0x8000 0x4700) (fun _ =>
    [pcIs 0x9000, flagsAre 0b0000, cpsrLow 0xD3]) = true := by decide +kernel

theorem test_bx_V257 : runs (fun s => s
    |> inThumb |> halfAt 0x8000 0x4778) (fun _ =>
    [pcIs 0x8004, flagsAre 0b0000, cpsrLow 0xD3]) = true := by decide +kernel

theorem test_blx_V258 : runs (fun s => s
    |> inThumb |> reg 1 0x00009000 |> halfAt 0x8000 0x4788) (fun _ =>
    [pcIs 0x9000, regIs 14 0x00008003, flagsAre 0b0000, cpsrLow 0xD3]) = true := by decide +kernel

theorem test_swi_V259 : runs (fun s => s
    |> flags 0b0110 |> inMode 0x10 |> inThumb |> reg 0 0x00000018 |> reg 1 0x00020026 |> halfAt 0x8000 0xDFAB) (fun _ =>
    [pcIs 0x8, regIs 14 0x00008002, flagsAre 0b0110, cpsrLow 0xD3, spsrIs 0x600000F0]) = true := by decide +kernel

theorem test_bkpt_V260 : runs (fun s => s
    |> inMode 0x10 |> inThumb |> bkptAborts |> halfAt 0x8000 0xBEFF) (fun _ =>
    [pcIs 0xC, regIs 14 0x00008004, flagsAre 0b0000, cpsrLow 0xD7, spsrIs 0x000000F0]) = true := by decide +kernel

theorem test_fadds_F5 : runs (fun s => s
    |> fpexc 0x40000000 |> fpscr 0x00C00000 |> sreg 1 0x7F7FFFFF |> sreg 2 0x7F7FFFFF |> wordAt 0x8000 0xEE300A81)
    (fun s0 =>
    [pcIs 0x8004, onlyRegs s0 [], fpscrIs 0x00C00014, sregIs 0 0x7F7FFFFF]) = true := by decide +kernel

theorem test_fadds_F8 : runs (fun s => s
    |> fpexc 0x40000000 |> fpscr 0 |> sreg 1 0x7F812345 |> sreg 2 0x3F800000 |> wordAt 0x8000 0xEE300A81) (fun s0 =>
    [pcIs 0x8004, onlyRegs s0 [], fpscrIs 0x00000001, sregIs 0 0x7FC12345]) = true := by decide +kernel

theorem test_fdivs_F22 : runs (fun s => s
    |> fpexc 0x40000000 |> fpscr 0x00000000 |> sreg 1 0x3F800000 |> sreg 2 0x40400000 |> wordAt 0x8000 0xEE800A81)
    (fun s0 =>
    [pcIs 0x8004, onlyRegs s0 [], fpscrIs 0x00000010, sregIs 0 0x3EAAAAAB]) = true := by decide +kernel

theorem test_fsqrts_F28 : runs (fun s => s
    |> fpexc 0x40000000 |> fpscr 0 |> sreg 1 0x40000000 |> wordAt 0x8000 0xEEB10AE0) (fun s0 =>
    [pcIs 0x8004, onlyRegs s0 [], fpscrIs 0x00000010, sregIs 0 0x3FB504F3]) = true := by decide +kernel

theorem test_fmacs_F31 : runs (fun s => s
    |> fpexc 0x40000000 |> fpscr 0 |> sreg 0 0xBF801000 |> sreg 1 0x3F800800 |> wordAt 0x8000 0xEE000AA0) (fun s0 =>
    [pcIs 0x8004, onlyRegs s0 [], fpscrIs 0x00000010, sregIs 0 0x00000000]) = true := by decide +kernel

theorem test_fnmscs_F35 : runs (fun s => s
    |> fpexc 0x40000000 |> fpscr 0 |> sreg 0 0x3F800000 |> sreg 1 0x40000000 |> sreg 2 0x40400000 |>
    wordAt 0x8000 0xEE100AC1) (fun s0 =>
    [pcIs 0x8004, onlyRegs s0 [], fpscrIs 0, sregIs 0 0xC0E00000]) = true := by decide +kernel

theorem test_fcmps_F42 : runs (fun s => s
    |> fpexc 0x40000000 |> fpscr 0 |> sreg 0 0x00000000 |> sreg 1 0x80000000 |> wordAt 0x8000 0xEEB40A60) (fun s0 =>
    [pcIs 0x8004, onlyRegs s0 [], fpscrIs 0x60000000]) = true := by decide +kernel

theorem test_fcmpes_F44 : runs (fun s => s
    |> fpexc 0x40000000 |> fpscr 0 |> sreg 0 0x3F800000 |> sreg 1 0x7FC00000 |> wordAt 0x8000 0xEEB40AE0) (fun s0 =>
    [pcIs 0x8004, onlyRegs s0 [], fpscrIs 0x30000001]) = true := by decide +kernel

theorem test_fmstat_F49 : runs (fun s => s
    |> fpexc 0x40000000 |> fpscr 0x30000000 |> wordAt 0x8000 0xEEF1FA10) (fun s0 =>
    [pcIs 0x8004, onlyRegs s0 [], cpsrIs 0x300000D3]) = true := by decide +kernel

theorem test_fcvtds_F52 : runs (fun s => s
    |> fpexc 0x40000000 |> fpscr 0x01000000 |> sreg 7 0x00000001 |> wordAt 0x8000 0xEEB75AE3) (fun s0 =>
    [pcIs 0x8004, onlyRegs s0 [], fpscrIs 0x01000010, dregIs 5 0x0000000000000000]) = true := by decide +kernel

theorem test_fcvtsd_F56 : runs (fun s => s
    |> fpexc 0x40000000 |> fpscr 0x00C00000 |> dreg 1 0x3FB999999999999A |> wordAt 0x8000 0xEEB70BC1) (fun s0 =>
    [pcIs 0x8004, onlyRegs s0 [], fpscrIs 0x00C00010, sregIs 0 0x3DCCCCCC]) = true := by decide +kernel

theorem test_fsitos_F60 : runs (fun s => s
    |> fpexc 0x40000000 |> fpscr 0 |> sreg 2 0x80000000 |> wordAt 0x8000 0xEEB81AC1) (fun s0 =>
    [pcIs 0x8004, onlyRegs s0 [], fpscrIs 0, sregIs 2 0xCF000000]) = true := by decide +kernel

theorem test_ftosis_F67 : runs (fun s => s
    |> fpexc 0x40000000 |> fpscr 0x00800000 |> sreg 1 0xC0200000 |> wordAt 0x8000 0xEEBD0A60) (fun s0 =>
    [pcIs 0x8004, onlyRegs s0 [], fpscrIs 0x00800010, sregIs 0 0xFFFFFFFD]) = true := by decide +kernel

theorem test_fadds_F79 : runs (fun s => s
    |> fpexc 0x40000000 |> fpscr 0x00030000 |> sreg 22 0x3F800000 |> sreg 23 0x40000000 |> sreg 16 0x40400000 |>
    sreg 17 0x40800000 |> sreg 30 0x3F800000 |> sreg 31 0x3F800000 |> sreg 24 0x3F800000 |> sreg 25 0x3F800000 |>
    wordAt 0x8000 0xEE3B7A0F) (fun s0 =>
    [pcIs 0x8004, onlyRegs s0 [], sregIs 14 0x40000000, sregIs 15 0x40400000, sregIs 8 0x40800000,
     sregIs 9 0x40A00000]) = true := by decide +kernel

theorem test_fadds_F83 : runs (fun s => s
    |> fpexc 0x40000000 |> fpscr 0x00030000 |> wordAt 0x8000 0xEE344A8C) (fun _ =>
    [isFault]) = true := by decide +kernel

theorem test_fadds_F85 : runs (fun s => s
    |> fpexc 0x40000000 |> fpscr 0x00000100 |> wordAt 0x8000 0xEE300A81) (fun _ =>
    [isRefused]) = true := by decide +kernel

theorem test_fldmias_F91 : runs (fun s => s
    |> fpexc 0x40000000 |> reg 2 0x00001000 |> byteAt 0x1000 0x11 |> byteAt 0x1001 0x22 |> byteAt 0x1002 0x33 |>
    byteAt 0x1003 0x44 |> byteAt 0x1004 0x55 |> byteAt 0x1005 0x66 |> byteAt 0x1006 0x77 |> byteAt 0x1007 0x88 |>
    byteAt 0x1008 0x99 |> byteAt 0x1009 0xAA |> byteAt 0x100A 0xBB |> byteAt 0x100B 0xCC |> byteAt 0x100C 0xDD |>
    byteAt 0x100D 0xEE |> byteAt 0x100E 0xFF |> byteAt 0x100F 0x00 |> byteAt 0x1010 0x10 |> byteAt 0x1011 0x20 |>
    byteAt 0x1012 0x30 |> byteAt 0x1013 0x40 |> wordAt 0x8000 0xECD20A05) (fun s0 =>
    [pcIs 0x8004, onlyRegs s0 [], sregIs 1 0x44332211, sregIs 2 0x88776655, sregIs 3 0xCCBBAA99,
     sregIs 4 0x00FFEEDD, sregIs 5 0x40302010]) = true := by decide +kernel

theorem test_fstmfdd_F92 : runs (fun s => s
    |> fpexc 0x40000000 |> reg 13 0x00001000 |> byteAt 0x1000 0x11 |> byteAt 0x1001 0x22 |> byteAt 0x1002 0x33 |>
    byteAt 0x1003 0x44 |> byteAt 0x1004 0x55 |> byteAt 0x1005 0x66 |> byteAt 0x1006 0x77 |> byteAt 0x1007 0x88 |>
    byteAt 0x1008 0x99 |> byteAt 0x1009 0xAA |> byteAt 0x100A 0xBB |> byteAt 0x100B 0xCC |> byteAt 0x100C 0xDD |>
    byteAt 0x100D 0xEE |> byteAt 0x100E 0xFF |> byteAt 0x100F 0x00 |> byteAt 0x1010 0x10 |> byteAt 0x1011 0x20 |>
    byteAt 0x1012 0x30 |> byteAt 0x1013 0x40 |> wordAt 0x8000 0xED2D3B08) (fun s0 =>
    [pcIs 0x8004, regIs 13 0x00000FE0, onlyRegs s0 [13]]) = true := by decide +kernel

theorem test_fmxr_F98 : runs (fun s => s
    |> fpexc 0x40000000 |> fpscr 0 |> reg 2 0xFFFFFFFF |> byteAt 0x1000 0x11 |> byteAt 0x1001 0x22 |>
    byteAt 0x1002 0x33 |> byteAt 0x1003 0x44 |> byteAt 0x1004 0x55 |> byteAt 0x1005 0x66 |> byteAt 0x1006 0x77 |>
    byteAt 0x1007 0x88 |> byteAt 0x1008 0x99 |> byteAt 0x1009 0xAA |> byteAt 0x100A 0xBB |> byteAt 0x100B 0xCC |>
    byteAt 0x100C 0xDD |> byteAt 0x100D 0xEE |> byteAt 0x100E 0xFF |> byteAt 0x100F 0x00 |> byteAt 0x1010 0x10 |>
    byteAt 0x1011 0x20 |> byteAt 0x1012 0x30 |> byteAt 0x1013 0x40 |> wordAt 0x8000 0xEEE12A10) (fun s0 =>
    [pcIs 0x8004, onlyRegs s0 [], fpscrIs 0xF1F71F1F]) = true := by decide +kernel

theorem test_fmxr_F100 : runs (fun s => s
    |> reg 0 0xC0000001 |> byteAt 0x1000 0x11 |> byteAt 0x1001 0x22 |> byteAt 0x1002 0x33 |> byteAt 0x1003 0x44 |>
    byteAt 0x1004 0x55 |> byteAt 0x1005 0x66 |> byteAt 0x1006 0x77 |> byteAt 0x1007 0x88 |> byteAt 0x1008 0x99 |>
    byteAt 0x1009 0xAA |> byteAt 0x100A 0xBB |> byteAt 0x100B 0xCC |> byteAt 0x100C 0xDD |> byteAt 0x100D 0xEE |>
    byteAt 0x100E 0xFF |> byteAt 0x100F 0x00 |> byteAt 0x1010 0x10 |> byteAt 0x1011 0x20 |> byteAt 0x1012 0x30 |>
    byteAt 0x1013 0x40 |> wordAt 0x8000 0xEEE80A10) (fun s0 =>
    [pcIs 0x8004, onlyRegs s0 [], fpexcIs 0x40000000]) = true := by decide +kernel

/-! ### Witnesses: states and operands that meet the hypotheses of the statements, clause by clause -/

/-- What holds of the condition that a field names holds of each condition that it names. -/
theorem passedAll {s : State} {x : BitVec 4} {c : Cond} {b : Bool} (h : Cond.ofBits x = some c)
    (hb : s.cpsr.passed c = b) : ∀ d, Cond.ofBits x = some d → s.cpsr.passed d = b := by
  intro d hd
  rw [h] at hd
  exact Option.some.inj hd ▸ hb

def closed : Region :=
  { lo := 0x5000#32, hi := 0x8FFF#32, bytes := true, halves := true, words := true, reads := true, writes := true
    fetches := true, user := true, privileged := true }
def denied : State := { start with cfg := { start.cfg with denied := [closed] } }
def checked : State := { start with cfg := { start.cfg with alignCheck := true } }
def vfpOn : State := start |> fpexc 0x40000000
def trapOn : State := vfpOn |> fpscr 0x100
def atTop : State := start |> at_ 0xFFFFFFFC
def user : State := start |> inMode 0x10
def withLines (r f i : Bool) (s : State) : State :=
  { s with inputs := [{ lines := { reset := r, fiq := f, irq := i }, answer := CoprocAnswer.none }] }
def withCoproc (s : State) : State :=
  { s with
    cfg := { s.cfg with coprocs := 0x0080#16 }
    answer := { accept := true, first := 1#32, second := 2#32, count := 2, words := [7#32, 8#32] } }

theorem witness_StepRunsDecodedInstruction :
    (let s := start |> inThumb |> halfAt 0x8000 0x1888
     s.exited = none ∧ s.interrupted s.input.lines = none ∧ s.fetchAllowed = true ∧ s.cpsr.t = true ∧
       s.half s.pc = some 0x1888#16 ∧ decodeThumb s.cfg.arch 0x1888#16 = .instr (.tAddReg3 2#3 1#3 0#3)) ∧
    (let s := start |> wordAt 0x8000 0xE0910002
     s.exited = none ∧ s.interrupted s.input.lines = none ∧ s.fetchAllowed = true ∧ s.cpsr.t = false ∧
       s.word s.pc = some 0xE0910002#32 ∧
       decodeArm s.cfg.arch s.vfpEnabled 0xE0910002#32 = .instr (.addRegImm .al true 1#4 0#4 0#5 .lsl 2#4)) ∧
    (let s := start |> wordAt 0x8000 0x00910002
     s.exited = none ∧ s.interrupted s.input.lines = none ∧ s.fetchAllowed = true ∧ s.cpsr.t = false ∧ s.CanGoOn ∧
       s.word s.pc = some 0x00910002#32) ∧
    (start.word start.pc = none ∧ (start |> inThumb |> byteAt 0x8000 0).half 0x8000#32 = none) :=
  by decide +kernel

theorem witness_StepRunsDecodedInstruction_condition :
    (∀ c, Cond.ofBits ((0xE0910002#32).extractLsb' 28 4) = some c → start.cpsr.passed c = true) ∧
    (∀ c, Cond.ofBits ((0x00910002#32).extractLsb' 28 4) = some c → start.cpsr.passed c = false) :=
  ⟨passedAll (c := .al) (by decide) (by decide), passedAll (c := .eq) (by decide) (by decide)⟩

theorem witness_StepTakesExceptionsInOrder :
    ({ start with exited := some 1#32 } : State).exited ≠ none ∧
    (let s := start |> withLines true true true
     s.exited = none ∧ s.input.lines.reset = true) ∧
    (let s := { start with cpsr := { start.cpsr with f := false } } |> withLines false true true
     s.exited = none ∧ s.input.lines.reset = false ∧ s.input.lines.fiq = true ∧ s.cpsr.f = false) ∧
    (let s := { start with cpsr := { start.cpsr with i := false } } |> withLines false true true
     s.exited = none ∧ s.input.lines.reset = false ∧ (s.input.lines.fiq = false ∨ s.cpsr.f = true) ∧
       s.input.lines.irq = true ∧ s.cpsr.i = false) ∧
    (denied |> withLines false true true).fetchAllowed = false ∧
    (let s := start |> inThumb |> halfAt 0x8000 0xE801
     s.fetchAllowed = true ∧ s.cpsr.t = true ∧ (s.half s.pc).map (decodeThumb s.cfg.arch) = some .undefined) ∧
    (let s := start |> wordAt 0x8000 0xE1501001
     s.fetchAllowed = true ∧ s.cpsr.t = false ∧ s.word s.pc = some 0xE1501001#32 ∧
       decodeArm s.cfg.arch s.vfpEnabled 0xE1501001#32 = .unpredictable ∧
       Cond.ofBits ((0xE1501001#32).extractLsb' 28 4) = some .al ∧ s.cpsr.passed .al = true) := by decide +kernel

theorem witness_FailedConditionDoesNothing :
    (Instr.clz .eq 0#4 1#4).condition = some .eq ∧ start.cpsr.passed .eq = false ∧ start.CanGoOn ∧
      atTop.cpsr.passed .eq = false ∧ ¬atTop.CanGoOn := by decide

theorem witness_ExceptionEntry :
    (Exc.undefined, (0b11011#5, 0x04#32, start.next, false)) ∈
      [(Exc.undefined, (0b11011#5, 0x04#32, start.next, false))] ∧
    (start.takeException .fiq).pc = 0x1C#32 ∧ (start.takeException .fiq).reg 14#4 = 0x8004#32 ∧
    (start.takeException .dataAbort).reg 14#4 = 0x8008#32 ∧ (start.takeException .swi).pc = 0x08#32 ∧
    ((start |> inThumb).takeException .undefined).reg 14#4 = 0x8002#32 := by decide

theorem reset_inv : State.reset.Inv :=
  ⟨by decide, by decide, by decide, by decide, by decide, by decide, by decide⟩

theorem witness_StepKeepsInvariant :
    State.reset.Inv ∧ next (step (State.reset.withFetchWord 32 0xE16F4F19)) (fun t => t.reg 4#4 == 32#32) = true :=
  ⟨reset_inv, by decide +kernel⟩

theorem witness_UserModeIsConfined :
    (let s := user |> wordAt 0x8000 0xE0910002
     s.cpsr.m = 0b10000#5 ∧ next (step s) (fun t => t.cpsr.m == 0b10000#5) = true) ∧
    (let s := user |> wordAt 0x8000 0xEF000000
     s.cpsr.m = 0b10000#5 ∧ next (step s) (fun t => t.cpsr.m == 0b10011#5) = true) ∧
    (denied.UserProtected 0x5000#32 ∧ denied.UserProtected 0x8FFF#32 ∧ ¬denied.UserProtected 0x4FFF#32) :=
  by decide +kernel

/-- A memory system that refuses privileged byte accesses and nothing else (R80). -/
def bytesToUser : Region :=
  { closed with halves := false, words := false, user := false }

theorem test_memAllowed_by_size_and_privilege :
    let s := { start with cfg := { start.cfg with denied := [bytesToUser] } }
    s.allowed 0x5000#32 1 .read true = false ∧ s.allowed 0x5000#32 1 .read false = true ∧
      s.allowed 0x5000#32 4 .read true = true ∧ s.allowed 0x4FFF#32 1 .read true = true := by decide

theorem witness_DecodeOfEncode :
    (Instr.ldrImm .al true false false 1#4 0#4 0xFFF#12).wf = true ∧ (Instr.tBCond .le 0xFF#8).wf = true := by decide

theorem witness_EncodeOfDecode :
    decode Arch.full true (.arm 0xE16F4F19#32) = .instr (.clz .al 4#4 9#4) ∧
    decode { Arch.full with version := .v4 } false (.thumb 0x194B#16) = .instr (.tAddReg3 5#3 1#3 3#3) :=
  by decide +kernel

theorem witness_DecodeStaysInState :
    decodeArm Arch.full true 0xE16F4F19#32 = .instr (.clz .al 4#4 9#4) ∧
    decodeThumb Arch.full 0x194B#16 = .instr (.tAddReg3 5#3 1#3 3#3) := by decide +kernel

/-- Operand2 at the ends of each range (R263 to R267). -/
theorem witness_ShiftByConstant :
    let s := start |> flags 0b0010 |> reg 1 0x80000003
    s.op2Const 0#5 .lsl 1#4 = { value := 0x80000003#32, carry := true } ∧
    s.op2Const 31#5 .lsl 1#4 = { value := 0x80000000#32, carry := true } ∧
    s.op2Const 1#5 .lsr 1#4 = { value := 0x40000001#32, carry := true } ∧
    s.op2Const (BitVec.ofNat 5 32) .lsr 1#4 = { value := 0#32, carry := true } ∧
    s.op2Const 31#5 .asr 1#4 = { value := 0xFFFFFFFF#32, carry := false } ∧
    s.op2Const (BitVec.ofNat 5 32) .asr 1#4 = { value := 0xFFFFFFFF#32, carry := true } ∧
    s.op2Const 1#5 .ror 1#4 = { value := 0xC0000001#32, carry := true } ∧
    s.op2Const 31#5 .ror 1#4 = { value := 7#32, carry := false } ∧
    s.op2Const 0#5 .ror 1#4 = { value := 0xC0000001#32, carry := true } := by decide +kernel

/-- The shift amounts of the clauses: 0, 1, 31, 32, 33, 64, 255 (R268). -/
theorem witness_ShiftByRegisterAndRotatedConstant :
    let n (v : Nat) : Nat := ((start |> reg 2 v).reg 2#4).toNat % 256
    n 0x100 = 0 ∧ n 1 = 1 ∧ n 31 = 31 ∧ n 32 = 32 ∧ (32 < n 33 ∧ n 33 % 32 ≠ 0) ∧ (32 < n 64 ∧ n 64 % 32 = 0) ∧
      (32 < n 255 ∧ n 255 % 32 ≠ 0) ∧ (15#4 : BitVec 4) ≠ 0#4 := by decide

theorem witness_ArithmeticResult :
    start.cpsr.passed .al = true ∧ (Op2.byReg 15#4 .lsl 1#4).pcFree [0#4, 2#4] = false ∧
    ((Op2.byReg 3#4 .lsl 1#4).pcFree [0#4, 2#4] = true ∧ (2#4 : Reg) ≠ 15#4 ∧ start.CanGoOn) ∧
    ((Op2.imm 0#4 1#8).pcFree [15#4, 14#4] = true ∧ (14#4 : Reg) ≠ 15#4 ∧ ¬atTop.CanGoOn) := by decide

theorem witness_LogicalResult :
    start.cpsr.passed .al = true ∧ (Op2.byReg 3#4 .lsl 15#4).pcFree (LogicOp.and_.others 0#4 2#4) = false ∧
    ((Op2.byReg 3#4 .lsl 1#4).pcFree (LogicOp.mov.others 15#4 2#4) = true ∧ (2#4 : Reg) ≠ 15#4 ∧ start.CanGoOn) ∧
    ((Op2.const 0#5 .ror 15#4).pcFree (LogicOp.eor.others 15#4 14#4) = true ∧ ¬atTop.CanGoOn) := by decide

theorem witness_CompareFlags :
    start.cpsr.passed .al = true ∧ (Op2.byReg 3#4 .lsl 1#4).pcFree [15#4] = false ∧
    ((Op2.byReg 3#4 .lsl 1#4).pcFree [14#4] = true ∧ start.CanGoOn ∧ ¬atTop.CanGoOn) := by decide

theorem witness_DataProcessingWritesPc :
    start.cpsr.passed .al = true ∧ (Op2.imm 0#4 1#8).pcFree [1#4, 15#4] = true ∧
    (Op2.const 0#5 .lsl 14#4).pcFree (LogicOp.mov.others 0#4 15#4) = true ∧
    next (({ start with spsrSvc := user.cpsr } : State).returnTo 0x9000#32) (fun t => t.pc == 0x9000#32) = true ∧
    isFault (user.returnTo 0x9000#32) = true := by decide

theorem witness_CountLeadingZeros :
    start.cpsr.passed .al = true ∧ ((15#4 : Reg) = 15#4 ∨ (1#4 : Reg) = 15#4) ∧ (0#4 : Reg) ≠ 15#4 ∧
      (1#4 : Reg) ≠ 15#4 ∧ start.CanGoOn := by decide

theorem witness_Multiplies :
    start.cpsr.passed .al = true ∧ start.CanGoOn ∧ ((1#4 : Reg) = 15#4 ∨ (2#4 : Reg) = 15#4 ∨ (1#4 : Reg) = 1#4) ∧
    ((0#4 : Reg) ≠ 15#4 ∧ (2#4 : Reg) ≠ 15#4 ∧ (14#4 : Reg) ≠ 15#4 ∧ (0#4 : Reg) ≠ 14#4 ∧ (3#4 : Reg) ≠ 15#4) ∧
    ((1#4 : Reg) ≠ 0#4 ∧ (1#4 : Reg) ≠ 14#4) := by decide

theorem witness_HalfwordMultiplies :
    start.cpsr.passed .al = true ∧ start.CanGoOn ∧ ((0#4 : Reg) ≠ 15#4 ∧ (1#4 : Reg) ≠ 15#4 ∧ (2#4 : Reg) ≠ 15#4) ∧
    ((14#4 : Reg) ≠ 15#4 ∧ (0#4 : Reg) ≠ 14#4) := by decide

theorem witness_SaturatingArithmetic :
    start.cpsr.passed .al = true ∧ start.CanGoOn ∧ (0#4 : Reg) ≠ 15#4 ∧ (1#4 : Reg) ≠ 15#4 ∧ (14#4 : Reg) ≠ 15#4 := by
  decide

theorem witness_Accumulator :
    start.cpsr.passed .al = true ∧ start.CanGoOn ∧ (0#4 : Reg) ≠ 15#4 ∧ (1#4 : Reg) ≠ 15#4 ∧ (0#4 : Reg) ≠ 1#4 := by
  decide

/-- A word that goes on at address 0, and one of which a byte has no value. -/
theorem witness_MemoryReadsBack :
    let s := start |> wordAt 0xFFFFFFFE 0x01020304
    s.word 0xFFFFFFFE#32 = some 0x01020304#32 ∧ s.half 1#32 = none ∧ s.half 0#32 = some 0x0102#16 ∧
      s.word 0xFFFFFFFF#32 = none ∧ s.byte 2#32 = none := by decide +kernel

theorem witness_LoadsWordAndByte :
    let s := start |> reg 1 0x1001 |> zeros 0x1000 1
    let f : WordForm := .reg false true false 1#4 2#5 .lsl 2#4
    let g : WordForm := .imm true false false 15#4 0xFFF#12
    s.cpsr.passed .al = true ∧ s.CanGoOn ∧ f.regsOk 1#4 = false ∧ (WordForm.immT true 1#4 0#12).regsOk 15#4 = false ∧
    (f.regsOk 0#4 = true ∧ s.WordAlignOk (f.address s).addr ∧
      s.allowed ((f.address s).addr &&& 0xFFFFFFFC#32) 4 .read (f.privileged s) = true ∧
      s.allowed (f.address s).addr 1 .read (f.privileged s) = true ∧ f.writeback = true ∧
      s.word ((f.address s).addr &&& 0xFFFFFFFC#32) = some 0#32 ∧ s.byte (f.address s).addr = some 0#8 ∧
      start.word 0x1000#32 = none ∧ start.byte 0x1001#32 = none) ∧
    (g.regsOk 0#4 = true ∧ g.writeback = false) := by decide

theorem witness_LoadOfPc :
    let s := start |> reg 1 0x1000 |> wordAt 0x1000 0x00009001
    let f : WordForm := .imm true true true 1#4 0#12
    s.cpsr.passed .al = true ∧ (WordForm.imm true true true 15#4 0#12).regsOk 15#4 = false ∧
    (f.regsOk 15#4 = true ∧ s.WordAlignOk (f.address s).addr ∧
      s.allowed ((f.address s).addr &&& 0xFFFFFFFC#32) 4 .read (f.privileged s) = true ∧
      s.word ((f.address s).addr &&& 0xFFFFFFFC#32) = some 0x9001#32) ∧
    s.loadTarget 0x9001#32 = some (true, 0x9000#32) ∧ s.loadTarget 0x9002#32 = none := by decide

theorem witness_StoresWordAndByte :
    let s := start |> reg 1 0x1003
    let f : WordForm := .imm true true true 1#4 0xFFF#12
    s.cpsr.passed .al = true ∧ s.CanGoOn ∧ f.regsOk 1#4 = false ∧ f.regsOk 0#4 = true ∧
      f.regsOk 15#4 = true ∧ s.WordAlignOk (f.address s).addr ∧ f.writeback = true ∧
      s.allowed ((f.address s).addr &&& 0xFFFFFFFC#32) 4 .write (f.privileged s) = true ∧
      s.allowed (f.address s).addr 1 .write (f.privileged s) = true := by decide

theorem witness_LoadsHalfByteAndDouble :
    let s := start |> reg 1 0x1000 |> zeros 0x1008 2
    let f : HalfForm := .imm true true true 1#4 0#4 8#4
    let a := (f.address s).addr
    s.cpsr.passed .al = true ∧ s.CanGoOn ∧ f.regsOk 15#4 = false ∧ f.pairOk 3#4 = false ∧
    (f.pairOk 2#4 = true ∧ (HalfForm.reg true true false 1#4 3#4).offsetFree 2#4 = false) ∧
    (f.regsOk 14#4 = true ∧ a &&& 1#32 = 0#32 ∧ s.allowed a 2 .read s.privileged = true ∧
      s.allowed a 1 .read s.privileged = true ∧ f.writeback = true ∧ s.half a = some 0#16 ∧ s.byte a = some 0#8 ∧
      start.half a = none ∧ start.byte a = none) ∧
    (f.pairOk 12#4 = true ∧ f.offsetFree 12#4 = true ∧ a &&& 7#32 = 0#32 ∧ s.allowed a 4 .read s.privileged = true ∧
      s.allowed (a + 4#32) 4 .read s.privileged = true ∧ s.word a = some 0#32 ∧ s.word (a + 4#32) = some 0#32 ∧
      (start |> zeros 0x1008 1).word (a + 4#32) = none) := by decide +kernel

theorem witness_StoresHalfAndDouble :
    let s := start |> reg 1 0xFFFFFFF0
    let f : HalfForm := .imm true true true 1#4 0#4 8#4
    let a := (f.address s).addr
    s.cpsr.passed .al = true ∧ s.CanGoOn ∧ f.regsOk 1#4 = false ∧ f.pairOk 14#4 = false ∧
    (f.regsOk 14#4 = true ∧ a &&& 1#32 = 0#32 ∧ s.allowed a 2 .write s.privileged = true) ∧
    (f.pairOk 12#4 = true ∧ a &&& 7#32 = 0#32 ∧ s.allowed a 4 .write s.privileged = true ∧
      s.allowed (a + 4#32) 4 .write s.privileged = true) := by decide

theorem witness_DataAbortsOfSingleTransfers :
    let s := denied |> reg 1 0x5000
    let odd := start |> reg 1 0x1001
    let oddChecked := checked |> reg 1 0x1001
    let f : WordForm := .imm true true false 1#4 0#12
    let h : HalfForm := .imm true true false 1#4 0#4 0#4
    s.cpsr.passed .al = true ∧ f.regsOk 0#4 = true ∧ h.regsOk 0#4 = true ∧ h.pairOk 2#4 = true ∧
      h.offsetFree 2#4 = true ∧ ¬oddChecked.WordAlignOk (f.address oddChecked).addr ∧
    ((f.address s).addr = 0x5000#32 ∧ (h.address s).addr = 0x5000#32) ∧
    (∀ k ∈ [Access.read, .write], s.allowed 0x5000#32 4 k true = false ∧ s.allowed 0x5000#32 2 k true = false ∧
      s.allowed 0x5000#32 1 k true = false) ∧
    ((h.address odd).addr &&& 1#32 ≠ 0#32 ∧ odd.cfg.alignCheck = false) ∧
    ((h.address oddChecked).addr &&& 7#32 ≠ 0#32 ∧ oddChecked.cfg.alignCheck = true) := by decide

theorem witness_Swap :
    let s := start |> reg 1 0x1001 |> zeros 0x1000 1
    let d := denied |> reg 1 0x5000
    let c := checked |> reg 1 0x1001
    s.cpsr.passed .al = true ∧ ((1#4 : Reg) ≠ 15#4 ∧ (0#4 : Reg) ≠ 15#4 ∧ (1#4 : Reg) ≠ 0#4) ∧
    ¬c.WordAlignOk (c.reg 1#4) ∧ d.allowed (d.reg 1#4 &&& 0xFFFFFFFC#32) 4 .read d.privileged = false ∧
    d.allowed (d.reg 1#4) 1 .write d.privileged = false ∧
    (s.CanGoOn ∧ s.WordAlignOk (s.reg 1#4) ∧ s.word (s.reg 1#4 &&& 0xFFFFFFFC#32) = some 0#32 ∧
      s.byte (s.reg 1#4) = some 0#8 ∧ start.word 0x1000#32 = none ∧ start.byte 0x1001#32 = none ∧
      s.allowed (s.reg 1#4 &&& 0xFFFFFFFC#32) 4 .read s.privileged = true ∧
      s.allowed (s.reg 1#4 &&& 0xFFFFFFFC#32) 4 .write s.privileged = true ∧
      s.allowed (s.reg 1#4) 1 .read s.privileged = true ∧ s.allowed (s.reg 1#4) 1 .write s.privileged = true) :=
  by decide

/-- A block at the very top of the address space fits; one word more does not. -/
theorem witness_LoadMultiple :
    let s := start |> reg 1 0xFFFFFFFB |> zeros 0xFFFFFFF8 2
    let list := regList 0x000C#16
    let c := checked |> reg 1 0x1001
    let d := denied |> reg 1 0x4FFC
    s.cpsr.passed .al = true ∧ regList 0#16 = [] ∧ list = [2#4, 3#4] ∧ (1#4 : Reg) ∉ list ∧ (2#4 : Reg) ∈ list ∧
    ¬c.WordAlignOk (c.reg 1#4) ∧
    s.BlockOk (s.reg 1#4) (blockStart false true (s.reg 1#4) 2 &&& 0xFFFFFFFC#32) 2 .read ∧
    (FitsBelowTop 0xFFFFFFF8#32 2 ∧ ¬FitsBelowTop 0xFFFFFFFC#32 2) ∧
    (d.WordAlignOk (d.reg 1#4) ∧ FitsBelowTop 0x4FFC#32 2 ∧ ¬d.BlockAllowed 0x4FFC#32 2 .read ∧
      ¬d.BlockAllowed 0x4FFC#32 2 .write) ∧
    ((start |> zeros 0x1000 2).BlockOk 0x1000#32 0x1000#32 2 .read ∧ (0x000C#16).getLsbD 15 = false ∧ start.CanGoOn) ∧
    ¬(start |> zeros 0x1000 1).BlockWritten 0x1000#32 2 := by decide +kernel

theorem witness_LoadMultipleOfPc :
    let s := { start with spsrSvc := user.cpsr } |> reg 1 0x1000 |> zeros 0x1000 1 |>
      wordAt 0x1004 0x00009001
    (0x8001#16).getLsbD 15 = true ∧ (1#4 : Reg) ∉ regList 0x8001#16 ∧ s.BlockOk 0x1000#32 0x1000#32 2 .read ∧
    s.word 0x1004#32 = some 0x9001#32 ∧ s.loadTarget 0x9001#32 = some (true, 0x9000#32) ∧ s.loadTarget 2#32 = none ∧
    user.hasSpsr = false ∧
    (s.hasSpsr = true ∧ (1#4 : Reg) ∉ regList (0x0001#15) ∧ modeLegal s.cfg.arch s.spsr.m = true ∧
      s.spsr.t = false) ∧
    modeLegal start.cfg.arch start.spsr.m = false ∧
    (¬checked.WordAlignOk 0x1001#32 ∧ checked.hasSpsr = true) ∧ ¬FitsBelowTop 0xFFFFFFFC#32 2 ∧
    (denied.hasSpsr = true ∧ denied.WordAlignOk 0x4FFC#32 ∧ ¬denied.BlockAllowed 0x4FFC#32 2 .read) ∧
    ¬start.BlockWritten 0x1000#32 2 := by decide +kernel

theorem witness_StoreMultiple :
    regList 0#16 = [] ∧ (1#4 : Reg) ≠ 15#4 ∧ ((1#4 : Reg) ∈ regList 0x0006#16 ∧ (regList 0x0006#16).head? = some 1#4) ∧
    ((2#4 : Reg) ∈ regList 0x0006#16 ∧ (regList 0x0006#16).head? ≠ some 2#4) ∧
    (start.BlockOk 0x1000#32 0x1000#32 2 .write ∧ start.CanGoOn) := by decide

theorem witness_UserBankTransfers :
    start.cpsr.passed .al = true ∧ regList 0#15 = [] ∧ regList 6#15 ≠ [] ∧ regList 6#16 ≠ [] ∧ (0#4 : Reg) ≠ 15#4 ∧
      start.hasSpsr = true ∧ user.hasSpsr = false ∧ (start |> zeros 0x1000 2).BlockOk 0x1000#32 0x1000#32 2 .read ∧
      ¬start.BlockWritten 0x1000#32 2 ∧
      start.BlockOk 0x1000#32 0x1000#32 2 .write ∧ start.CanGoOn ∧
      (¬checked.WordAlignOk 0x1001#32 ∧ checked.hasSpsr = true) ∧ ¬FitsBelowTop 0xFFFFFFFC#32 2 ∧
      (denied.hasSpsr = true ∧ ¬denied.BlockAllowed 0x4FFC#32 2 .read ∧ ¬denied.BlockAllowed 0x4FFC#32 2 .write) := by
  decide

theorem witness_Branches :
    start.cpsr.passed .al = true ∧ (15#4 : Reg) = 15#4 ∧ (14#4 : Reg) ≠ 15#4 ∧
      (start |> inThumb).cpsr.passed .ne = true ∧ (start |> inThumb).CanGoOn ∧ bit1 true ++ (7#3 : LowReg) = 15#4 ∧
      bit1 true ++ (6#3 : LowReg) ≠ 15#4 := by decide

theorem witness_SoftwareInterruptBreakpointAndHint :
    let s := { start with cfg := Config.default } |> reg 0 0x18
    s.cpsr.passed .al = true ∧ (s.cfg.semihosting = true ∧ s.reg 0#4 = 0x18#32) ∧
      ¬(start.cfg.semihosting = true ∧ start.reg 0#4 = 0x18#32) ∧
    ((start |> flags 4).cpsr.passed .eq = true ∧ Cond.eq ≠ .al) ∧ (start |> bkptAborts).cfg.bkpt = .prefetchAbort ∧
      start.cfg.bkpt = .debugStop ∧ (15#4 : Reg) = 15#4 ∧ (0#4 : Reg) ≠ 15#4 ∧ start.CanGoOn := by decide

theorem witness_StatusRegisterMoves :
    start.cpsr.passed .al = true ∧ (start.hasSpsr = true ∧ user.hasSpsr = false ∧ start.CanGoOn) ∧
    (start.privileged = true ∧ (0x33#32).getLsbD 5 ≠ start.cpsr.t) ∧
    ((0xD1#32).getLsbD 5 = start.cpsr.t ∧ modeLegal start.cfg.arch ((0xD1#32).extractLsb' 0 5) = true) ∧
    modeLegal start.cfg.arch ((0xC0#32).extractLsb' 0 5) = false ∧ user.privileged = false := by decide

/-- Without Thumb bit 5 is reserved: MSR CPSR_c drops what is written to it (R38, R362). -/
theorem test_msr_without_thumb :
    next (exec (.msrImm .al false 1#4 0#4 0x33#8)
      { start with cfg := { start.cfg with arch := { start.cfg.arch with thumb := false } } })
      (fun t => t.cpsr.t == false && t.cpsr.m == 0x13#5 && t.pc == 0x8004#32) = true := by decide +kernel

/-- Without a VFP the numbers 10 and 11 are no coprocessors, whatever COPROC names (R500(a), R152). -/
theorem test_no_coprocessor_10_without_vfp :
    let s := { start with cfg := { start.cfg with coprocs := 0xFFFF#16, arch := { start.cfg.arch with fpu := .none } } }
    s.coprocPresent 10#4 = false ∧ s.coprocPresent 11#4 = false ∧ s.coprocPresent 15#4 = true := by decide

theorem witness_CoprocessorTransfers :
    let s := start |> withCoproc
    s.cpsr.passed .al = true ∧ ¬(start.coprocPresent 7#4 = true ∧ start.answer.accept = true) ∧
    (s.coprocPresent 7#4 = true ∧ s.answer.accept = true ∧ s.CanGoOn) ∧ (0#4 : Reg) ≠ 15#4 ∧ (0#4 : Reg) ≠ 1#4 := by
  decide

theorem witness_CoprocessorLoadsAndStores :
    let s := start |> withCoproc |> reg 1 0x1000 |> zeros 0x1004 2
    let pre := s.addressForm true true true 1#4 4#32
    let c := checked |> withCoproc |> reg 1 0x1001
    let top := start |> withCoproc |> reg 1 0xFFFFFFFC
    let d := denied |> withCoproc |> reg 1 0x4FFC
    s.cpsr.passed .al = true ∧ ¬(start.coprocPresent 7#4 = true ∧ start.answer.accept = true) ∧
    (s.coprocPresent 7#4 = true ∧ s.answer.accept = true ∧ pre.writeback = true ∧ pre.addr &&& 3#32 = 0#32 ∧
      FitsBelowTop pre.addr s.answer.count ∧ s.BlockAllowed pre.addr s.answer.count .read ∧
      s.BlockWritten pre.addr s.answer.count ∧ ¬start.BlockWritten pre.addr 2 ∧
      s.BlockAllowed pre.addr s.answer.words.length .write ∧ s.CanGoOn) ∧
    ((c.addressForm true true true 1#4 0#32).addr &&& 3#32 ≠ 0#32 ∧ c.cfg.alignCheck = true) ∧
    ¬FitsBelowTop (top.addressForm true true true 1#4 0#32).addr top.answer.count ∧
    (FitsBelowTop 0x4FFC#32 2 ∧ ¬d.BlockAllowed 0x4FFC#32 d.answer.count .read ∧
      ¬d.BlockAllowed 0x4FFC#32 d.answer.words.length .write) := by decide

theorem witness_ThumbArithmetic : (start |> inThumb).CanGoOn ∧ (1#3 : LowReg) ≠ 2#3 ∧ (2#3 : LowReg) = 2#3 := by decide

theorem witness_ThumbLogicAndShifts : (start |> inThumb |> at_ 0xFFFFFFFC).CanGoOn := by decide

theorem witness_ThumbHighRegisters :
    bit1 true ++ (7#3 : LowReg) = 15#4 ∧ bit1 true ++ (6#3 : LowReg) ≠ 15#4 ∧ (start |> inThumb).CanGoOn := by decide

theorem witness_ThumbCompares : (start |> inThumb).CanGoOn := by decide

theorem witness_ThumbSingleTransfers :
    let s := start |> inThumb |> reg 1 0x1000 |> zeros 0x1000 1
    let a := s.reg (lowReg 1#3)
    s.word a = some 0#32 ∧ (s.half a).map (·.signExtend 32) = some 0#32 ∧ s.byte a = some 0#8 ∧ start.word a = none ∧
    a &&& 3#32 = 0#32 ∧ s.allowed a 4 .read s.privileged = true ∧ s.allowed a 4 .write s.privileged = true ∧
      s.CanGoOn ∧ s.cfg.alignCheck = false ∧ checked.cfg.alignCheck = true ∧
      0x1001#32 &&& 1#32 ≠ 0#32 ∧ denied.allowed 0x5000#32 1 .read true = false ∧
      denied.allowed 0x8FFF#32 1 .write true = false := by decide

theorem witness_ThumbStoreMultiple :
    let s := start |> inThumb |> reg 13 0x2000 |> reg 1 0x1000
    let c := checked |> reg 1 0x1001 |> reg 13 0x2001
    (regList 0#8 : List Reg) = [] ∧ regList 3#8 ++ [14#4] = [0#4, 1#4, 14#4] ∧ s.CanGoOn ∧
      s.BlockOk (s.reg 13#4 - 12#32) 0x1FF4#32 3 .write ∧ s.BlockOk (s.reg 1#4) 0x1000#32 2 .write ∧
      ¬c.WordAlignOk (c.reg 1#4) ∧ ¬c.WordAlignOk (c.reg 13#4 - 4#32) ∧ ¬FitsBelowTop 0xFFFFFFFC#32 2 ∧
      ¬denied.BlockAllowed 0x4FFC#32 2 .write ∧ (regList 6#8).head? = some (lowReg 1#3) ∧
      (regList 3#8).head? ≠ some (lowReg 1#3) := by decide

theorem witness_ThumbLoadMultiple :
    let s := start |> inThumb |> reg 13 0x2000 |> reg 1 0x1000 |> zeros 0x1000 2 |> zeros 0x2000 2 |>
      wordAt 0x2008 0x9001
    let v4 := s |> version4
    s.BlockOk (s.reg 13#4) 0x2000#32 3 .read ∧ s.BlockOk (s.reg 1#4) 0x1000#32 2 .read ∧ s.CanGoOn ∧
      s.cfg.arch.version = .v5 ∧ v4.cfg.arch.version ≠ .v5 ∧ 0x9002#32 &&& 3#32 = 2#32 ∧ 0x9001#32 &&& 3#32 ≠ 2#32 ∧
      (lowReg 1#3 ∉ regList 1#8 ∧ lowReg 1#3 ∈ regList 2#8) ∧ ¬denied.BlockAllowed 0x4FFC#32 2 .read ∧
      s.word 0x2008#32 = some 0x9001#32 ∧ ¬start.BlockWritten 0x1000#32 2 := by decide +kernel

theorem witness_VfpSpecialOperands :
    (0x7F800000 < 2 ^ fpSingle.width ∧ 0x7FF0000000000000 < 2 ^ fpDouble.width) ∧
    fpSingle.signalling 0x7F800001 = true ∧ fpDouble.signalling 0x7FF0000000000001 = true ∧
    (fpSingle.signalling 0x7FC00000 = false ∧ fpSingle.isNan 0x7FC00000 = true ∧ fpSingle.isNan 0 = false) ∧
    fpSingle.unpack 0x7F800000 = .inf false ∧ fpSingle.unpack 0xFF800000 = .inf true ∧
    fpSingle.unpack 0xBF800000 = .fin true 0x800000 (-23) ∧ fpSingle.unpack 0 = .fin false 0 (-149) ∧
    fpDouble.unpack 0x7FF0000000000000 = .inf false ∧ fpDouble.unpack 0xBFF0000000000000 = .fin true (2 ^ 52) (-52) ∧
    (fpSingle.operand { rounding := .nearest, flush := true } 1 = 0 ∧
      fpSingle.operandExc { rounding := .nearest, flush := true } 1 = excIXC) := by decide

/-- 1.5 = 3 * 2^-1 in both precisions, and a denormalized number read as +0: finite operands, not negative, not 0 and 0. -/
theorem witness_VfpArithmeticIsCorrect (m : FpMode) :
    fpSingle.ReadsAs m 0x3FC00000 false (finValue false 0xC00000 (-23)) ∧
    fpDouble.ReadsAs m 0x3FF8000000000000 false (finValue false 0x18000000000000 (-52)) ∧
    fpSingle.ReadsAs { rounding := .zero, flush := true } 0x80000001 false (finValue false 0 (-149)) ∧
    (0 : ℚ) < finValue false 0xC00000 (-23) := by
  refine ⟨⟨_, _, ?_, rfl⟩, ⟨_, _, ?_, rfl⟩, ⟨_, _, by decide, rfl⟩, by norm_num [finValue]⟩
  · have : fpSingle.denormal 0x3FC00000 = false := by decide
    rw [FpFormat.operand, this, Bool.and_false]
    decide
  · have : fpDouble.denormal 0x3FF8000000000000 = false := by decide
    rw [FpFormat.operand, this, Bool.and_false]
    decide

theorem witness_RoundingIsCorrect :
    (3 : Nat) ≠ 0 ∧ fpSingle.isNan 0x7FC00000 = true ∧ fpDouble.unpack 0xFFF0000000000000 = .inf true ∧
    fpSingle.unpack 0x7F800001 = .nan false 1 ∧ (0x7F800001 : Nat) < 2 ^ 32 ∧
    fpDouble.unpack 0x7FF0000000000000 = .inf false ∧ (0x7FF0000000000000 : Nat) < 2 ^ 64 := by decide

theorem witness_VfpScalarArithmetic :
    vfpOn.cpsr.passed .al = true ∧ vfpOn.vfpEnabled = true ∧ vfpOn.CanGoOn ∧ vfpOn.trapEnables = 0#5 ∧
    vfpOn.scalar .single 31 ∧ (vfpOn |> fpscr 0x00030000).scalar .single 7 ∧
    (vfpOn |> fpscr 0x00030000).scalar .double 3 ∧ trapOn.trapEnables ≠ 0#5 := by decide

theorem witness_VfpVectorArithmetic :
    let s := vfpOn |> fpscr 0x00030000
    s.vfpEnabled = true ∧ s.trapEnables = 0#5 ∧ s.CanGoOn ∧
    (1 < s.vecLen ∧ Precision.single.firstBank 8 = false ∧ s.vecStride = some 1 ∧
      s.vecLen * 1 ≤ Precision.single.bankSize) ∧
    (vfpOn |> fpscr 0x00130000).vecStride = none ∧
    ((vfpOn |> fpscr 0x00370000).vecStride = some 2 ∧
      Precision.single.bankSize < (vfpOn |> fpscr 0x00370000).vecLen * 2) := by decide

theorem witness_VfpCompares :
    vfpOn.cpsr.passed .al = true ∧ vfpOn.vfpEnabled = true ∧ vfpOn.CanGoOn ∧
    vfpOn.trapEnables &&& excIOC = 0#5 ∧ trapOn.trapEnables &&& excIOC ≠ 0#5 := by decide

theorem witness_VfpConversions :
    fpDouble.isNan 0x3FF0000000000000 = false ∧ fpDouble.isNan 0x7FF8000000000000 = true ∧
    fpDouble.signalling 0x7FF8000000000000 = false ∧ fpDouble.signalling 0x7FF0000000000001 = true ∧
    vfpOn.trapEnables.getLsbD 0 = false ∧ trapOn.trapEnables.getLsbD 0 = true ∧ vfpOn.vfpEnabled = true ∧
    vfpOn.CanGoOn := by decide

theorem witness_VfpRegisterTransfers :
    vfpOn.cpsr.passed .al = true ∧ vfpOn.vfpEnabled = true ∧ vfpOn.CanGoOn ∧ (0#4 : Reg) ≠ 15#4 ∧
    start.cfg.arch.fpu ≠ .none ∧ start.privileged = true ∧ user.privileged = false ∧
    ((2#4 : BitVec 4) ≠ 0#4 ∧ (2#4 : BitVec 4) ≠ 1#4 ∧ (2#4 : BitVec 4) ≠ 8#4) := by decide

theorem witness_VfpLoadsAndStores :
    let s := vfpOn |> reg 1 0x1000 |> zeros 0x1004 2
    s.word 0x1004#32 = some 0#32 ∧ s.doubleAt 0x1004#32 = some 0#64 ∧ s.word 0x1000#32 = none ∧
    s.doubleAt 0x1008#32 = none ∧ s.vfpEnabled = true ∧ s.CanGoOn ∧ s.reg 1#4 + 4#32 &&& 3#32 = 0#32 ∧
    s.allowed 0x1004#32 4 .read s.privileged = true ∧ s.allowed 0x1008#32 4 .write s.privileged = true ∧
    0x1002#32 &&& 3#32 ≠ 0#32 ∧ checked.cfg.alignCheck = true ∧ s.cfg.alignCheck = false ∧
    denied.allowed 0x5000#32 4 .read denied.privileged = false ∧
    denied.allowed 0x5000#32 4 .write denied.privileged = false := by decide

/-- At 0xFFFFFFFC the second word is the one at 0 (notes/assumptions/14). -/
theorem witness_VfpLoadsAndStores_top :
    let s := vfpOn |> reg 1 0xFFFFFFFC |> wordAt 0xFFFFFFFC 0x11 |> wordAt 0 0x22
    let a := s.reg 1#4 + BitVec.ofNat 32 (4 * 0)
    a &&& 3#32 = 0#32 ∧ a + 4#32 = 0#32 ∧ s.CanGoOn ∧
    s.allowed a 4 .read s.privileged = true ∧ s.allowed (a + 4#32) 4 .read s.privileged = true ∧
    s.allowed a 4 .write s.privileged = true ∧ s.allowed (a + 4#32) 4 .write s.privileged = true ∧
    next (exec (.fldd .al true 1#4 3#4 0#8) s) (fun t => t.dreg 3 == 0x0000002200000011#64) = true := by
  decide +kernel

theorem witness_VfpBlockTransfers :
    let s := vfpOn |> reg 1 0x1000 |> zeros 0x0FF0 4
    let a := VfpBlock.db.start (s.reg 1#4) 4
    s.vfpEnabled = true ∧ s.CanGoOn ∧ a &&& 3#32 = 0#32 ∧ FitsBelowTop a 4 ∧
    s.BlockWritten a 4 ∧ ¬vfpOn.BlockWritten a 4 ∧ s.BlockAllowed a 4 .read ∧ s.BlockAllowed a 4 .write ∧
    ¬((4 : Nat) = 0 ∨ 32 < 28 + 4) ∧
    ((5 : Nat) = 0 ∨ 32 < 28 + 5) ∧ ¬((2 : Nat) = 0 ∨ 16 < 14 + 2) ∧ ((3 : Nat) = 0 ∨ 16 < 14 + 3) ∧
    (VfpBlock.db.writeback = true ∧ (1#4 : Reg) ≠ 15#4) ∧ ¬FitsBelowTop 0xFFFFFFFC#32 2 ∧
    ¬denied.BlockAllowed 0x4FFC#32 2 .read := by decide

theorem witness_VfpDisabledOrTrapping :
    start.cpsr.passed .al = true ∧ start.vfpEnabled = false ∧ trapOn.vfpEnabled = true ∧ trapOn.trapEnables ≠ 0#5 ∧
    ({ start with cfg := { start.cfg with arch := { start.cfg.arch with fpu := .none } } } : State).cfg.arch.fpu =
      .none := by decide

end Sys2Proof.Tests
end

section
/-! ## Failed conditions (00_scope.md R11, 10_state.md R29 and R35) -/

namespace Sys2Proof.Machine

/-- The meaning of a conditional instruction is a rule that runs only under its condition (R11). This is read off each
instruction's own definition; a VFP instruction tests the condition before it tests for the VFP (R500). -/
theorem exec_eq_ifPassed {i : Instr} {c : Cond} (h : i.condition = some c) :
    ∃ rule : State → Except Trap State, ∀ s, exec i s = s.ifPassed c rule := by
  cases i <;> cases h  -- an instruction without a condition contradicts `h`
  all_goals exact ⟨_, fun _ => rfl⟩

/-- Under a failed condition the meaning of an instruction is `advance` alone, whatever its rule is. -/
theorem exec_of_not_passed {i : Instr} {c : Cond} {s : State} (hi : i.condition = some c)
    (hc : s.cpsr.passed c = false) : exec i s = s.finish s.advance := by
  obtain ⟨rule, hrule⟩ := exec_eq_ifPassed hi
  rw [hrule, State.ifPassed_false hc]

/-- Settles O3: only `advance` is left, which moves the pc on or faults at the top of the address space. -/
theorem failedConditionDoesNothing : Obligations.FailedConditionDoesNothing := by
  intro i c s hi hc
  rw [exec_of_not_passed hi hc]
  constructor
  · intro hgo
    rw [State.advance_ok hgo, State.finish_ok]
  · intro htop
    rw [State.advance_fault htop, State.finish_fault]

end Sys2Proof.Machine
end

section
/-! ## The conditions (10_state.md R35, R36) -/

namespace Sys2Proof.Machine

/-- The Q flag is no input of a condition (R36). -/
@[simp] theorem Psr.passed_setQ (p : Psr) (c : Cond) (b : Bool) : ({ p with q := b } : Psr).passed c = p.passed c := by
  cases c <;> rfl

/-- Settles O4: the fifteen rows of the table of R35 in its order, then Q. -/
theorem conditionTable : Obligations.ConditionTable := by
  intro p
  refine ⟨Iff.rfl, ?ne, Iff.rfl, ?cc, Iff.rfl, ?pl, Iff.rfl, ?vc, ?hi, ?ls, ?ge, ?lt, ?gt, ?le, rfl, p.passed_setQ⟩
  case ne | cc | pl | vc => exact iff_of_eq (Bool.not_eq_true' _)
  case hi | ls | gt | le => simp [Psr.passed]
  case ge => exact beq_iff_eq
  case lt => exact bne_iff_ne

end Sys2Proof.Machine
end

section
/-! ## Reset (10_state.md R50, 60_exceptions.md R613(c), 70_reset_and_hazards.md R701) -/

namespace Sys2Proof.Machine

@[simp] theorem State.takeException_reset (s : State) : s.takeException .reset = s.resetEntry := rfl

theorem State.memKept_resetEntry (s : State) : s.MemKept s.resetEntry := State.MemKept.of_mem rfl

/-- Settles O6: `resetEntry` gives the CPSR, the pc, FPSCR and FPEXC their values, and takes memory, the parameters and
FPSID from the state before. -/
theorem resetState : Obligations.ResetState := by
  intro s
  rw [State.takeException_reset]
  exact ⟨rfl, rfl, rfl, rfl, rfl, rfl, rfl, s.memKept_resetEntry, rfl, rfl, rfl, rfl, rfl, rfl, rfl, rfl, rfl⟩

/-- Settles O7. -/
theorem resetMeetsInvariant : Obligations.ResetMeetsInvariant where
  memory := rfl
  mode := by decide
  thumb := by decide
  pc := by decide
  vectors := by decide
  fpscr := by decide
  fpexc := by decide

end Sys2Proof.Machine
end

section
/-! ## What decoding can answer (30_encoding.md R100, R150) -/

namespace Sys2Proof

/-- The answer of the decoder passes a test, if it is an instruction. -/
def Decoded.every (p : Instr → Bool) : Decoded → Bool
  | .instr i => p i
  | .undefined => true
  | .unpredictable => true

theorem Decoded.every_instr {p : Instr → Bool} {d : Decoded} {i : Instr} (h : d.every p = true) (hi : d = .instr i) :
    p i = true := by
  subst hi
  exact h

/-- A row of the table: what it answers where its bits match, and what the rows after it answer. -/
theorem Decoded.every_row {p : Instr → Bool} {b : Bool} {d e : Decoded} (hd : b = true → d.every p = true)
    (he : e.every p = true) : (if b then d else e).every p = true := by
  cases b
  · exact he
  · exact hd rfl

theorem Decoded.every_shouldBe {p : Instr → Bool} {ok : Bool} {i : Instr} (h : p i = true) :
    (shouldBe ok i).every p = true := Decoded.every_row (fun _ => h) rfl

theorem Arch.thumb_of_hasT5 {a : Arch} (h : a.hasT5 = true) : a.thumb = true := (Bool.and_eq_true_iff.mp h).2

/-- BLX to a label alone enters Thumb state without testing that the processor has it (R334). -/
def Instr.entersThumb : Instr → Bool
  | .blxLabel _ _ => true
  | _ => false

/-- What an ARM word may stand for on a processor: no Thumb instruction, and BLX to a label only with Thumb. -/
def Arch.armInstr (a : Arch) (i : Instr) : Bool := !i.inThumb && (!i.entersThumb || a.thumb)

/-- The tenth row is BLX to a label, which version 5 with Thumb has (R112, R150). -/
theorem decodeUncond_every (a : Arch) (f : ArmWord) : (decodeUncond a f).every a.armInstr = true := by
  unfold decodeUncond
  iterate 2 refine Decoded.every_row (fun _ => Decoded.every_shouldBe rfl) ?_
  iterate 7 refine Decoded.every_row (fun _ => rfl) ?_
  exact Decoded.every_row (fun hrow => Arch.thumb_of_hasT5 (Bool.and_eq_true_iff.mp hrow).2) rfl

theorem decodeArmWord_every (a : Arch) (en : Bool) (f : ArmWord) :
    (decodeArmWord a en f).every a.armInstr = true := by
  unfold decodeArmWord
  split
  · exact decodeUncond_every a f
  · unfold decodeDpImmShift decodeDpRegShift decodeMisc decodeMulSwap decodeExtra decodeDpImm decodeLsImm decodeLsReg
      decodeMultiple decodeBranch decodeCoprocTransfer decodeCoprocOp shouldBe
    split
    all_goals
      repeat' refine Decoded.every_row (fun _ => ?_) ?_
      all_goals rfl

/-- The fifth row is the conditional branch, whose condition field may name no condition (R134). -/
theorem decodeThumb110_every (a : Arch) (f : ThumbWord) : (decodeThumb110 a f).every Instr.inThumb = true := by
  unfold decodeThumb110
  iterate 4 refine Decoded.every_row (fun _ => rfl) ?_
  refine Decoded.every_row (fun _ => ?_) rfl
  split <;> rfl

theorem decodeThumbWord_every (a : Arch) (f : ThumbWord) : (decodeThumbWord a f).every Instr.inThumb = true := by
  unfold decodeThumbWord decodeThumb000 decodeThumb001 decodeThumb010 decodeThumb011 decodeThumb100 decodeThumb101
    decodeThumb111 shouldBe
  split
  case h_7 => exact decodeThumb110_every a f
  all_goals
    repeat' refine Decoded.every_row (fun _ => ?_) ?_
    all_goals rfl

/-- Every row of the Thumb table needs the T variant (R150). -/
theorem decodeThumbWord_of_not_thumb {a : Arch} (h : a.thumb = false) (f : ThumbWord) :
    decodeThumbWord a f = .undefined := by
  unfold decodeThumbWord
  split <;>
    simp [decodeThumb000, decodeThumb001, decodeThumb010, decodeThumb011, decodeThumb100, decodeThumb101,
      decodeThumb110, decodeThumb111, Arch.hasT5, h]

theorem decodeArm_instr {a : Arch} {en : Bool} {w : Word} {i : Instr} (h : decodeArm a en w = .instr i) :
    i.inThumb = false ∧ (i.entersThumb = true → a.thumb = true) := by
  have hi : a.armInstr i = true := Decoded.every_instr (decodeArmWord_every a en _) h
  simpa [Arch.armInstr, ← Bool.not_eq_true, imp_iff_not_or] using hi

theorem decodeThumb_instr {a : Arch} {h : Half} {i : Instr} (hi : decodeThumb a h = .instr i) :
    i.inThumb = true ∧ a.thumb = true := by
  refine ⟨Decoded.every_instr (decodeThumbWord_every a _) hi, ?_⟩
  by_contra ht
  rw [decodeThumb, decodeThumbWord_of_not_thumb (by simpa using ht)] at hi
  cases hi

/-- Settles O12. -/
theorem decodeStaysInState : Obligations.DecodeStaysInState :=
  ⟨fun _ _ _ _ h => (decodeArm_instr h).1, fun _ _ _ hi => decodeThumb_instr hi⟩

end Sys2Proof
end

section
/-! ## Aligned addresses (10_state.md R26, R28) -/

namespace Sys2Proof.Machine

/-- An address that is a multiple of the instruction size: 2 in Thumb state (`t`), 4 in ARM state (R26, R100). -/
abbrev Aligned (t : Bool) (a : Word) : Prop := a &&& (if t then 1#32 else 3#32) = 0#32

theorem aligned_iff {t : Bool} {a : Word} : Aligned t a ↔ a.toNat % (if t then 2 else 4) = 0 := by
  have hmask : (a &&& (if t then 1#32 else 3#32)).toNat = a.toNat % (if t then 2 else 4) := by
    cases t
    · exact Nat.and_two_pow_sub_one_eq_mod a.toNat 2
    · exact Nat.and_two_pow_sub_one_eq_mod a.toNat 1
  rw [Aligned, ← hmask, BitVec.toNat_eq]
  rfl

/-- A multiple of 4 is aligned in both states. -/
theorem Aligned.of_arm {t : Bool} {a : Word} (h : Aligned false a) : Aligned t a := by
  rw [aligned_iff] at h ⊢
  cases t <;> simp only [if_true, if_false, Bool.false_eq_true] at h ⊢ <;> omega

/-- What is aligned in one of the states is a multiple of 2. -/
theorem Aligned.halfword {t : Bool} {a : Word} (h : Aligned t a) : Aligned true a := by
  cases t
  · exact h.of_arm
  · exact h

theorem Aligned.add {t : Bool} {a b : Word} (ha : Aligned t a) (hb : Aligned t b) : Aligned t (a + b) := by
  rw [aligned_iff] at ha hb ⊢
  rw [BitVec.toNat_add]
  cases t <;> simp only [if_true, if_false, Bool.false_eq_true] at ha hb ⊢ <;> omega

theorem aligned_and {t : Bool} {m : Word} (hm : Aligned t m) (a : Word) : Aligned t (a &&& m) := by
  rw [Aligned, BitVec.and_assoc, show m &&& _ = 0#32 from hm, BitVec.and_zero]

theorem aligned_shiftLeft_two (t : Bool) (a : Word) : Aligned t (a <<< 2) := by
  refine Aligned.of_arm (aligned_iff.mpr ?_)
  rw [BitVec.toNat_shiftLeft, Nat.shiftLeft_eq]
  simp only [if_false, Bool.false_eq_true]
  omega

theorem aligned_shiftLeft_one (a : Word) : Aligned true (a <<< 1) := by
  rw [aligned_iff, BitVec.toNat_shiftLeft, Nat.shiftLeft_eq]
  simp only [if_true]
  omega

theorem getLsbD_zero_eq (a : Word) : a.getLsbD 0 = decide (a.toNat % 2 = 1) := Nat.testBit_zero _

theorem getLsbD_one_eq (a : Word) : a.getLsbD 1 = decide (a.toNat / 2 % 2 = 1) := by
  rw [BitVec.getLsbD, Nat.testBit_succ, Nat.testBit_zero]

/-- A value whose two low bits are 0. -/
theorem aligned_of_bits {a : Word} (h0 : a.getLsbD 0 = false) (h1 : a.getLsbD 1 = false) : Aligned false a := by
  rw [getLsbD_zero_eq, decide_eq_false_iff_not] at h0
  rw [getLsbD_one_eq, decide_eq_false_iff_not] at h1
  rw [aligned_iff]
  simp only [if_false, Bool.false_eq_true]
  omega

/-- A value taken as an interworking target: bit 0 gives the state, and in ARM state bit 1 is not 1 (R232, R399). -/
theorem aligned_interworking {v : Word} (h : v &&& 3#32 ≠ 2#32) : Aligned (v.getLsbD 0) (v &&& 0xFFFFFFFE#32) := by
  cases h0 : v.getLsbD 0
  · have h4 : v.toNat % 4 ≠ 2 := by
      rw [← Nat.and_two_pow_sub_one_eq_mod v.toNat 2]
      exact fun e => h (BitVec.eq_of_toNat_eq e)
    have h1 : v.getLsbD 1 = false := by
      rw [getLsbD_zero_eq, decide_eq_false_iff_not] at h0
      rw [getLsbD_one_eq, decide_eq_false_iff_not]
      omega
    exact aligned_of_bits (by rw [BitVec.getLsbD_and, h0, Bool.false_and])
      (by rw [BitVec.getLsbD_and, h1, Bool.false_and])
  · exact aligned_and (by decide) v

theorem State.aligned_size (s : State) : Aligned s.cpsr.t s.size := by
  unfold State.size
  cases s.cpsr.t <;> decide

/-- The next instruction is as aligned as this one. -/
theorem State.aligned_next {s : State} (h : s.pcAligned) : Aligned s.cpsr.t s.next := Aligned.add h s.aligned_size

theorem State.aligned_branchTarget {s : State} (h : s.pcAligned) (imm24 : BitVec 24) :
    Aligned s.cpsr.t (s.branchTarget imm24) :=
  (Aligned.add h (Aligned.of_arm (by decide))).add (aligned_shiftLeft_two _ _)

/-- The target of BLX to a label is a halfword further when H is 1 (R334). -/
theorem State.aligned_blxTarget {s : State} (h : s.pcAligned) (imm24 : BitVec 24) (half : Bool) :
    Aligned true (s.branchTarget imm24 + (bit2 half false).zeroExtend 32) :=
  (State.aligned_branchTarget h imm24).halfword.add (by cases half <;> decide)

theorem State.aligned_thumbTarget {s : State} (h : s.pcAligned) (ht : s.cpsr.t = true) {n : Nat} (imm : BitVec n) :
    Aligned s.cpsr.t (s.thumbTarget imm) := by
  have hpc : Aligned true s.pc := ht ▸ h
  rw [ht]
  exact (hpc.add (by decide)).add (aligned_shiftLeft_one _)

end Sys2Proof.Machine
end

section
/-! ## What keeps the invariant: the updates of the state (00_scope.md R9, 10_state.md R24 to R44) -/

namespace Sys2Proof.Machine

/-- From `s` to `t` the parameters and FPSID are as before and the invariant is not lost. What an instruction does is a
chain of such changes. -/
structure State.Keeps (s t : State) : Prop where
  cfg : t.cfg = s.cfg
  fpsid : t.fpsid = s.fpsid
  inv : s.Inv → t.Inv

theorem State.Keeps.refl (s : State) : s.Keeps s := ⟨rfl, rfl, id⟩

theorem State.Keeps.trans {s t u : State} (h : s.Keeps t) (h' : t.Keeps u) : s.Keeps u :=
  ⟨h'.cfg.trans h.cfg, h'.fpsid.trans h.fpsid, h'.inv ∘ h.inv⟩

/-! ### Updates that touch nothing the invariant speaks of -/

/-- What the invariant speaks of, and FPSID. -/
def State.core (s : State) : Config × Word × Memory × Word × Bool × BitVec 5 × Word × Word :=
  (s.cfg, s.fpsid, s.mem, s.pc, s.cpsr.t, s.cpsr.m, s.fpscr, s.fpexc)

theorem State.Keeps.of_core {s t : State} (h : t.core = s.core) : s.Keeps t := by
  simp only [State.core, Prod.mk.injEq] at h
  obtain ⟨hcfg, hid, hmem, hpc, ht, hm, hscr, hexc⟩ := h
  refine ⟨hcfg, hid, fun hi => ⟨?_, ?_, ?_, ?_, ?_, ?_, ?_⟩⟩
  · rw [hmem]; exact hi.memory
  · rw [State.modeOk, hcfg, hm]; exact hi.mode
  · rw [State.thumbLegal, hcfg, ht]; exact hi.thumb
  · rw [State.pcAligned, hpc, ht]; exact hi.pc
  · rw [State.vectorsAligned, hcfg]; exact hi.vectors
  · rw [State.fpscrDefined, hscr]; exact hi.fpscr
  · rw [State.fpexcDefined, hexc]; exact hi.fpexc

@[simp] theorem State.core_setNzcv (s : State) (f : Nzcv) : (s.setNzcv f).core = s.core := rfl
@[simp] theorem State.core_setQIf (s : State) (b : Bool) : (s.setQIf b).core = s.core := rfl
@[simp] theorem State.core_setAcc (s : State) (v : BitVec 40) : (s.setAcc v).core = s.core := rfl
@[simp] theorem State.core_drawn (s : State) (k : Nat) : (s.drawn k).core = s.core := rfl
@[simp] theorem State.core_nextInputs (s : State) : s.nextInputs.core = s.core := rfl
@[simp] theorem State.core_setSreg (s : State) (i : Nat) (v : Word) : (s.setSreg i v).core = s.core := rfl
@[simp] theorem State.core_setDreg (s : State) (i : Nat) (v : DWord) : (s.setDreg i v).core = s.core := rfl
@[simp] theorem State.core_coprocDone (s : State) (cp : BitVec 4) (c : CoprocCommand) :
    (s.coprocDone cp c).core = s.core := rfl
@[simp] theorem State.core_setReg (s : State) (r : Reg) (v : Word) : (s.setReg r v).core = s.core := by
  simp [State.core]
@[simp] theorem State.core_setNzcvIf (s : State) (b : Bool) (f : Nzcv) : (s.setNzcvIf b f).core = s.core := by
  simp [State.core]
@[simp] theorem State.core_setSpsrOf (s : State) (b : Bank) (p : Psr) : (s.setSpsrOf b p).core = s.core := by
  cases b <;> rfl
@[simp] theorem State.core_setSpsr (s : State) (p : Psr) : (s.setSpsr p).core = s.core := State.core_setSpsrOf s _ p
@[simp] theorem State.core_setBankReg (s : State) (b : Bank) (r : Reg) (v : Word) :
    (s.setBankReg b r v).core = s.core := rfl
@[simp] theorem State.core_writeBack (s : State) (a : Address) (rn : Reg) : (s.writeBack a rn).core = s.core := by
  simp [State.core]
@[simp] theorem State.core_writeBase (s : State) (w : Bool) (rn : Reg) (v : Word) :
    (s.writeBase w rn v).core = s.core := by simp [State.core]
@[simp] theorem State.core_drawnIf (s : State) (b : Bool) (k : Nat) : (s.drawnIf b k).core = s.core := by
  simp [State.core]
@[simp] theorem State.core_drawnForNan (s : State) (b : Bool) : (s.drawnForNan b).core = s.core := by
  simp [State.core]
@[simp] theorem State.core_vfpWriteBack (s : State) (w up : Bool) (rn : Reg) (n : Nat) :
    (s.vfpWriteBack w up rn n).core = s.core := by simp [State.core]
@[simp] theorem State.core_setFreg (s : State) (p : Precision) (i b : Nat) : (s.setFreg p i b).core = s.core := by
  simp [State.core]
@[simp] theorem State.core_setRegs (s : State) (rs : List Reg) (vs : List Word) : (s.setRegs rs vs).core = s.core := by
  simp [State.core]
@[simp] theorem State.core_setUserRegs (s : State) (rs : List Reg) (vs : List Word) :
    (s.setUserRegs rs vs).core = s.core := by simp [State.core]
@[simp] theorem State.core_setSregs (s : State) (i : Nat) (vs : List Word) : (s.setSregs i vs).core = s.core := by
  simp [State.core]
@[simp] theorem State.core_setDregs (s : State) (i : Nat) (vs : List Word) : (s.setDregs i vs).core = s.core := by
  simp [State.core]

/-! ### Memory (20_memory.md R70) -/

/-- Only memory is another, and it is in canonical form if it was so before. -/
theorem State.Keeps.of_mem {s t : State} (h : t = { s with mem := t.mem })
    (hw : s.mem.wf = true → t.mem.wf = true) : s.Keeps t := by
  rw [h]
  exact ⟨rfl, rfl, fun hi => { hi with memory := hw hi.memory }⟩

theorem State.Keeps.writeByte {s t : State} {a : Word} {v : Byte} {p : Bool} (h : s.writeByte a v p = .ok t) :
    s.Keeps t := by
  obtain ⟨-, rfl⟩ := State.writeByte_eq_ok h
  exact .of_mem (s.setByte_frame a v) (s.setByte_wf a v)

theorem State.Keeps.writeHalf {s t : State} {a : Word} {v : Half} {p : Bool} (h : s.writeHalf a v p = .ok t) :
    s.Keeps t := by
  obtain ⟨-, rfl⟩ := State.writeHalf_eq_ok h
  exact .of_mem (s.setHalf_frame a v) (s.setHalf_wf a v)

theorem State.Keeps.writeWord {s t : State} {a v : Word} {p : Bool} (h : s.writeWord a v p = .ok t) : s.Keeps t := by
  obtain ⟨-, rfl⟩ := State.writeWord_eq_ok h
  exact .of_mem (s.setWord_frame a v) (s.setWord_wf a v)

theorem State.Keeps.writeWords {s t : State} {vs : List Word} {a : Word} {p : Bool}
    (h : s.writeWords p vs a = .ok t) : s.Keeps t := by
  obtain rfl := State.writeWords_eq_ok h
  exact .of_mem (s.setWords_frame vs a) (s.setWords_wf vs a)

/-! ### The VFP's system registers (R42, R43) -/

/-- The bits of a word lie in a mask. -/
theorem and_eq_left_iff {v m : Word} : v &&& m = v ↔ ∀ i < 32, v.getLsbD i = true → m.getLsbD i = true := by
  constructor
  · intro h i _ hv
    rw [← h, BitVec.getLsbD_and, Bool.and_eq_true_iff] at hv
    exact hv.2
  · intro h
    refine BitVec.eq_of_getLsbD_eq fun i hi => ?_
    rw [BitVec.getLsbD_and]
    cases hv : v.getLsbD i
    · rfl
    · rw [h i hi hv, Bool.and_self]

theorem State.Keeps.of_fpscr {s t : State} (h : t = { s with fpscr := t.fpscr })
    (hd : s.fpscrDefined → t.fpscrDefined) : s.Keeps t := by
  rw [State.fpscrDefined] at hd
  rw [h]
  exact ⟨rfl, rfl, fun hi => { hi with fpscr := hd hi.fpscr }⟩

/-- The cumulative exception bits are FPSCR[4:0]. -/
theorem State.keeps_cumulate (s : State) (e : FpExc) : s.Keeps (s.cumulate e) := by
  refine .of_fpscr rfl fun h => and_eq_left_iff.mpr fun i hi hv => ?_
  rw [State.cumulate_fpscr, BitVec.getLsbD_or, Bool.or_eq_true_iff] at hv
  rcases hv with hv | hv
  · exact and_eq_left_iff.mp h i hi hv
  · rw [BitVec.getLsbD_setWidth, Bool.and_eq_true_iff] at hv
    have h5 : i < 5 := BitVec.lt_of_getLsbD hv.2
    interval_cases i <;> rfl

/-- The flags are FPSCR[31:28]. -/
theorem State.keeps_setFpFlags (s : State) (f : Nzcv) : s.Keeps (s.setFpFlags f) := by
  refine .of_fpscr rfl fun h => and_eq_left_iff.mpr fun i hi hv => ?_
  by_cases h28 : i < 28
  · rw [State.setFpFlags_fpscr, BitVec.getLsbD_append, if_pos h28, BitVec.getLsbD_extractLsb', Nat.zero_add,
      Bool.and_eq_true_iff] at hv
    exact and_eq_left_iff.mp h i hi hv.2
  · have : 28 ≤ i := by omega
    interval_cases i <;> rfl

theorem State.keeps_setFpscr (s : State) (v : Word) : s.Keeps (s.setFpscr v) :=
  .of_fpscr rfl fun _ => by rw [State.fpscrDefined, State.setFpscr_fpscr, BitVec.and_assoc, BitVec.and_self]

theorem State.keeps_setFpexc (s : State) (v : Word) : s.Keeps (s.setFpexc v) :=
  ⟨rfl, rfl, fun hi => { hi with
    fpexc := by rw [State.fpexcDefined, State.setFpexc_fpexc, BitVec.and_assoc, BitVec.and_self] }⟩

theorem State.keeps_setVfpSystem (s : State) (v : Word) (r : VfpSystem) : s.Keeps (s.setVfpSystem v r) := by
  cases r
  case fpscr => exact s.keeps_setFpscr v
  case fpexc => exact s.keeps_setFpexc v
  case fpsid | other => exact .refl s

theorem State.keeps_runElements (s : State) (p : Precision) (op : Nat → Nat → Nat → FpResult) (es : List Element) :
    s.Keeps (s.runElements p op es) := by
  induction es generalizing s with
  | nil => exact .refl s
  | cons e es ih => exact ((State.Keeps.of_core (by simp)).trans (State.keeps_cumulate _ _)).trans (ih _)

/-! ### The CPSR and the pc (R24, R26, R28, R32) -/

/-- A legal CPSR, and a pc that is aligned for its state. -/
theorem State.Keeps.goto {s : State} {p : Psr} {v : Word} (h : s.Inv → modeLegal s.cfg.arch p.m = true ∧
    (p.t = true → s.cfg.arch.thumb = true) ∧ Aligned p.t v) : s.Keeps ((s.setCpsr p).setPc v) :=
  ⟨rfl, rfl, fun hi => { hi with mode := (h hi).1, thumb := (h hi).2.1, pc := (h hi).2.2 }⟩

theorem State.Keeps.setPc {s : State} {v : Word} (h : s.pcAligned → Aligned s.cpsr.t v) : s.Keeps (s.setPc v) :=
  .goto fun hi => ⟨hi.mode, hi.thumb, h hi.pc⟩

/-- A branch that selects the state. -/
theorem State.Keeps.jump {s : State} {b : Bool} {v : Word} (hb : b = true → s.cfg.arch.thumb = true)
    (hv : s.pcAligned → Aligned b v) : s.Keeps ((s.setThumb b).setPc v) :=
  .goto fun hi => ⟨hi.mode, hb, hv hi.pc⟩

/-- A branch with link. -/
theorem State.Keeps.link {s : State} {r : Reg} {ret v : Word} (h : s.pcAligned → Aligned s.cpsr.t v) :
    s.Keeps ((s.setReg r ret).setPc v) :=
  .trans (.of_core (State.core_setReg s r ret)) (.setPc (by simpa [State.pcAligned] using h))

/-- A branch with link that selects the state. -/
theorem State.Keeps.linkJump {s : State} {r : Reg} {ret v : Word} {b : Bool}
    (hb : b = true → s.cfg.arch.thumb = true) (hv : s.pcAligned → Aligned b v) :
    s.Keeps (((s.setReg r ret).setThumb b).setPc v) :=
  .trans (.of_core (State.core_setReg s r ret)) (.jump (by simpa using hb) (by simpa [State.pcAligned] using hv))

theorem State.Keeps.setCpsr {s : State} {p : Psr} (h : s.Inv → modeLegal s.cfg.arch p.m = true ∧ p.t = s.cpsr.t) :
    s.Keeps (s.setCpsr p) :=
  ⟨rfl, rfl, fun hi => { hi with
    mode := (h hi).1
    thumb := fun ht => hi.thumb ((h hi).2.symm.trans ht)
    pc := by rw [State.pcAligned, State.setCpsr_cpsr, (h hi).2]; exact hi.pc }⟩

/-! ### Exceptions (60_exceptions.md R601, R603) -/

theorem Exc.mode_legal (a : Arch) (e : Exc) : modeLegal a e.mode = true := by cases e <;> rfl

theorem Exc.aligned_offset (e : Exc) : Aligned false e.offset := by cases e <;> decide

theorem State.keeps_resetEntry (s : State) : s.Keeps s.resetEntry :=
  ⟨rfl, rfl, fun hi =>
    { memory := hi.memory, mode := Exc.mode_legal _ .reset, thumb := nofun, pc := hi.vectors, vectors := hi.vectors
      fpscr := BitVec.zero_and, fpexc := BitVec.zero_and }⟩

/-- Entering an exception is the saving of the link and of the CPSR, then a branch. -/
theorem State.enter_eq (s : State) (e : Exc) (ret : Word) :
    s.enter e ret = ((((s.setBankReg (bankOf e.mode) 14#4 ret).setSpsrOf (bankOf e.mode) s.cpsr).setCpsr
      { s.cpsr with m := e.mode, t := false, i := true, f := s.cpsr.f || e.masksFiq }).setPc
      (s.cfg.vectorBase + e.offset)) := rfl

theorem State.keeps_enter (s : State) (e : Exc) (ret : Word) : s.Keeps (s.enter e ret) := by
  rw [State.enter_eq]
  generalize hu : (s.setBankReg (bankOf e.mode) 14#4 ret).setSpsrOf (bankOf e.mode) s.cpsr = u
  have hsaved : s.Keeps u := .of_core (by simp [← hu])
  refine hsaved.trans (.goto fun hi => ⟨e.mode_legal _, fun ht => absurd ht Bool.false_ne_true, ?_⟩)
  rw [← hsaved.cfg]
  exact Aligned.add hi.vectors e.aligned_offset

theorem State.keeps_takeException (s : State) (e : Exc) : s.Keeps (s.takeException e) := by
  cases e
  case reset => exact s.keeps_resetEntry
  all_goals exact s.keeps_enter _ _

end Sys2Proof.Machine
end

section
/-! ## What keeps the invariant: the shared operations of the instructions -/

namespace Sys2Proof.Machine

/-- Whatever next state a rule answers, the way there from `s` keeps the invariant. -/
structure RuleKeeps (s : State) (r : Except Trap State) : Prop where
  keeps : ∀ t, r = .ok t → s.Keeps t

theorem RuleKeeps.ok {s t : State} (h : s.Keeps t) : RuleKeeps s (.ok t) where
  keeps := by
    rintro _ ⟨⟩
    exact h

theorem RuleKeeps.error {s : State} (e : Trap) : RuleKeeps s (.error e) where
  keeps := by
    intro _ h
    cases h

/-- A part that answers `a`, and what follows it. -/
theorem RuleKeeps.bind {α : Type} {s : State} {x : Except Trap α} {f : α → Except Trap State}
    (h : ∀ a, x = .ok a → RuleKeeps s (f a)) : RuleKeeps s (x >>= f) where
  keeps t ht := by
    obtain ⟨a, ha, hf⟩ := bind_eq_ok ht
    exact (h a ha).keeps t hf

/-- A check or a read whose answer does not matter for the invariant. -/
theorem RuleKeeps.after {α : Type} {s : State} {x : Except Trap α} {f : α → Except Trap State}
    (h : ∀ a, RuleKeeps s (f a)) : RuleKeeps s (x >>= f) := .bind fun a _ => h a

theorem RuleKeeps.ite {s : State} {c : Prop} [Decidable c] {q r : Except Trap State} (hq : c → RuleKeeps s q)
    (hr : ¬c → RuleKeeps s r) : RuleKeeps s (if c then q else r) := by
  split
  · exact hq ‹_›
  · exact hr ‹_›

theorem RuleKeeps.of_keeps {s t : State} {r : Except Trap State} (h : s.Keeps t) (hr : RuleKeeps t r) :
    RuleKeeps s r where
  keeps u hu := h.trans (hr.keeps u hu)

/-! ### The pc -/

theorem RuleKeeps.advance {s t : State} (h : s.Keeps t) : RuleKeeps s t.advance where
  keeps u hu := by
    obtain ⟨-, rfl⟩ := State.advance_eq_ok hu
    exact h.trans (.setPc State.aligned_next)

/-- The end of an instruction that has changed nothing the invariant speaks of. -/
theorem RuleKeeps.done {s t : State} (h : t.core = s.core) : RuleKeeps s t.advance := .advance (.of_core h)

theorem RuleKeeps.branchExchange {s t : State} (h : s.Keeps t) {v : Word} : RuleKeeps s (t.branchExchange v) := by
  refine .of_keeps h (.ite (fun _ => ?thumb) fun h0 => ?arm)
  case thumb =>
    exact .ite (fun ht => .ok (.jump (fun _ => ht) fun _ => aligned_and (by decide) v)) fun _ => .error _
  case arm =>
    refine .ite (fun _ => .error _) fun h1 => .ok (.jump (fun hb => absurd hb Bool.false_ne_true) fun _ => ?_)
    exact aligned_of_bits (by simpa using h0) (by simpa using h1)

theorem RuleKeeps.writePc {s t : State} (h : s.Keeps t) {v : Word} : RuleKeeps s (t.writePc v) := by
  refine .of_keeps h (.ite (fun _ => .ite (fun hv => ?_) fun _ => .error _) fun _ => ?_)
  · exact .ok (.setPc fun _ => Aligned.of_arm hv)
  · exact .ok (.setPc fun _ => Aligned.of_arm (aligned_and (by decide) v))

theorem RuleKeeps.loadPc {s t : State} (h : s.Keeps t) {v : Word} : RuleKeeps s (t.loadPc v) := by
  refine .of_keeps h (.ite (fun h5 => .ite (fun _ => .error _) fun hv => ?_) fun _ => .writePc (.refl t))
  exact .ok (.jump (fun _ => Arch.thumb_of_hasT5 h5) fun _ => aligned_interworking hv)

/-- POP of the pc runs in Thumb state, and below version 5 stays there (R399). -/
theorem RuleKeeps.popPc {s t : State} (h : s.Keeps t) (ht : t.cpsr.t = true) {v : Word} :
    RuleKeeps s (t.popPc v) := by
  refine .of_keeps h (.ite (fun _ => .ite (fun _ => .error _) fun hv => ?_) fun _ => ?_)
  · exact .ok (.goto fun hi => ⟨hi.mode, fun _ => hi.thumb ht, aligned_interworking hv⟩)
  · exact .ok (.setPc fun _ => by rw [ht]; exact aligned_and (by decide) v)

theorem RuleKeeps.exceptionReturn {s t : State} (h : s.Keeps t) {v : Word} : RuleKeeps s (t.exceptionReturn v) := by
  refine .of_keeps h (.after fun _ => .bind fun _ hmode => .bind fun _ hthumb => .ok (.goto fun _ => ?_))
  refine ⟨?_, fun ht => ?_, ?_⟩
  · simpa using forbid_eq_ok hmode
  · simpa [ht] using forbid_eq_ok hthumb
  · cases t.spsr.t
    · exact aligned_and (by decide) v
    · exact aligned_and (by decide) v

/-! ### Data processing and multiplies -/

theorem RuleKeeps.writeResult {s : State} {b : Bool} {rd : Reg} {v : Word} {f : Nzcv} :
    RuleKeeps s (s.writeResult b rd v f) := by
  refine .ite (fun _ => .ite (fun _ => ?_) fun _ => ?_) fun _ => ?_
  · exact .exceptionReturn (.refl s)
  · exact .writePc (.refl s)
  · exact .done (by simp)

theorem RuleKeeps.writeSum {s : State} {b : Bool} {rd : Reg} {r : AddResult} : RuleKeeps s (s.writeSum b rd r) :=
  .writeResult

theorem RuleKeeps.writeLogical {s : State} {b : Bool} {rd : Reg} {v : Word} {c : Bool} :
    RuleKeeps s (s.writeLogical b rd v c) := .writeResult

theorem RuleKeeps.compareSum {s : State} {r : AddResult} : RuleKeeps s (s.compareSum r) := .done rfl

theorem RuleKeeps.testLogical {s : State} {v : Word} {c : Bool} : RuleKeeps s (s.testLogical v c) := .done rfl

theorem RuleKeeps.writeProduct {s : State} {b : Bool} {rd : Reg} {v : Word} : RuleKeeps s (s.writeProduct b rd v) :=
  .done (by simp)

theorem RuleKeeps.writeLongProduct {s : State} {b : Bool} {rdHi rdLo : Reg} {v : DWord} :
    RuleKeeps s (s.writeLongProduct b rdHi rdLo v) := .done (by simp)

theorem RuleKeeps.writeAccumulated {s : State} {rd : Reg} {sum : Int} : RuleKeeps s (s.writeAccumulated rd sum) :=
  .done (by simp)

theorem RuleKeeps.writeSaturated {s : State} {rd : Reg} {v : Word} {b : Bool} :
    RuleKeeps s (s.writeSaturated rd v b) := .done (by simp)

theorem RuleKeeps.writeLowSum {s : State} {rd : LowReg} {r : AddResult} : RuleKeeps s (s.writeLowSum rd r) :=
  .done (by simp)

theorem RuleKeeps.writeLowLogical {s : State} {rd : LowReg} {v : Word} {c : Bool} :
    RuleKeeps s (s.writeLowLogical rd v c) := .done (by simp)

theorem RuleKeeps.writeLowPlain {s : State} {r : Reg} {v : Word} : RuleKeeps s (s.writeLowPlain r v) :=
  .done (by simp)

theorem RuleKeeps.writeHigh {s : State} (ht : s.cpsr.t = true) {rd : Reg} {v : Word} :
    RuleKeeps s (s.writeHigh rd v) := by
  refine .ite (fun _ => .ok (.setPc fun _ => ?_)) fun _ => .done (by simp)
  rw [ht]
  exact aligned_and (by decide) v

/-! ### Transfers -/

theorem RuleKeeps.loadWordTo {s : State} {a : Address} {rn rd : Reg} {p : Bool} :
    RuleKeeps s (s.loadWordTo a rn rd p) :=
  .after fun _ => .after fun _ => .ite (fun _ => .loadPc (.of_core (by simp))) fun _ => .done (by simp)

theorem RuleKeeps.loadByteTo {s : State} {a : Address} {rn rd : Reg} {p : Bool} :
    RuleKeeps s (s.loadByteTo a rn rd p) := .after fun _ => .done (by simp)

theorem RuleKeeps.loadHalfTo {s : State} {a : Address} {rn rd : Reg} : RuleKeeps s (s.loadHalfTo a rn rd) :=
  .after fun _ => .after fun _ => .done (by simp)

theorem RuleKeeps.loadSignedHalfTo {s : State} {a : Address} {rn rd : Reg} :
    RuleKeeps s (s.loadSignedHalfTo a rn rd) := .after fun _ => .after fun _ => .done (by simp)

theorem RuleKeeps.loadSignedByteTo {s : State} {a : Address} {rn rd : Reg} :
    RuleKeeps s (s.loadSignedByteTo a rn rd) := .after fun _ => .done (by simp)

theorem RuleKeeps.loadDoubleTo {s : State} {a : Address} {rn rd : Reg} : RuleKeeps s (s.loadDoubleTo a rn rd) :=
  .after fun _ => .after fun _ => .done (by simp)

/-- The end of an instruction that has written memory. -/
theorem RuleKeeps.stored {s t u : State} (h : s.Keeps t) (hu : u.core = t.core) : RuleKeeps s u.advance :=
  .advance (h.trans (.of_core hu))

theorem RuleKeeps.storeWordFrom {s : State} {a : Address} {rn rd : Reg} {p : Bool} :
    RuleKeeps s (s.storeWordFrom a rn rd p) := .after fun _ => .bind fun _ h => .stored (.writeWord h) (by simp)

theorem RuleKeeps.storeByteFrom {s : State} {a : Address} {rn rd : Reg} {p : Bool} :
    RuleKeeps s (s.storeByteFrom a rn rd p) := .bind fun _ h => .stored (.writeByte h) (by simp)

theorem RuleKeeps.storeHalfFrom {s : State} {a : Address} {rn rd : Reg} : RuleKeeps s (s.storeHalfFrom a rn rd) :=
  .after fun _ => .bind fun _ h => .stored (.writeHalf h) (by simp)

theorem RuleKeeps.storeDoubleFrom {s : State} {a : Address} {rn rd : Reg} :
    RuleKeeps s (s.storeDoubleFrom a rn rd) :=
  .after fun _ => .bind fun _ h => .bind fun _ h' => .stored ((State.Keeps.writeWord h).trans (.writeWord h')) (by simp)

theorem RuleKeeps.loadLowWord {s : State} {rd : LowReg} {a : Word} : RuleKeeps s (s.loadLowWord rd a) :=
  .after fun _ => .after fun _ => .done (by simp)

theorem RuleKeeps.loadLowHalf {s : State} {rd : LowReg} {a : Word} : RuleKeeps s (s.loadLowHalf rd a) :=
  .after fun _ => .after fun _ => .done (by simp)

theorem RuleKeeps.loadLowSignedHalf {s : State} {rd : LowReg} {a : Word} : RuleKeeps s (s.loadLowSignedHalf rd a) :=
  .after fun _ => .after fun _ => .done (by simp)

theorem RuleKeeps.loadLowByte {s : State} {rd : LowReg} {a : Word} : RuleKeeps s (s.loadLowByte rd a) :=
  .after fun _ => .done (by simp)

theorem RuleKeeps.loadLowSignedByte {s : State} {rd : LowReg} {a : Word} : RuleKeeps s (s.loadLowSignedByte rd a) :=
  .after fun _ => .done (by simp)

theorem RuleKeeps.storeLowWord {s : State} {rd : LowReg} {a : Word} : RuleKeeps s (s.storeLowWord rd a) :=
  .after fun _ => .bind fun _ h => .advance (.writeWord h)

theorem RuleKeeps.storeLowHalf {s : State} {rd : LowReg} {a : Word} : RuleKeeps s (s.storeLowHalf rd a) :=
  .after fun _ => .bind fun _ h => .advance (.writeHalf h)

theorem RuleKeeps.storeLowByte {s : State} {rd : LowReg} {a : Word} : RuleKeeps s (s.storeLowByte rd a) :=
  .bind fun _ h => .advance (.writeByte h)

/-- A block of words stored after two checks. -/
theorem State.Keeps.of_checked {s t : State} {c d : Except Trap Unit} {p : Bool} {vs : List Word} {a : Word}
    (h : (do c; d; s.writeWords p vs a) = .ok t) : s.Keeps t := by
  obtain ⟨_, -, h⟩ := bind_eq_ok h
  obtain ⟨_, -, h⟩ := bind_eq_ok h
  exact .writeWords h

theorem State.Keeps.storeBlock {s t : State} {p u : Bool} {base : Word} {vs : List Word}
    (h : s.storeBlock p u base vs = .ok t) : s.Keeps t := .of_checked h

theorem State.Keeps.storeLowBlock {s t : State} {start : Word} {vs : List Word}
    (h : s.storeLowBlock start vs = .ok t) : s.Keeps t := .of_checked h

theorem State.Keeps.vfpStoreBlock {s t : State} {up : Bool} {rn : Reg} {n : Nat} {vs : List Word}
    (h : s.vfpStoreBlock up rn n vs = .ok t) : s.Keeps t := .of_checked h

/-! ### Coprocessors -/

theorem RuleKeeps.coprocDataOp {s : State} {cp : BitVec 4} {c : CoprocCommand} : RuleKeeps s (s.coprocDataOp cp c) :=
  .after fun _ => .done rfl

theorem RuleKeeps.coprocSend {s : State} {cp : BitVec 4} {rd : Reg} {c : CoprocCommand} :
    RuleKeeps s (s.coprocSend cp rd c) := .after fun _ => .after fun _ => .done rfl

theorem RuleKeeps.coprocReceive {s : State} {cp : BitVec 4} {rd : Reg} {c : CoprocCommand} :
    RuleKeeps s (s.coprocReceive cp rd c) := by
  refine .after fun _ => .done ?_
  split <;> simp

theorem RuleKeeps.coprocLoad {s : State} {two long : Bool} {cp crd : BitVec 4} {rn : Reg} {a : Address} :
    RuleKeeps s (s.coprocLoad two long cp crd rn a) :=
  .after fun _ => .after fun _ => .after fun _ => .after fun _ => .after fun _ => .done (by simp)

theorem RuleKeeps.coprocStore {s : State} {two long : Bool} {cp crd : BitVec 4} {rn : Reg} {a : Address} :
    RuleKeeps s (s.coprocStore two long cp crd rn a) :=
  .after fun _ => .after fun _ => .after fun _ => .after fun _ => .bind fun _ h =>
    .stored (.writeWords h) (by simp)

/-! ### The VFP -/

theorem RuleKeeps.vfpOperate {s : State} {p : Precision} {fd fn fm : Nat} {op : Nat → Nat → Nat → FpResult} :
    RuleKeeps s (s.vfpOperate p fd fn fm op) := .after fun _ => .advance (s.keeps_runElements p op _)

theorem RuleKeeps.vfpMove {s : State} {p : Precision} {fd fm : Nat} {op : Nat → Nat} :
    RuleKeeps s (s.vfpMove p fd fm op) := .vfpOperate

theorem RuleKeeps.vfpArith {s : State} {p : Precision} {fd fn fm : Nat} {op : Nat → Nat → Nat → FpResult} :
    RuleKeeps s (s.vfpArith p fd fn fm op) := .after fun _ => .vfpOperate

theorem RuleKeeps.vfpConvert {s t : State} (h : s.Keeps t) {p : Precision} {fd : Nat} {r : FpResult} :
    RuleKeeps s (t.vfpConvert p fd r) :=
  .after fun _ => .advance (h.trans ((State.Keeps.of_core (by simp)).trans (State.keeps_cumulate _ _)))

theorem RuleKeeps.vfpCompare {s : State} {c : FpComparison} : RuleKeeps s (s.vfpCompare c) :=
  .after fun _ => .advance ((s.keeps_setFpFlags _).trans (State.keeps_cumulate _ _))

theorem RuleKeeps.vfpToArm {s : State} {rd : Reg} {v : Word} : RuleKeeps s (s.vfpToArm rd v) :=
  .after fun _ => .done (by simp)

theorem RuleKeeps.vfpFromArm {s : State} {rd : Reg} {i : Nat} : RuleKeeps s (s.vfpFromArm rd i) :=
  .after fun _ => .done rfl

theorem RuleKeeps.vfpLoadSingles {s : State} {up w : Bool} {rn : Reg} {first n : Nat} :
    RuleKeeps s (s.vfpLoadSingles up w rn first n) := .after fun _ => .after fun _ => .done (by simp)

theorem RuleKeeps.vfpLoadDoubles {s : State} {up w : Bool} {rn : Reg} {first n : Nat} :
    RuleKeeps s (s.vfpLoadDoubles up w rn first n) := .after fun _ => .after fun _ => .done (by simp)

theorem RuleKeeps.vfpLoadUnknown {s : State} {up w : Bool} {rn : Reg} {first n : Nat} :
    RuleKeeps s (s.vfpLoadUnknown up w rn first n) := .after fun _ => .after fun _ => .done (by simp)

theorem RuleKeeps.vfpStoreSingles {s : State} {up w : Bool} {rn : Reg} {first n : Nat} :
    RuleKeeps s (s.vfpStoreSingles up w rn first n) :=
  .after fun _ => .bind fun _ h => .stored (.vfpStoreBlock h) (by simp)

theorem RuleKeeps.vfpStoreDoubles {s : State} {up w : Bool} {rn : Reg} {first n : Nat} :
    RuleKeeps s (s.vfpStoreDoubles up w rn first n) :=
  .after fun _ => .bind fun _ h => .stored (.vfpStoreBlock h) (by simp)

theorem RuleKeeps.vfpStoreUnknown {s : State} {up w : Bool} {rn : Reg} {first n : Nat} :
    RuleKeeps s (s.vfpStoreUnknown up w rn first n) :=
  .after fun _ => .bind fun _ h => .stored (.vfpStoreBlock h) (by simp)

/-! ### SWI, BKPT, MSR -/

theorem RuleKeeps.softwareInterrupt {s : State} {b : Bool} : RuleKeeps s (s.softwareInterrupt b) :=
  .ite (fun _ => .ok (.of_core rfl)) fun _ => .error _

theorem RuleKeeps.breakpoint {s : State} {imm : BitVec 16} : RuleKeeps s (s.breakpoint imm) := by
  unfold State.breakpoint
  split
  · exact .error _
  · exact .error _

theorem Psr.toWord_t (p : Psr) : p.toWord.getLsbD 5 = p.t := by
  unfold Psr.toWord
  rw [BitVec.getLsbD_append, if_neg (by decide), BitVec.getLsbD_append, if_pos (by decide), bit3_getLsbD_0]

theorem Psr.toWord_m (p : Psr) : p.toWord.extractLsb' 0 5 = p.m := by
  refine BitVec.eq_of_getLsbD_eq fun i hi => ?_
  unfold Psr.toWord
  rw [BitVec.getLsbD_extractLsb', Nat.zero_add, BitVec.getLsbD_append, if_pos hi, decide_eq_true hi, Bool.true_and]

/-- The control byte is under the mask of MSR when its field is selected, in a privileged mode (R362). -/
theorem msrMask_getLsbD (fields : BitVec 4) (p : Bool) {i : Nat} (hi : i < 8) :
    (if p then psrMask fields else psrMask fields &&& 0xFF000000#32).getLsbD i = (fields.getLsbD 0 && p) := by
  revert fields p
  interval_cases i <;> decide

theorem mergeBits_getLsbD {old v mask : Word} {i : Nat} (h : mask.getLsbD i = false) :
    (mergeBits old v mask).getLsbD i = old.getLsbD i := by
  rw [mergeBits, BitVec.getLsbD_or, BitVec.getLsbD_and, BitVec.getLsbD_and, BitVec.getLsbD_not, h, Bool.and_false,
    Bool.or_false, Bool.not_false, Bool.and_true]
  exact Bool.and_eq_left_iff_imp.mpr fun hv => decide_eq_true (BitVec.lt_of_getLsbD hv)

/-- Where the control byte is not under the mask, T and the mode are as before. -/
theorem mergeBits_control (p : Psr) (v : Word) {mask : Word} (h : ∀ i < 8, mask.getLsbD i = false) :
    (mergeBits p.toWord v mask).getLsbD 5 = p.t ∧ (mergeBits p.toWord v mask).extractLsb' 0 5 = p.m := by
  constructor
  · rw [mergeBits_getLsbD (h 5 (by decide)), p.toWord_t]
  · rw [← p.toWord_m]
    refine BitVec.eq_of_getLsbD_eq fun i hi => ?_
    rw [BitVec.getLsbD_extractLsb', BitVec.getLsbD_extractLsb', Nat.zero_add, mergeBits_getLsbD (h i (by omega))]

/-- A CPSR written as a word: the mode is one of the processor's, and T is as before wherever T exists (R362). -/
theorem State.Keeps.setCpsr_ofWord {s : State} {w : Word}
    (hm : s.modeOk → modeLegal s.cfg.arch (w.extractLsb' 0 5) = true)
    (ht : s.cfg.arch.thumb = true → w.getLsbD 5 = s.cpsr.t) : s.Keeps (s.setCpsr (Psr.ofWord s.cfg.arch w)) := by
  refine .setCpsr fun hi => ⟨hm hi.mode, ?_⟩
  rw [Psr.ofWord]
  cases hthumb : s.cfg.arch.thumb
  · have harm : s.cpsr.t = false :=
      Bool.eq_false_iff.mpr fun h => Bool.false_ne_true (hthumb.symm.trans (hi.thumb h))
    rw [Bool.and_false, harm]
  · rw [Bool.and_true, ht hthumb]

/-- With the control byte written, MSR tests the new T and mode; without it they are the old ones. -/
theorem RuleKeeps.writePsr {s : State} {r : Bool} {fields : BitVec 4} {v : Word} :
    RuleKeeps s (s.writePsr r fields v) := by
  refine .ite (fun _ => .after fun _ => .done (by simp)) fun _ => ?_
  refine .bind fun _ hstate => .bind fun _ hmode => .advance ?_
  replace hstate := forbid_eq_ok hstate
  replace hmode := forbid_eq_ok hmode
  have hmask := fun i => @msrMask_getLsbD fields s.privileged i
  cases hc : fields.getLsbD 0 && s.privileged
  · obtain ⟨ht, hm⟩ := mergeBits_control s.cpsr v fun i hi => (hmask i hi).trans hc
    exact .setCpsr_ofWord (fun h => hm ▸ h) fun _ => ht
  · rw [hc, Bool.true_and] at hstate hmode
    exact .setCpsr_ofWord (fun _ => by simpa using hmode) fun h => by simpa [h] using hstate

end Sys2Proof.Machine
end

section
/-! ## What keeps the invariant: the instructions and the step -/

namespace Sys2Proof.Machine

/-- Whatever next state an instruction or a step answers, the way there from `s` keeps the invariant. -/
structure OutcomeKeeps (s : State) (o : Host.Outcome State Fault Refusal) : Prop where
  keeps : ∀ t, o = .next t → s.Keeps t

theorem OutcomeKeeps.finish {s : State} {r : Except Trap State} (h : RuleKeeps s r) : OutcomeKeeps s (s.finish r) where
  keeps t ht := by
    rcases State.finish_next ht with hr | ⟨e, -, rfl⟩
    · exact h.keeps t hr
    · exact s.keeps_takeException e

theorem OutcomeKeeps.next {s t : State} (h : s.Keeps t) : OutcomeKeeps s (.next t) where
  keeps := by
    rintro _ ⟨⟩
    exact h

theorem OutcomeKeeps.fault (s : State) (f : Fault) : OutcomeKeeps s (.fault f) where
  keeps := by
    intro _ h
    cases h

theorem OutcomeKeeps.always {s : State} {rule : State → Except Trap State} (h : RuleKeeps s (rule s)) :
    OutcomeKeeps s (s.always rule) := .finish h

/-- Under a failed condition the pc alone moves on. -/
theorem OutcomeKeeps.ifPassed {s : State} {c : Cond} {rule : State → Except Trap State} (h : RuleKeeps s (rule s)) :
    OutcomeKeeps s (s.ifPassed c rule) :=
  .finish (.ite (fun _ => h) fun _ => .done rfl)

theorem OutcomeKeeps.vfpRule {s : State} {c : Cond} {rule : State → Except Trap State} (h : RuleKeeps s (rule s)) :
    OutcomeKeeps s (s.vfpRule c rule) := .ifPassed (.bind fun _ _ => h)

/-! ### The instructions

The cases are grouped by the operation that ends the instruction; what differs inside a group are the operands. -/

/-- An ARM instruction keeps the invariant, whatever the state; BLX to a label needs Thumb. -/
theorem exec_keeps_of_arm {s : State} {i : Instr} (harm : i.inThumb = false)
    (henter : i.entersThumb = true → s.cfg.arch.thumb = true) : OutcomeKeeps s (exec i s) := by
  cases i
  -- ARM data processing
  case andRegReg | eorRegReg | orrRegReg | bicRegReg | movRegReg | mvnRegReg =>
    apply OutcomeKeeps.ifPassed
    exact .after fun _ => .writeLogical
  case andRegImm | eorRegImm | orrRegImm | bicRegImm | movRegImm | mvnRegImm | andImm | eorImm | orrImm | bicImm
      | movImm | mvnImm =>
    apply OutcomeKeeps.ifPassed
    exact .writeLogical
  case addRegReg | subRegReg | rsbRegReg | adcRegReg | sbcRegReg | rscRegReg =>
    apply OutcomeKeeps.ifPassed
    exact .after fun _ => .writeSum
  case addRegImm | subRegImm | rsbRegImm | adcRegImm | sbcRegImm | rscRegImm | addImm | subImm | rsbImm | adcImm
      | sbcImm | rscImm =>
    apply OutcomeKeeps.ifPassed
    exact .writeSum
  case tstRegReg | teqRegReg =>
    apply OutcomeKeeps.ifPassed
    exact .after fun _ => .testLogical
  case tstRegImm | teqRegImm | tstImm | teqImm =>
    apply OutcomeKeeps.ifPassed
    exact .testLogical
  case cmpRegReg | cmnRegReg =>
    apply OutcomeKeeps.ifPassed
    exact .after fun _ => .compareSum
  case cmpRegImm | cmnRegImm | cmpImm | cmnImm =>
    apply OutcomeKeeps.ifPassed
    exact .compareSum
  case clz | smulXY | smulwY | mar =>
    apply OutcomeKeeps.ifPassed
    exact .after fun _ => .done (by simp)
  -- ARM multiplies
  case mul | mla =>
    apply OutcomeKeeps.ifPassed
    exact .after fun _ => .after fun _ => .writeProduct
  case umull | umlal | smull | smlal =>
    apply OutcomeKeeps.ifPassed
    exact .after fun _ => .writeLongProduct
  case smlalXY =>
    apply OutcomeKeeps.ifPassed
    exact .after fun _ => .after fun _ => .writeLongProduct
  case smlaXY | smlawY =>
    apply OutcomeKeeps.ifPassed
    exact .after fun _ => .writeAccumulated
  case qadd | qsub | qdadd | qdsub =>
    apply OutcomeKeeps.ifPassed
    exact .after fun _ => .writeSaturated
  case mia | miaph | miaXY =>
    apply OutcomeKeeps.ifPassed
    exact .after fun _ => .done rfl
  case mra =>
    apply OutcomeKeeps.ifPassed
    exact .after fun _ => .after fun _ => .done (by simp)
  -- ARM single transfers
  case ldrImm | ldrtImm =>
    apply OutcomeKeeps.ifPassed
    exact .after fun _ => .loadWordTo
  case ldrReg | ldrtReg =>
    apply OutcomeKeeps.ifPassed
    exact .after fun _ => .after fun _ => .loadWordTo
  case strImm | strtImm =>
    apply OutcomeKeeps.ifPassed
    exact .after fun _ => .storeWordFrom
  case strReg | strtReg =>
    apply OutcomeKeeps.ifPassed
    exact .after fun _ => .after fun _ => .storeWordFrom
  case ldrbtImm =>
    apply OutcomeKeeps.ifPassed
    exact .after fun _ => .loadByteTo
  case ldrbImm | ldrbReg | ldrbtReg =>
    apply OutcomeKeeps.ifPassed
    exact .after fun _ => .after fun _ => .loadByteTo
  case strbtImm =>
    apply OutcomeKeeps.ifPassed
    exact .after fun _ => .storeByteFrom
  case strbImm | strbReg | strbtReg =>
    apply OutcomeKeeps.ifPassed
    exact .after fun _ => .after fun _ => .storeByteFrom
  case ldrhImm =>
    apply OutcomeKeeps.ifPassed
    exact .after fun _ => .loadHalfTo
  case ldrhReg =>
    apply OutcomeKeeps.ifPassed
    exact .after fun _ => .after fun _ => .loadHalfTo
  case strhImm =>
    apply OutcomeKeeps.ifPassed
    exact .after fun _ => .storeHalfFrom
  case strhReg =>
    apply OutcomeKeeps.ifPassed
    exact .after fun _ => .after fun _ => .storeHalfFrom
  case ldrshImm =>
    apply OutcomeKeeps.ifPassed
    exact .after fun _ => .loadSignedHalfTo
  case ldrshReg =>
    apply OutcomeKeeps.ifPassed
    exact .after fun _ => .after fun _ => .loadSignedHalfTo
  case ldrsbImm =>
    apply OutcomeKeeps.ifPassed
    exact .after fun _ => .loadSignedByteTo
  case ldrsbReg =>
    apply OutcomeKeeps.ifPassed
    exact .after fun _ => .after fun _ => .loadSignedByteTo
  case ldrdImm =>
    apply OutcomeKeeps.ifPassed
    exact .after fun _ => .loadDoubleTo
  case ldrdReg =>
    apply OutcomeKeeps.ifPassed
    exact .after fun _ => .after fun _ => .after fun _ => .loadDoubleTo
  case strdImm =>
    apply OutcomeKeeps.ifPassed
    exact .after fun _ => .storeDoubleFrom
  case strdReg =>
    apply OutcomeKeeps.ifPassed
    exact .after fun _ => .after fun _ => .storeDoubleFrom
  case pldImm =>
    apply OutcomeKeeps.always
    exact .done rfl
  case pldReg =>
    apply OutcomeKeeps.always
    exact .after fun _ => .done rfl
  case swp =>
    apply OutcomeKeeps.ifPassed
    exact .after fun _ => .after fun _ => .after fun _ => .after fun _ =>
      .bind fun _ h => .stored (.writeWord h) (by simp)
  case swpb =>
    apply OutcomeKeeps.ifPassed
    exact .after fun _ => .after fun _ => .after fun _ => .bind fun _ h => .stored (.writeByte h) (by simp)
  -- ARM multiple transfers
  case ldm =>
    apply OutcomeKeeps.ifPassed
    exact .after fun _ => .after fun _ => .after fun _ =>
      .ite (fun _ => .loadPc (.of_core (by simp))) fun _ => .done (by simp)
  case stm =>
    apply OutcomeKeeps.ifPassed
    exact .after fun _ => .after fun _ => .bind fun _ h => .stored (.storeBlock h) (by simp)
  case ldmUser =>
    apply OutcomeKeeps.ifPassed
    exact .after fun _ => .after fun _ => .after fun _ => .done (by simp)
  case stmUser =>
    apply OutcomeKeeps.ifPassed
    exact .after fun _ => .after fun _ => .bind fun _ h => .advance (.storeBlock h)
  case ldmReturn =>
    apply OutcomeKeeps.ifPassed
    exact .after fun _ => .after fun _ => .after fun _ => .after fun _ => .exceptionReturn (.of_core (by simp))
  -- ARM branches, SWI, BKPT, the status registers
  case b =>
    apply OutcomeKeeps.ifPassed
    exact .ok (.setPc fun h => State.aligned_branchTarget h _)
  case bl =>
    apply OutcomeKeeps.ifPassed
    exact .ok (.link fun h => State.aligned_branchTarget h _)
  case bx =>
    apply OutcomeKeeps.ifPassed
    exact .branchExchange (.refl s)
  case blxReg =>
    apply OutcomeKeeps.ifPassed
    exact .after fun _ => .branchExchange (.of_core (by simp))
  case blxLabel =>
    rw [exec_blxLabel]
    exact .always (.ok (.linkJump (fun _ => henter rfl) fun h => State.aligned_blxTarget h _ _))
  case swi =>
    apply OutcomeKeeps.ifPassed
    exact .softwareInterrupt
  case bkpt =>
    apply OutcomeKeeps.ifPassed
    exact .after fun _ => .breakpoint
  case mrs =>
    apply OutcomeKeeps.ifPassed
    exact .after fun _ => .after fun _ => .done (by simp)
  case msrReg =>
    apply OutcomeKeeps.ifPassed
    exact .after fun _ => .writePsr
  case msrImm =>
    apply OutcomeKeeps.ifPassed
    exact .writePsr
  case unallocatedUncond =>
    rw [exec_unallocatedUncond]
    exact .always (.error _)
  -- Coprocessors
  case cdp =>
    apply OutcomeKeeps.ifPassed
    exact .coprocDataOp
  case cdp2 =>
    apply OutcomeKeeps.always
    exact .coprocDataOp
  case mcr =>
    apply OutcomeKeeps.ifPassed
    exact .coprocSend
  case mcr2 =>
    apply OutcomeKeeps.always
    exact .coprocSend
  case mrc =>
    apply OutcomeKeeps.ifPassed
    exact .coprocReceive
  case mrc2 =>
    apply OutcomeKeeps.always
    exact .coprocReceive
  case mcrr =>
    apply OutcomeKeeps.ifPassed
    exact .after fun _ => .after fun _ => .done rfl
  case mrrc =>
    apply OutcomeKeeps.ifPassed
    exact .after fun _ => .after fun _ => .after fun _ => .done (by simp)
  case ldcPre | ldcPost =>
    apply OutcomeKeeps.ifPassed
    exact .coprocLoad
  case ldc2Pre | ldc2Post =>
    apply OutcomeKeeps.always
    exact .coprocLoad
  case stcPre | stcPost =>
    apply OutcomeKeeps.ifPassed
    exact .coprocStore
  case stc2Pre | stc2Post =>
    apply OutcomeKeeps.always
    exact .coprocStore
  -- The VFP
  case fcpys | fcpyd | fabss | fabsd | fnegs | fnegd =>
    apply OutcomeKeeps.vfpRule
    exact .vfpMove
  case fadds | faddd | fsubs | fsubd | fmuls | fmuld | fnmuls | fnmuld | fdivs | fdivd | fsqrts | fsqrtd | fmacs
      | fmacd | fnmacs | fnmacd | fmscs | fmscd | fnmscs | fnmscd =>
    apply OutcomeKeeps.vfpRule
    exact .vfpArith
  case fcmps | fcmpd | fcmpes | fcmped | fcmpzs | fcmpzd | fcmpezs | fcmpezd =>
    apply OutcomeKeeps.vfpRule
    exact .vfpCompare
  case fcvtds | fsitos | fsitod | fuitos | fuitod | ftosis | ftosid | ftosizs | ftosizd | ftouis | ftouid |
      ftouizs | ftouizd =>
    apply OutcomeKeeps.vfpRule
    exact .vfpConvert (.refl s)
  case fcvtsd =>
    apply OutcomeKeeps.vfpRule
    exact .vfpConvert (.of_core (by simp))
  case flds | fldd =>
    apply OutcomeKeeps.vfpRule
    exact .after fun _ => .after fun _ => .done (by simp)
  case fsts =>
    apply OutcomeKeeps.vfpRule
    exact .after fun _ => .bind fun _ h => .advance (.writeWord h)
  case fstd =>
    apply OutcomeKeeps.vfpRule
    exact .after fun _ => .bind fun _ h => .bind fun _ h' =>
      .advance ((State.Keeps.writeWord h).trans (.writeWord h'))
  case fldmias | fldmdbs =>
    apply OutcomeKeeps.vfpRule
    exact .vfpLoadSingles
  case fldmiad | fldmdbd =>
    apply OutcomeKeeps.vfpRule
    exact .vfpLoadDoubles
  case fldmiax | fldmdbx =>
    apply OutcomeKeeps.vfpRule
    exact .vfpLoadUnknown
  case fstmias | fstmdbs =>
    apply OutcomeKeeps.vfpRule
    exact .vfpStoreSingles
  case fstmiad | fstmdbd =>
    apply OutcomeKeeps.vfpRule
    exact .vfpStoreDoubles
  case fstmiax | fstmdbx =>
    apply OutcomeKeeps.vfpRule
    exact .vfpStoreUnknown
  case fmsr | fmdlr | fmdhr =>
    apply OutcomeKeeps.vfpRule
    exact .vfpFromArm
  case fmrs | fmrdl | fmrdh =>
    apply OutcomeKeeps.vfpRule
    exact .vfpToArm
  case fmxr =>
    apply OutcomeKeeps.ifPassed
    exact .after fun _ => .after fun _ => .advance (s.keeps_setVfpSystem _ _)
  case fmrx =>
    apply OutcomeKeeps.ifPassed
    exact .after fun _ => .after fun _ => .done (by simp)
  case fmstat =>
    apply OutcomeKeeps.vfpRule
    exact .done rfl
  all_goals cases harm  -- a Thumb instruction

/-- In Thumb state a Thumb instruction keeps the invariant. -/
theorem exec_keeps_of_thumb {s : State} {i : Instr} (hthumb : i.inThumb = true) (ht : s.cpsr.t = true) :
    OutcomeKeeps s (exec i s) := by
  cases i
  -- Thumb data processing
  case tAddReg3 | tSubReg3 | tAddImm3 | tSubImm3 | tAddImm8 | tSubImm8 | tAdc | tSbc | tNeg =>
    apply OutcomeKeeps.always
    exact .writeLowSum
  case tAnd | tOrr | tEor | tBic | tMvn | tMovImm8 | tAsrReg | tLslReg | tLsrReg | tRor | tAsrImm | tLslImm |
      tLsrImm =>
    apply OutcomeKeeps.always
    exact .writeLowLogical
  case tAddSp | tSubSp | tAddPcImm | tAddSpImm =>
    apply OutcomeKeeps.always
    exact .writeLowPlain
  case tAddHigh | tMovHigh =>
    apply OutcomeKeeps.always
    exact .after fun _ => .writeHigh ht
  case tCmpHigh =>
    apply OutcomeKeeps.always
    exact .after fun _ => .compareSum
  case tCmpImm8 | tCmpLow | tCmn =>
    apply OutcomeKeeps.always
    exact .compareSum
  case tTst =>
    apply OutcomeKeeps.always
    exact .testLogical
  case tMul =>
    apply OutcomeKeeps.always
    exact .after fun _ => .done (by split <;> simp)
  -- Thumb branches
  case tB =>
    rw [exec_tB]
    exact .always (.ok (.setPc fun h => State.aligned_thumbTarget h ht _))
  case tBCond =>
    apply OutcomeKeeps.ifPassed
    exact .ok (.setPc fun h => State.aligned_thumbTarget h ht _)
  case tBlFirst =>
    apply OutcomeKeeps.always
    exact .done (by simp)
  case tBlSecond =>
    rw [exec_tBlSecond]
    exact .always (.ok (.link fun _ => by rw [ht]; exact aligned_and (by decide) _))
  case tBlxSecond =>
    rw [exec_tBlxSecond]
    exact .always (.ok (.linkJump (fun h => absurd h Bool.false_ne_true) fun _ => aligned_and (by decide) _))
  case tBx =>
    apply OutcomeKeeps.always
    exact .branchExchange (.refl s)
  case tBlxReg =>
    apply OutcomeKeeps.always
    exact .after fun _ => .branchExchange (.of_core (by simp))
  case tSwi =>
    apply OutcomeKeeps.always
    exact .softwareInterrupt
  case tBkpt =>
    apply OutcomeKeeps.always
    exact .breakpoint
  case tUnallocated =>
    rw [exec_tUnallocated]
    exact .always (.error _)
  -- Thumb transfers
  case tLdrImm | tLdrReg | tLdrPc | tLdrSpRel =>
    apply OutcomeKeeps.always
    exact .loadLowWord
  case tStrImm | tStrReg | tStrSpRel =>
    apply OutcomeKeeps.always
    exact .storeLowWord
  case tLdrhImm | tLdrhReg =>
    apply OutcomeKeeps.always
    exact .loadLowHalf
  case tLdrshReg =>
    apply OutcomeKeeps.always
    exact .loadLowSignedHalf
  case tStrhImm | tStrhReg =>
    apply OutcomeKeeps.always
    exact .storeLowHalf
  case tLdrbImm | tLdrbReg =>
    apply OutcomeKeeps.always
    exact .loadLowByte
  case tLdrsbReg =>
    apply OutcomeKeeps.always
    exact .loadLowSignedByte
  case tStrbImm | tStrbReg =>
    apply OutcomeKeeps.always
    exact .storeLowByte
  case tPush =>
    apply OutcomeKeeps.always
    exact .after fun _ => .bind fun _ h => .stored (.storeLowBlock h) (by simp)
  case tPop =>
    apply OutcomeKeeps.always
    exact .after fun _ => .after fun _ => .ite (fun _ => .popPc (.of_core (by simp)) (by simpa using ht))
      fun _ => .done (by simp)
  case tLdmia =>
    apply OutcomeKeeps.always
    exact .after fun _ => .after fun _ => .done (by simp)
  case tStmia =>
    apply OutcomeKeeps.always
    exact .after fun _ => .after fun _ => .bind fun _ h => .stored (.storeLowBlock h) (by simp)
  all_goals cases hthumb  -- an ARM instruction

/-! ### The step (R612, R620) -/

theorem Fetched.ofDecoded_eq_run {d : Decoded} {i : Instr} (h : Fetched.ofDecoded d = .run i) : d = .instr i := by
  cases d <;> cases h
  rfl

theorem State.fetchThumb_run {s : State} {i : Instr} (h : s.fetchThumb = .run i) :
    ∃ w, decodeThumb s.cfg.arch w = .instr i := by
  unfold State.fetchThumb at h
  split at h
  · cases h
  · exact ⟨_, Fetched.ofDecoded_eq_run h⟩

theorem State.fetchArm_run {s : State} {i : Instr} (h : s.fetchArm = .run i) :
    ∃ w, decodeArm s.cfg.arch s.vfpEnabled w = .instr i := by
  unfold State.fetchArm at h
  split at h
  · cases h
  · split at h
    · cases h
    · exact ⟨_, Fetched.ofDecoded_eq_run h⟩

/-- What is fetched belongs to the current state. -/
theorem exec_keeps_of_fetch {s : State} {i : Instr} (h : s.fetch = .run i) : OutcomeKeeps s (exec i s) := by
  unfold State.fetch at h
  split at h
  · cases h
  · split at h
    case isTrue ht =>
      obtain ⟨w, hw⟩ := State.fetchThumb_run h
      exact exec_keeps_of_thumb (decodeThumb_instr hw).1 ht
    case isFalse =>
      obtain ⟨w, hw⟩ := State.fetchArm_run h
      obtain ⟨harm, henter⟩ := decodeArm_instr hw
      exact exec_keeps_of_arm harm henter

theorem State.runNext_keeps (s : State) : OutcomeKeeps s s.runNext := by
  unfold State.runNext
  cases hfetch : s.fetch with
  | abort => exact .next (s.keeps_takeException .prefetchAbort)
  | unwritten => exact .fault s .unwritten
  | skip => exact .finish (.done rfl)
  | undefined => exact .next (s.keeps_takeException .undefined)
  | unpredictable => exact .fault s .shouldBeBits
  | run i => exact exec_keeps_of_fetch hfetch

/-- A step of any state: a run that has ended stays, an input line's exception is taken, or the instruction runs. -/
theorem step_keeps (s : State) : OutcomeKeeps s (step s) := by
  have hinputs : s.Keeps s.nextInputs := .of_core s.core_nextInputs
  unfold step
  split
  · exact .next (.refl s)
  · split
    · exact .next (hinputs.trans (State.keeps_takeException _ _))
    · exact ⟨fun t ht => hinputs.trans ((State.runNext_keeps _).keeps t ht)⟩

/-- Settles O8: the invariant, the parameters and FPSID are the three fields of `State.Keeps`. -/
theorem stepKeepsInvariant : Obligations.StepKeepsInvariant :=
  ⟨fun s t hi h => ((step_keeps s).keeps t h).inv hi,
    fun s t h => ⟨((step_keeps s).keeps t h).cfg, ((step_keeps s).keeps t h).fpsid⟩⟩

end Sys2Proof.Machine
end

section
/-! ## Memory reads back (20_memory.md R70, R72; 10_state.md R51; 32_directives.md R860) -/

namespace Sys2Proof.Machine

/-- A byte put below shifts the places of the bytes above it. -/
theorem extractByte_append_add {n : Nat} (x : BitVec n) (b : Byte) (l : Nat) :
    (x ++ b).extractLsb' (l + 8) 8 = x.extractLsb' l 8 :=
  BitVec.extractLsb'_append_eq_of_le (Nat.le_add_left 8 l)

/-- The two bytes of a halfword, each at its place. -/
theorem extractByte_append2 (b1 b0 : Byte) :
    (b1 ++ b0).extractLsb' 0 8 = b0 ∧ (b1 ++ b0).extractLsb' 8 8 = b1 :=
  ⟨BitVec.extractLsb'_append_eq_right, BitVec.extractLsb'_append_eq_left⟩

/-- The four bytes of a word, each at its place. -/
theorem extractByte_append4 (b3 b2 b1 b0 : Byte) :
    (b3 ++ b2 ++ b1 ++ b0).extractLsb' 0 8 = b0 ∧ (b3 ++ b2 ++ b1 ++ b0).extractLsb' 8 8 = b1 ∧
      (b3 ++ b2 ++ b1 ++ b0).extractLsb' 16 8 = b2 ∧ (b3 ++ b2 ++ b1 ++ b0).extractLsb' 24 8 = b3 := by
  obtain ⟨h2, h3⟩ := extractByte_append2 b3 b2
  exact ⟨BitVec.extractLsb'_append_eq_right,
    (extractByte_append_add _ _ 0).trans BitVec.extractLsb'_append_eq_right,
    (extractByte_append_add _ _ 8).trans ((extractByte_append_add _ _ 0).trans h2),
    (extractByte_append_add _ _ 16).trans ((extractByte_append_add _ _ 8).trans h3)⟩

/-- The bytes of a word lie at its address and the three after it, in the configured byte order (R72). -/
theorem State.byte_of_word {s : State} {a v : Word} (h : s.word a = some v) :
    ∀ j < 4, s.byte (a + BitVec.ofNat 32 j) =
      some (v.extractLsb' (if s.cfg.bigEndian then 24 - 8 * j else 8 * j) 8) := by
  obtain ⟨b0, b1, b2, b3, h0, h1, h2, h3, rfl⟩ := State.word_eq_some.mp h
  intro j hj
  interval_cases j <;> cases s.cfg.bigEndian <;> simp [h0, h1, h2, h3, extractByte_append4]

/-- The bytes of a halfword lie at its address and the one after it, in the configured byte order (R72). -/
theorem State.byte_of_half {s : State} {a : Word} {v : Half} (h : s.half a = some v) :
    ∀ j < 2, s.byte (a + BitVec.ofNat 32 j) =
      some (v.extractLsb' (if s.cfg.bigEndian then 8 - 8 * j else 8 * j) 8) := by
  obtain ⟨b0, b1, h0, h1, rfl⟩ := State.half_eq_some.mp h
  intro j hj
  interval_cases j <;> cases s.cfg.bigEndian <;> simp [h0, h1, extractByte_append2]

theorem State.word_eq_none_iff_exists {s : State} {a : Word} :
    s.word a = none ↔ ∃ j < 4, s.byte (a + BitVec.ofNat 32 j) = none := by
  simp only [State.word_eq_none, Nat.exists_lt_succ_left, Nat.not_lt_zero, false_and, exists_false, or_false]
  simp

theorem State.half_eq_none_iff_exists {s : State} {a : Word} :
    s.half a = none ↔ ∃ j < 2, s.byte (a + BitVec.ofNat 32 j) = none := by
  simp only [State.half_eq_none, Nat.exists_lt_succ_left, Nat.not_lt_zero, false_and, exists_false, or_false]
  simp

/-- Settles O25, for every address, 0xFFFFFFFF too: addresses are words, and the bytes after the last are the first. -/
theorem memoryReadsBack : Obligations.MemoryReadsBack := fun s a b h w =>
  ⟨s.byte_setByte_self a b, s.half_setHalf a h, s.word_setWord a w, s.memKept_setByte a b, s.memKept_setHalf a h,
    s.memKept_setWord a w, fun _ => State.byte_of_word, fun _ => State.byte_of_half, State.word_eq_none_iff_exists,
    State.half_eq_none_iff_exists, rfl⟩

end Sys2Proof.Machine
end

section
/-! ## The ARM single transfers as one rule each (40_arm_memory_access.md R230 to R248) -/

namespace Sys2Proof.Machine

/-- A rule under the register restrictions of the word transfers (R230, R238). -/
def WordForm.checked (f : WordForm) (rd : Reg) (rule : Except Trap State) : Except Trap State :=
  match f with
  | .imm p _ w rn _ => do
    checkBase (!p || w) rn rd
    rule
  | .reg p _ w rn _ _ rm => do
    forbid (isPc rm) .forbiddenPc
    checkBase (!p || w) rn rd
    rule
  | .immT _ rn _ => do
    checkT rn rd
    rule
  | .regT _ rn _ _ rm => do
    forbid (isPc rm) .forbiddenPc
    checkT rn rd
    rule

/-- A rule under the register restrictions of the byte transfers, which Rd = r15 breaks too (R236, R237). -/
def WordForm.checkedByte (f : WordForm) (rd : Reg) (rule : Except Trap State) : Except Trap State :=
  match f with
  | .imm p _ w rn _ => do
    forbid (isPc rd) .forbiddenPc
    checkBase (!p || w) rn rd
    rule
  | .reg p _ w rn _ _ rm => do
    forbid (isPc rd || isPc rm) .forbiddenPc
    checkBase (!p || w) rn rd
    rule
  | f => f.checked rd rule

/-- A rule under the register restrictions of the halfword and signed-byte transfers (R242). -/
def HalfForm.checked (f : HalfForm) (rd : Reg) (rule : Except Trap State) : Except Trap State :=
  match f with
  | .imm p _ w rn _ _ => do
    checkHalf p w rn rd
    rule
  | .reg p _ w rn rm => do
    forbid (isPc rm) .forbiddenPc
    checkHalf p w rn rd
    rule

/-- A rule under the register restrictions of STRD (R248). -/
def HalfForm.checkedPair (f : HalfForm) (rd : Reg) (rule : Except Trap State) : Except Trap State :=
  match f with
  | .imm p _ w rn _ _ => do
    checkDouble p w rn rd
    rule
  | .reg p _ w rn rm => do
    forbid (isPc rm) .forbiddenPc
    checkDouble p w rn rd
    rule

/-- A rule under the register restriction that LDRD has besides those of STRD (R247). -/
def HalfForm.checkedOffset (f : HalfForm) (rd : Reg) (rule : Except Trap State) : Except Trap State :=
  match f with
  | .imm _ _ _ _ _ _ => rule
  | .reg _ _ _ _ rm => do
    forbid (rm == rd || rm == rd + 1#4) .sameRegister
    rule

/-! ### Restrictions that hold -/

/-- A check that holds leaves what follows it. -/
theorem bind_of_ok {α : Type} {x : Except Trap Unit} (h : x = .ok ()) (rule : Except Trap α) :
    (x >>= fun _ => rule) = rule := by rw [h, bind_ok]

theorem checkBase_ok {b : Bool} {rn rd : Reg} (h : (b && (rn == 15#4 || rn == rd)) = false) :
    checkBase b rn rd = .ok () := by
  rw [Bool.and_or_distrib_left, Bool.or_eq_false_iff] at h
  obtain ⟨hpc, hsame⟩ := h
  exact (bind_of_ok (forbid_of_not hpc _) _).trans (forbid_of_not hsame _)

theorem checkT_ok {rn rd : Reg} (hd : rd ≠ 15#4) (h : (true && (rn == 15#4 || rn == rd)) = false) :
    checkT rn rd = .ok () :=
  (bind_of_ok (forbid_of_not (isPc_false hd) _) _).trans (checkBase_ok h)

/-- The one indexing that R109 forbids is P = 0 with W = 1. -/
theorem forbiddenIndexing_false {p w : Bool} (h : (p || !w) = true) : (!p && w) = false := by
  cases p <;> simp_all

theorem checkHalf_ok {p w : Bool} {rn rd : Reg} (hf : (p || !w) = true) (hd : rd ≠ 15#4)
    (h : ((!p || w) && (rn == 15#4 || rn == rd)) = false) : checkHalf p w rn rd = .ok () :=
  (bind_of_ok (forbid_of_not (forbiddenIndexing_false hf) _) _).trans
    ((bind_of_ok (forbid_of_not (isPc_false hd) _) _).trans (checkBase_ok h))

theorem checkDouble_ok {p w : Bool} {rn rd : Reg} (hf : (p || !w) = true) (he : rd.getLsbD 0 = false)
    (hd : rd ≠ 14#4) (h : ((!p || w) && (rn == 15#4 || rn == rd || rn == rd + 1#4)) = false) :
    checkDouble p w rn rd = .ok () := by
  rw [Bool.or_assoc, Bool.and_or_distrib_left, Bool.or_eq_false_iff] at h
  obtain ⟨hpc, hsame⟩ := h
  have hpair : (rd.getLsbD 0 || rd == 14#4) = false := Bool.or_eq_false_iff.mpr ⟨he, beq_false_of_ne hd⟩
  exact (bind_of_ok (forbid_of_not (forbiddenIndexing_false hf) _) _).trans
    ((bind_of_ok (forbid_of_not hpair _) _).trans
      ((bind_of_ok (forbid_of_not hpc _) _).trans (forbid_of_not hsame _)))

theorem WordForm.checked_of_regsOk {f : WordForm} {rd : Reg} (h : f.regsOk rd = true) (rule : Except Trap State) :
    f.checked rd rule = rule := by
  simp only [WordForm.regsOk, Bool.and_eq_true, Bool.not_eq_true'] at h
  obtain ⟨⟨hm, hb⟩, ht⟩ := h
  cases f with
  | imm => exact bind_of_ok (checkBase_ok hb) _
  | reg =>
    exact (bind_of_ok (forbid_of_not (isPc_false (bne_iff_ne.mp hm)) _) _).trans (bind_of_ok (checkBase_ok hb) _)
  | immT => exact bind_of_ok (checkT_ok (ne_of_beq_false ht) hb) _
  | regT =>
    exact (bind_of_ok (forbid_of_not (isPc_false (bne_iff_ne.mp hm)) _) _).trans
      (bind_of_ok (checkT_ok (ne_of_beq_false ht) hb) _)

theorem WordForm.checkedByte_of_regsOk {f : WordForm} {rd : Reg} (h : f.regsOk rd = true) (hd : rd ≠ 15#4)
    (rule : Except Trap State) : f.checkedByte rd rule = rule := by
  cases f with
  | imm => exact (bind_of_ok (forbid_of_not (isPc_false hd) _) _).trans (WordForm.checked_of_regsOk h rule)
  | reg =>
    rw [WordForm.checkedByte, isPc_false hd, Bool.false_or]
    exact WordForm.checked_of_regsOk h rule
  | immT | regT => exact WordForm.checked_of_regsOk h rule

theorem HalfForm.checked_of_regsOk {f : HalfForm} {rd : Reg} (h : f.regsOk rd = true) (rule : Except Trap State) :
    f.checked rd rule = rule := by
  simp only [HalfForm.regsOk, Bool.and_eq_true, Bool.not_eq_true', bne_iff_ne] at h
  obtain ⟨⟨hf, hd⟩, hb⟩ := h
  cases f with
  | imm => exact bind_of_ok (checkHalf_ok hf hd hb) _
  | reg =>
    obtain ⟨hi, hm⟩ := Bool.and_eq_true_iff.mp hf
    exact (bind_of_ok (forbid_of_not (isPc_false (bne_iff_ne.mp hm)) _) _).trans
      (bind_of_ok (checkHalf_ok hi hd hb) _)

theorem HalfForm.checkedPair_of_pairOk {f : HalfForm} {rd : Reg} (h : f.pairOk rd = true)
    (rule : Except Trap State) : f.checkedPair rd rule = rule := by
  simp only [HalfForm.pairOk, Bool.and_eq_true, Bool.not_eq_true', bne_iff_ne] at h
  obtain ⟨⟨⟨hf, he⟩, hd⟩, hb⟩ := h
  cases f with
  | imm => exact bind_of_ok (checkDouble_ok hf he hd hb) _
  | reg =>
    obtain ⟨hi, hm⟩ := Bool.and_eq_true_iff.mp hf
    exact (bind_of_ok (forbid_of_not (isPc_false (bne_iff_ne.mp hm)) _) _).trans
      (bind_of_ok (checkDouble_ok hi he hd hb) _)

theorem HalfForm.checkedOffset_of_offsetFree {f : HalfForm} {rd : Reg} (h : f.offsetFree rd = true)
    (rule : Except Trap State) : f.checkedOffset rd rule = rule := by
  cases f with
  | imm => rfl
  | reg _ _ _ _ rm =>
    have hfree : (rm == rd || rm == rd + 1#4) = false := by simpa [HalfForm.offsetFree] using h
    exact bind_of_ok (forbid_of_not hfree _) _

/-! ### The rule of each instruction where its registers are allowed -/

section
variable {cond : Cond} {rd : Reg} {s : State}

theorem WordForm.exec_ldr {f : WordForm} (hc : s.cpsr.passed cond = true) (hr : f.regsOk rd = true) :
    exec (f.ldr cond rd) s = s.finish (s.loadWordTo (f.address s) f.base rd (f.privileged s)) := by
  have hrule : exec (f.ldr cond rd) s = s.ifPassed cond fun s =>
      f.checked rd (s.loadWordTo (f.address s) f.base rd (f.privileged s)) := by cases f <;> rfl
  rw [hrule, State.ifPassed_true hc, WordForm.checked_of_regsOk hr]

theorem WordForm.exec_str {f : WordForm} (hc : s.cpsr.passed cond = true) (hr : f.regsOk rd = true) :
    exec (f.str cond rd) s = s.finish (s.storeWordFrom (f.address s) f.base rd (f.privileged s)) := by
  have hrule : exec (f.str cond rd) s = s.ifPassed cond fun s =>
      f.checked rd (s.storeWordFrom (f.address s) f.base rd (f.privileged s)) := by cases f <;> rfl
  rw [hrule, State.ifPassed_true hc, WordForm.checked_of_regsOk hr]

theorem WordForm.exec_ldrb {f : WordForm} (hc : s.cpsr.passed cond = true) (hr : f.regsOk rd = true)
    (hd : rd ≠ 15#4) :
    exec (f.ldrb cond rd) s = s.finish (s.loadByteTo (f.address s) f.base rd (f.privileged s)) := by
  have hrule : exec (f.ldrb cond rd) s = s.ifPassed cond fun s =>
      f.checkedByte rd (s.loadByteTo (f.address s) f.base rd (f.privileged s)) := by cases f <;> rfl
  rw [hrule, State.ifPassed_true hc, WordForm.checkedByte_of_regsOk hr hd]

theorem WordForm.exec_strb {f : WordForm} (hc : s.cpsr.passed cond = true) (hr : f.regsOk rd = true)
    (hd : rd ≠ 15#4) :
    exec (f.strb cond rd) s = s.finish (s.storeByteFrom (f.address s) f.base rd (f.privileged s)) := by
  have hrule : exec (f.strb cond rd) s = s.ifPassed cond fun s =>
      f.checkedByte rd (s.storeByteFrom (f.address s) f.base rd (f.privileged s)) := by cases f <;> rfl
  rw [hrule, State.ifPassed_true hc, WordForm.checkedByte_of_regsOk hr hd]

theorem HalfForm.exec_ldrh {f : HalfForm} (hc : s.cpsr.passed cond = true) (hr : f.regsOk rd = true) :
    exec (f.ldrh cond rd) s = s.finish (s.loadHalfTo (f.address s) f.base rd) := by
  have hrule : exec (f.ldrh cond rd) s = s.ifPassed cond fun s =>
      f.checked rd (s.loadHalfTo (f.address s) f.base rd) := by cases f <;> rfl
  rw [hrule, State.ifPassed_true hc, HalfForm.checked_of_regsOk hr]

theorem HalfForm.exec_ldrsh {f : HalfForm} (hc : s.cpsr.passed cond = true) (hr : f.regsOk rd = true) :
    exec (f.ldrsh cond rd) s = s.finish (s.loadSignedHalfTo (f.address s) f.base rd) := by
  have hrule : exec (f.ldrsh cond rd) s = s.ifPassed cond fun s =>
      f.checked rd (s.loadSignedHalfTo (f.address s) f.base rd) := by cases f <;> rfl
  rw [hrule, State.ifPassed_true hc, HalfForm.checked_of_regsOk hr]

theorem HalfForm.exec_ldrsb {f : HalfForm} (hc : s.cpsr.passed cond = true) (hr : f.regsOk rd = true) :
    exec (f.ldrsb cond rd) s = s.finish (s.loadSignedByteTo (f.address s) f.base rd) := by
  have hrule : exec (f.ldrsb cond rd) s = s.ifPassed cond fun s =>
      f.checked rd (s.loadSignedByteTo (f.address s) f.base rd) := by cases f <;> rfl
  rw [hrule, State.ifPassed_true hc, HalfForm.checked_of_regsOk hr]

theorem HalfForm.exec_strh {f : HalfForm} (hc : s.cpsr.passed cond = true) (hr : f.regsOk rd = true) :
    exec (f.strh cond rd) s = s.finish (s.storeHalfFrom (f.address s) f.base rd) := by
  have hrule : exec (f.strh cond rd) s = s.ifPassed cond fun s =>
      f.checked rd (s.storeHalfFrom (f.address s) f.base rd) := by cases f <;> rfl
  rw [hrule, State.ifPassed_true hc, HalfForm.checked_of_regsOk hr]

theorem HalfForm.exec_ldrd {f : HalfForm} (hc : s.cpsr.passed cond = true) (hr : f.pairOk rd = true)
    (ho : f.offsetFree rd = true) :
    exec (f.ldrd cond rd) s = s.finish (s.loadDoubleTo (f.address s) f.base rd) := by
  have hrule : exec (f.ldrd cond rd) s = s.ifPassed cond fun s =>
      f.checkedPair rd (f.checkedOffset rd (s.loadDoubleTo (f.address s) f.base rd)) := by cases f <;> rfl
  rw [hrule, State.ifPassed_true hc, HalfForm.checkedPair_of_pairOk hr, HalfForm.checkedOffset_of_offsetFree ho]

theorem HalfForm.exec_strd {f : HalfForm} (hc : s.cpsr.passed cond = true) (hr : f.pairOk rd = true) :
    exec (f.strd cond rd) s = s.finish (s.storeDoubleFrom (f.address s) f.base rd) := by
  have hrule : exec (f.strd cond rd) s = s.ifPassed cond fun s =>
      f.checkedPair rd (s.storeDoubleFrom (f.address s) f.base rd) := by cases f <;> rfl
  rw [hrule, State.ifPassed_true hc, HalfForm.checkedPair_of_pairOk hr]

end

end Sys2Proof.Machine
end

section
/-! ## Data Aborts of the ARM single transfers (20_memory.md R75, R80; 60_exceptions.md R607) -/

namespace Sys2Proof.Machine

/-! ### Rules that stop at the access -/

section
variable {s : State} {a : Address} {rn rd : Reg} {p : Bool}

theorem State.loadWordTo_abort
    (h : ¬s.WordAlignOk a.addr ∨ s.allowed (wordAddress a.addr) 4 .read p = false) :
    s.loadWordTo a rn rd p = .error (.exc .dataAbort) := by
  by_cases ha : s.WordAlignOk a.addr
  · simp [State.loadWordTo, State.checkWordAligned_ok ha, State.readWord_abort (h.resolve_left (not_not_intro ha))]
  · simp [State.loadWordTo, State.checkWordAligned_abort ha]

theorem State.storeWordFrom_abort
    (h : ¬s.WordAlignOk a.addr ∨ s.allowed (wordAddress a.addr) 4 .write p = false) :
    s.storeWordFrom a rn rd p = .error (.exc .dataAbort) := by
  by_cases ha : s.WordAlignOk a.addr
  · simp [State.storeWordFrom, State.checkWordAligned_ok ha,
      State.writeWord_abort (h.resolve_left (not_not_intro ha))]
  · simp [State.storeWordFrom, State.checkWordAligned_abort ha]

theorem State.loadByteTo_abort (h : s.allowed a.addr 1 .read p = false) :
    s.loadByteTo a rn rd p = .error (.exc .dataAbort) := by simp [State.loadByteTo, State.readByte_abort h]

theorem State.storeByteFrom_abort (h : s.allowed a.addr 1 .write p = false) :
    s.storeByteFrom a rn rd p = .error (.exc .dataAbort) := by simp [State.storeByteFrom, State.writeByte_abort h]

theorem State.loadSignedByteTo_abort (h : s.allowed a.addr 1 .read s.privileged = false) :
    s.loadSignedByteTo a rn rd = .error (.exc .dataAbort) := by simp [State.loadSignedByteTo, State.readByte_abort h]

theorem State.loadHalfTo_abort (ha : a.addr &&& 1#32 = 0#32) (h : s.allowed a.addr 2 .read s.privileged = false) :
    s.loadHalfTo a rn rd = .error (.exc .dataAbort) := by
  simp [State.loadHalfTo, State.checkAligned_ok ha, State.readHalf_abort h]

theorem State.loadSignedHalfTo_abort (ha : a.addr &&& 1#32 = 0#32)
    (h : s.allowed a.addr 2 .read s.privileged = false) :
    s.loadSignedHalfTo a rn rd = .error (.exc .dataAbort) := by
  simp [State.loadSignedHalfTo, State.checkAligned_ok ha, State.readHalf_abort h]

theorem State.storeHalfFrom_abort (ha : a.addr &&& 1#32 = 0#32)
    (h : s.allowed a.addr 2 .write s.privileged = false) : s.storeHalfFrom a rn rd = .error (.exc .dataAbort) := by
  simp [State.storeHalfFrom, State.checkAligned_ok ha, State.writeHalf_abort h]

theorem State.loadDoubleTo_abort (ha : a.addr &&& 7#32 = 0#32) (h : s.allowed a.addr 4 .read s.privileged = false ∨
    s.allowed (a.addr + 4#32) 4 .read s.privileged = false) : s.loadDoubleTo a rn rd = .error (.exc .dataAbort) := by
  simp [State.loadDoubleTo, State.checkAligned_ok ha, State.readPair_abort h]

/-- What memory holds does not say whether an access is allowed. -/
theorem State.allowed_setWord (s : State) (b v c : Word) (n : Nat) (k : Access) (p : Bool) :
    (s.setWord b v).allowed c n k p = s.allowed c n k p := by simp [State.allowed]

/-- The second word is tested after the first is written; what was written is discarded. -/
theorem State.storeDoubleFrom_abort (ha : a.addr &&& 7#32 = 0#32)
    (h : s.allowed a.addr 4 .write s.privileged = false ∨ s.allowed (a.addr + 4#32) 4 .write s.privileged = false) :
    s.storeDoubleFrom a rn rd = .error (.exc .dataAbort) := by
  cases hlo : s.allowed a.addr 4 .write s.privileged with
  | false => simp [State.storeDoubleFrom, State.checkAligned_ok ha, State.writeWord_abort hlo]
  | true =>
    have hhi : s.allowed (a.addr + 4#32) 4 .write s.privileged = false := by simpa [hlo] using h
    rw [← State.allowed_setWord s a.addr (s.reg rd)] at hhi
    simp [State.storeDoubleFrom, State.checkAligned_ok ha, State.writeWord_ok hlo, State.writeWord_abort hhi]

/-! ### Rules that stop at a misaligned address: a Data Abort or a fault, whichever the check answers (R75) -/

variable {e : Trap}

theorem State.loadHalfTo_misaligned (h : s.checkAligned a.addr 1#32 = .error e) :
    s.loadHalfTo a rn rd = .error e := by rw [State.loadHalfTo, h, bind_error]

theorem State.loadSignedHalfTo_misaligned (h : s.checkAligned a.addr 1#32 = .error e) :
    s.loadSignedHalfTo a rn rd = .error e := by rw [State.loadSignedHalfTo, h, bind_error]

theorem State.storeHalfFrom_misaligned (h : s.checkAligned a.addr 1#32 = .error e) :
    s.storeHalfFrom a rn rd = .error e := by rw [State.storeHalfFrom, h, bind_error]

theorem State.loadDoubleTo_misaligned (h : s.checkAligned a.addr 7#32 = .error e) :
    s.loadDoubleTo a rn rd = .error e := by rw [State.loadDoubleTo, h, bind_error]

theorem State.storeDoubleFrom_misaligned (h : s.checkAligned a.addr 7#32 = .error e) :
    s.storeDoubleFrom a rn rd = .error e := by rw [State.storeDoubleFrom, h, bind_error]

end

/-! ### From a rule's stop to the outcome of its instruction -/

theorem Takes.of_rule {i : Instr} {s : State} {r : Except Trap State} {e : Exc} (hi : exec i s = s.finish r)
    (hr : r = .error (.exc e)) : Takes i s e := by rw [Takes, hi, hr, State.finish_exc]

theorem exec_fault_of_rule {i : Instr} {s : State} {r : Except Trap State} {f : Fault} (hi : exec i s = s.finish r)
    (hr : r = .error (.fault f)) : exec i s = .fault f := by rw [hi, hr, State.finish_fault]

/-- Settles O31: each instruction is its rule, and the rule stops at the check of alignment or at the access. -/
theorem dataAbortsOfSingleTransfers : Obligations.DataAbortsOfSingleTransfers := by
  refine ⟨fun f cond rd s hc hr => ?word, fun f cond rd s hc hr => ?half, fun f cond rd s hc hr => ?double⟩
  case word =>
    have ldr := Takes.of_rule (f.exec_ldr hc hr) ∘ State.loadWordTo_abort
    have str := Takes.of_rule (f.exec_str hc hr) ∘ State.storeWordFrom_abort
    exact ⟨fun ha => ⟨ldr (.inl ha), str (.inl ha)⟩, fun h => ldr (.inr h), fun h => str (.inr h),
      fun hd h => .of_rule (f.exec_ldrb hc hr hd) (State.loadByteTo_abort h),
      fun hd h => .of_rule (f.exec_strb hc hr hd) (State.storeByteFrom_abort h)⟩
  case half =>
    have ldrh := f.exec_ldrh hc hr
    have ldrsh := f.exec_ldrsh hc hr
    have strh := f.exec_strh hc hr
    refine ⟨fun h => .of_rule (f.exec_ldrsb hc hr) (State.loadSignedByteTo_abort h),
      fun ha h => ⟨.of_rule ldrh (State.loadHalfTo_abort ha h), .of_rule ldrsh (State.loadSignedHalfTo_abort ha h)⟩,
      fun ha h => .of_rule strh (State.storeHalfFrom_abort ha h), fun ha hchk => ?_, fun ha hchk => ?_⟩
    · have hstop := State.checkAligned_abort ha hchk
      exact ⟨.of_rule ldrh (State.loadHalfTo_misaligned hstop),
        .of_rule ldrsh (State.loadSignedHalfTo_misaligned hstop), .of_rule strh (State.storeHalfFrom_misaligned hstop)⟩
    · have hstop := State.checkAligned_fault ha hchk
      exact ⟨exec_fault_of_rule ldrh (State.loadHalfTo_misaligned hstop),
        exec_fault_of_rule ldrsh (State.loadSignedHalfTo_misaligned hstop),
        exec_fault_of_rule strh (State.storeHalfFrom_misaligned hstop)⟩
  case double =>
    have ldrd (ho) := f.exec_ldrd hc hr ho
    have strd := f.exec_strd hc hr
    refine ⟨fun ha h ho => .of_rule (ldrd ho) (State.loadDoubleTo_abort ha h),
      fun ha h => .of_rule strd (State.storeDoubleFrom_abort ha h), fun ha hchk => ?_, fun ha hchk => ?_⟩
    · have hstop := State.checkAligned_abort ha hchk
      exact ⟨.of_rule strd (State.storeDoubleFrom_misaligned hstop),
        fun ho => .of_rule (ldrd ho) (State.loadDoubleTo_misaligned hstop)⟩
    · have hstop := State.checkAligned_fault ha hchk
      exact ⟨exec_fault_of_rule strd (State.storeDoubleFrom_misaligned hstop),
        fun ho => exec_fault_of_rule (ldrd ho) (State.loadDoubleTo_misaligned hstop)⟩

end Sys2Proof.Machine
end

section
/-! ## The pieces of an encoded field (30_encoding.md R102) -/

namespace Sys2Proof

/-! A field that stands apart in a word is cut into pieces by `encode` and joined again by `decode`. Here and below the
library's lemmas on `++` and `extractLsb'` are stated so that `simp` also applies them where the width of the joined
field is a numeral (`no_index`). -/

section
variable {m n w start len i : Nat}

theorem extractLsb'_append_high (x : BitVec m) (y : BitVec n) (h : n ≤ start) :
    BitVec.extractLsb' start len (no_index (x ++ y)) = x.extractLsb' (start - n) len :=
  BitVec.extractLsb'_append_eq_of_le h

theorem extractLsb'_append_low (x : BitVec m) (y : BitVec n) (h : start + len ≤ n) :
    BitVec.extractLsb' start len (no_index (x ++ y)) = y.extractLsb' start len :=
  BitVec.extractLsb'_append_eq_of_add_le h

theorem getLsbD_append_high (x : BitVec m) (y : BitVec n) (h : n ≤ i) :
    BitVec.getLsbD (no_index (x ++ y)) i = x.getLsbD (i - n) := by
  rw [BitVec.getLsbD_append, if_neg (Nat.not_lt.mpr h)]

theorem getLsbD_append_low (x : BitVec m) (y : BitVec n) (h : i < n) :
    BitVec.getLsbD (no_index (x ++ y)) i = y.getLsbD i := by
  rw [BitVec.getLsbD_append, if_pos h]

theorem join_adjacent {start' len' : Nat} (v : BitVec w) (h : start' = start + len) :
    @HAppend.hAppend _ _ (no_index (BitVec (len' + len))) _ (v.extractLsb' start' len') (v.extractLsb' start len) =
      v.extractLsb' start (len' + len) :=
  BitVec.extractLsb'_append_extractLsb'_eq_extractLsb' h

theorem bit1_getLsbD (v : BitVec w) : bit1 (v.getLsbD i) = v.extractLsb' i 1 := by
  ext j hj
  obtain rfl : j = 0 := Nat.lt_one_iff.mp hj
  simp [bit1]

theorem bit2_getLsbD (v : BitVec w) : bit2 (v.getLsbD (i + 1)) (v.getLsbD i) = v.extractLsb' i 2 :=
  (congrArg₂ (· ++ ·) (bit1_getLsbD v) (bit1_getLsbD v)).trans (join_adjacent v rfl)

theorem bit3_getLsbD (v : BitVec w) :
    bit3 (v.getLsbD (i + 2)) (v.getLsbD (i + 1)) (v.getLsbD i) = v.extractLsb' i 3 :=
  (congrArg₂ (· ++ ·) (bit2_getLsbD v) (bit1_getLsbD v)).trans (join_adjacent v rfl)

theorem bit4_getLsbD (v : BitVec w) :
    bit4 (v.getLsbD (i + 3)) (v.getLsbD (i + 2)) (v.getLsbD (i + 1)) (v.getLsbD i) = v.extractLsb' i 4 :=
  (congrArg₂ (· ++ ·) (bit3_getLsbD v) (bit1_getLsbD v)).trans (join_adjacent v rfl)

end

theorem bit3_eq_iff {a b c : Bool} {v : BitVec 3} :
    bit3 a b c = v ↔ v.getLsbD 2 = a ∧ v.getLsbD 1 = b ∧ v.getLsbD 0 = c := by
  revert a b c v; decide

theorem zero_eq_iff {v : BitVec 3} : 0#3 = v ↔ v.getLsbD 2 = false ∧ v.getLsbD 1 = false ∧ v.getLsbD 0 = false :=
  bit3_eq_iff (a := false) (b := false) (c := false)

theorem bit4_eq_iff {a b c d : Bool} {v : BitVec 4} :
    bit4 a b c d = v ↔ v.getLsbD 3 = a ∧ v.getLsbD 2 = b ∧ v.getLsbD 1 = c ∧ v.getLsbD 0 = d := by
  revert a b c d v; decide

/-! ### A bit and its place in a row's pattern (R100) -/

@[simp] theorem Pat.ok_o (b : Bool) : Pat.o.ok b = !b := rfl
@[simp] theorem Pat.ok_i (b : Bool) : Pat.i.ok b = b := rfl
@[simp] theorem Pat.ok_x (b : Bool) : Pat.x.ok b = true := rfl

end Sys2Proof
end

section
/-! ## A decoded instruction is encoded by the bits it came from (30_encoding.md R100, R102, R152) -/

namespace Sys2Proof

/-- The code of an instruction is `code`. -/
def Instr.encodesAs (code : Code) (i : Instr) : Bool := encode i == code

theorem Instr.encodesAs_iff {code : Code} {i : Instr} : i.encodesAs code = true ↔ encode i = code := beq_iff_eq

theorem Cond.ofBits_eq_some_iff {n : BitVec 4} {c : Cond} : Cond.ofBits n = some c ↔ n = c.bits :=
  ⟨fun h => (Cond.bits_ofBits h).symm, fun h => h ▸ Cond.ofBits_bits c⟩

theorem Decoded.every_undefined (p : Instr → Bool) : Decoded.undefined.every p = true := rfl

/-- An allocated pattern answers its instruction only where its should-be bits are right (R102). -/
theorem Decoded.every_shouldBe_of_ok {p : Instr → Bool} {ok : Bool} {i : Instr} (h : ok = true → p i = true) :
    (shouldBe ok i).every p = true := Decoded.every_row h rfl

section
variable {i : Instr} {f : ArmWord} {cond : BitVec 4} {b27 b26 b25 b24 b23 b22 b21 b20 : Bool}
  {n16 n12 n8 : BitVec 4} {b7 b6 b5 b4 : Bool} {n0 : BitVec 4}

/-- To encode an instruction to the ARM word it was read from is to give every field of the word its value. -/
theorem Decoded.encodes_arm (hi : encode i = armCode cond b27 b26 b25 b24 b23 b22 b21 b20 n16 n12 n8 b7 b6 b5 b4 n0)
    (hf : cond = f.cond ∧
      (b27 = f.b27 ∧ b26 = f.b26 ∧ b25 = f.b25 ∧ b24 = f.b24 ∧ b23 = f.b23 ∧ b22 = f.b22 ∧ b21 = f.b21 ∧ b20 = f.b20) ∧
      n16 = f.n16 ∧ n12 = f.n12 ∧ n8 = f.n8 ∧ (b7 = f.b7 ∧ b6 = f.b6 ∧ b5 = f.b5 ∧ b4 = f.b4) ∧ n0 = f.n0) :
    (Decoded.instr i).every (Instr.encodesAs (.arm f.toWord)) = true := by
  obtain ⟨rfl, ⟨rfl, rfl, rfl, rfl, rfl, rfl, rfl, rfl⟩, rfl, rfl, rfl, ⟨rfl, rfl, rfl, rfl⟩, rfl⟩ := hf
  exact Instr.encodesAs_iff.mpr hi

end

section
variable {i : Instr} {f : ThumbWord} {b15 b14 b13 b12 b11 b10 b9 b8 b7 b6 : Bool} {m3 l3 : BitVec 3}

theorem Decoded.encodes_thumb (hi : encode i = thumbCode b15 b14 b13 b12 b11 b10 b9 b8 b7 b6 m3 l3)
    (hf : (b15 = f.b15 ∧ b14 = f.b14 ∧ b13 = f.b13 ∧ b12 = f.b12 ∧ b11 = f.b11 ∧ b10 = f.b10 ∧ b9 = f.b9 ∧ b8 = f.b8 ∧
        b7 = f.b7 ∧ b6 = f.b6) ∧ m3 = f.m3 ∧ l3 = f.l3) :
    (Decoded.instr i).every (Instr.encodesAs (.thumb f.toHalf)) = true := by
  obtain ⟨⟨rfl, rfl, rfl, rfl, rfl, rfl, rfl, rfl, rfl, rfl⟩, rfl, rfl⟩ := hf
  exact Instr.encodesAs_iff.mpr hi

end

/-- Each row of the ARM table, group by group: its fixed bits are those that `encode` writes, and the pieces of its
fields are those that the instruction was made of. (`with_reducible`: a row's test is not evaluated.) -/
theorem decodeArmWord_encodes (a : Arch) (en : Bool) (f : ArmWord) :
    (decodeArmWord a en f).every (Instr.encodesAs (.arm f.toWord)) = true := by
  unfold decodeArmWord
  split
  case' h_1 hcond =>
    have hc : f.cond = 15#4 := Cond.ofBits_eq_none hcond
    unfold decodeUncond
  case' h_2 c hcond =>
    have hc : c.bits = f.cond := Cond.bits_ofBits hcond
    unfold decodeDpImmShift decodeDpRegShift decodeMisc decodeMulSwap decodeExtra decodeDpImm decodeLsImm decodeLsReg
      decodeMultiple decodeBranch decodeCoprocTransfer decodeCoprocOp
    split
  all_goals
    clear hcond
    repeat' with_reducible first
      | exact Decoded.every_undefined _
      | refine Decoded.every_row (fun hrow => ?_) ?_
      | refine Decoded.every_shouldBe_of_ok (fun hok => ?_)
    all_goals
      refine Decoded.encodes_arm rfl ?_
      simp_all only [ArmWord.op, ArmWord.mid, Pat.ok_o, Pat.ok_i, Pat.ok_x, Bool.and_eq_true, Bool.not_eq_true',
        beq_iff_eq, and_self, ShiftType.bit1_ofBits, ShiftType.bit0_ofBits, extractLsb'_append_high,
        extractLsb'_append_low, getLsbD_append_high, getLsbD_append_low, BitVec.extractLsb'_eq_self, bit4_eq_iff,
        bit1_getLsbD_0, bit3_getLsbD_0, bit3_getLsbD_1, bit3_getLsbD_2, bit4_getLsbD_0, bit4_getLsbD_1,
        bit4_getLsbD_2, bit4_getLsbD_3, le_refl, Nat.reduceLeDiff, Nat.reduceLT, Nat.reduceSub, Nat.reduceAdd]

/-- Each row of the Thumb table, as for ARM; the row of B<cond> has the condition among its fields (R134). -/
theorem decodeThumbWord_encodes (a : Arch) (f : ThumbWord) :
    (decodeThumbWord a f).every (Instr.encodesAs (.thumb f.toHalf)) = true := by
  unfold decodeThumbWord decodeThumb000 decodeThumb001 decodeThumb010 decodeThumb011 decodeThumb100 decodeThumb101
    decodeThumb110 decodeThumb111
  split
  all_goals
    repeat' with_reducible first
      | exact Decoded.every_undefined _
      | refine Decoded.every_row (fun hrow => ?_) ?_
      | refine Decoded.every_shouldBe_of_ok (fun hok => ?_)
      | split  -- on the condition field of B<cond>
    all_goals
      refine Decoded.encodes_thumb rfl ?_
      simp_all only [ThumbWord.top, Pat.ok_o, Pat.ok_i, Pat.ok_x, Bool.and_eq_true, Bool.not_eq_true', and_self,
        extractLsb'_append_high, extractLsb'_append_low, getLsbD_append_high, getLsbD_append_low,
        BitVec.extractLsb'_eq_self, Cond.ofBits_eq_some_iff, bit3_eq_iff, bit4_eq_iff, zero_eq_iff, bit1_getLsbD_0,
        bit2_getLsbD_0, bit2_getLsbD_1, bit3_getLsbD_0, bit3_getLsbD_1, bit3_getLsbD_2, bit4_getLsbD_0,
        bit4_getLsbD_1, bit4_getLsbD_2, bit4_getLsbD_3, le_refl, Nat.reduceLeDiff, Nat.reduceLT, Nat.reduceSub,
        Nat.reduceAdd]

/-- Settles O11: each row of the tables gives its instruction's fields back to the bits they were read from. -/
theorem encodeOfDecode : Obligations.EncodeOfDecode := by
  intro a en code i h
  cases code with
  | arm w =>
    have henc := Decoded.every_instr (decodeArmWord_encodes a en (ArmWord.ofWord w)) h
    rwa [Instr.encodesAs_iff, ArmWord.toWord_ofWord] at henc
  | thumb half =>
    have henc := Decoded.every_instr (decodeThumbWord_encodes a (ThumbWord.ofHalf half)) h
    rwa [Instr.encodesAs_iff, ThumbWord.toHalf_ofHalf] at henc

end Sys2Proof
end

section
/-! ## A well-formed instruction is read back from its code (30_encoding.md R100, R152) -/

namespace Sys2Proof

section
variable {i : Instr} {cond : BitVec 4} {b27 b26 b25 b24 b23 b22 b21 b20 : Bool} {n16 n12 n8 : BitVec 4}
  {b7 b6 b5 b4 : Bool} {n0 : BitVec 4}

theorem decode_encode_arm (a : Arch) (en : Bool)
    (hi : encode i = armCode cond b27 b26 b25 b24 b23 b22 b21 b20 n16 n12 n8 b7 b6 b5 b4 n0) :
    decode a en (encode i) =
      decodeArmWord a en { cond, b27, b26, b25, b24, b23, b22, b21, b20, n16, n12, n8, b7, b6, b5, b4, n0 } := by
  rw [hi, armCode, decode, decodeArm, ArmWord.ofWord_toWord]

end

section
variable {i : Instr} {b15 b14 b13 b12 b11 b10 b9 b8 b7 b6 : Bool} {m3 l3 : BitVec 3}

theorem decode_encode_thumb (a : Arch) (en : Bool)
    (hi : encode i = thumbCode b15 b14 b13 b12 b11 b10 b9 b8 b7 b6 m3 l3) :
    decode a en (encode i) = decodeThumbWord a { b15, b14, b13, b12, b11, b10, b9, b8, b7, b6, m3, l3 } := by
  rw [hi, thumbCode, decode, decodeThumb, ThumbWord.ofHalf_toHalf]

end

theorem Cond.ofBits_15 : Cond.ofBits 15#4 = none := rfl

theorem shouldBe_true (i : Instr) : shouldBe true i = .instr i := rfl

/-- Every instruction exists on `Arch.full` (R9). -/
theorem Arch.full_has :
    Arch.full.thumb = true ∧ Arch.full.longMultiply = true ∧ Arch.full.xscale = true ∧ Arch.full.hasE = true ∧
      Arch.full.hasFullE = true ∧ Arch.full.hasT5 = true ∧ Arch.full.hasBx = true ∧ Arch.full.hasFpu = true ∧
      Arch.full.atLeast4 = true ∧ Arch.full.atLeast5 = true :=
  ⟨rfl, rfl, rfl, rfl, rfl, rfl, rfl, rfl, rfl, rfl⟩

/-- A row that does not take the word leaves it to the rows after it (R100). -/
theorem Decoded.eq_of_not_row {b : Bool} {d e r : Decoded} (hb : b = true → False) (he : e = r) :
    (if b then d else e) = r := by rw [if_neg hb, he]

/-! ### What well-formedness says of the bits of a word -/

/-- A test under a mask is a test of each bit. -/
theorem masked_beq_iff {w : Nat} {v mask t : BitVec w} :
    (v &&& mask == t) = true ↔ ∀ i < w, (v.getLsbD i && mask.getLsbD i) = t.getLsbD i := by
  rw [beq_iff_eq]
  refine ⟨?_, fun h => BitVec.eq_of_getLsbD_eq fun i hi => BitVec.getLsbD_and.trans (h i hi)⟩
  rintro rfl i -
  exact BitVec.getLsbD_and.symm

/-- The bits that the rows of the unconditional space fix (R112, R114, R115, R117). -/
theorem allocatedUncond_eq (v : BitVec 28) :
    allocatedUncond v =
      (!v.getLsbD 27 && v.getLsbD 26 && v.getLsbD 25 && v.getLsbD 24 && v.getLsbD 22 && !v.getLsbD 21 && v.getLsbD 20 &&
          !v.getLsbD 4 ||
        !v.getLsbD 27 && v.getLsbD 26 && !v.getLsbD 25 && v.getLsbD 24 && v.getLsbD 22 && !v.getLsbD 21 &&
          v.getLsbD 20 ||
        v.getLsbD 27 && v.getLsbD 26 && v.getLsbD 25 && !v.getLsbD 24 && v.getLsbD 4 ||
        v.getLsbD 27 && v.getLsbD 26 && !v.getLsbD 25 && !v.getLsbD 24 && v.getLsbD 21 && v.getLsbD 20 ||
        v.getLsbD 27 && v.getLsbD 26 && !v.getLsbD 25 && !v.getLsbD 24 && v.getLsbD 21 && !v.getLsbD 20 ||
        v.getLsbD 27 && v.getLsbD 26 && v.getLsbD 25 && !v.getLsbD 24 && !v.getLsbD 4 ||
        v.getLsbD 27 && v.getLsbD 26 && !v.getLsbD 25 && v.getLsbD 24 ||
        v.getLsbD 27 && !v.getLsbD 26 && v.getLsbD 25) := by
  rw [Bool.eq_iff_iff]
  simp only [allocatedUncond, Bool.or_eq_true, masked_beq_iff, Nat.forall_lt_succ_right]
  simp [-BitVec.getLsbD_eq_getElem, and_comm, and_assoc]

theorem vfpTransfer_eq (cp : BitVec 4) (opc1 : BitVec 3) :
    vfpTransfer cp opc1 =
      (cp == 10#4 && (!opc1.getLsbD 2 && !opc1.getLsbD 1 && !opc1.getLsbD 0 ||
          opc1.getLsbD 2 && opc1.getLsbD 1 && opc1.getLsbD 0) ||
        cp == 11#4 && !opc1.getLsbD 2 && !opc1.getLsbD 1) := by
  revert cp opc1; decide

theorem accumulatorOp_eq (opc1 : BitVec 3) (crn : BitVec 4) :
    accumulatorOp opc1 crn =
      (!opc1.getLsbD 2 && !opc1.getLsbD 1 && opc1.getLsbD 0 &&
        (crn == 0#4 || crn == 8#4 || crn.getLsbD 3 && crn.getLsbD 2)) := by
  revert opc1 crn; decide

/-! ### The first row that takes the word -/

/-- Settles O10. The code of an instruction fixes the bits of its own row, and its fields are joined again. Where an
earlier row's fixed bits could agree with the fields too, the instruction would not be well formed. -/
theorem decodeOfEncode : Obligations.DecodeOfEncode := by
  intro i hwf
  cases i
  all_goals first
    | refine (decode_encode_arm _ _ rfl).trans ?_
    | refine (decode_encode_thumb _ _ rfl).trans ?_
  all_goals
    simp only [decodeArmWord, Cond.ofBits_bits, Cond.ofBits_15, decodeUncond, decodeDpImm, decodeDpImmShift,
      decodeDpRegShift, decodeExtra, decodeMulSwap, decodeMisc, decodeLsImm, decodeLsReg, decodeMultiple,
      decodeBranch, decodeCoprocTransfer, decodeCoprocOp, ArmWord.op, ArmWord.mid, decodeThumbWord, decodeThumb000,
      decodeThumb001, decodeThumb010, decodeThumb011, decodeThumb100, decodeThumb101, decodeThumb110,
      decodeThumb111, ThumbWord.top, Pat.ok_o, Pat.ok_i, Pat.ok_x, Arch.full_has, shouldBe_true, ↓reduceIte,
      Bool.not_true, Bool.not_false, Bool.and_true, Bool.and_false, Bool.true_and, Bool.false_and, Bool.or_true,
      Bool.or_false, Bool.true_or, Bool.false_eq_true, beq_self_eq_true, BitVec.reduceBEq,
      BitVec.reduceGetLsb, bit3_getLsbD_0, bit3_getLsbD_1, bit3_getLsbD_2, bit4_getLsbD_0, bit4_getLsbD_1,
      bit4_getLsbD_2, bit4_getLsbD_3, ShiftType.ofBits_bits, bit1_getLsbD, bit2_getLsbD, bit3_getLsbD, bit4_getLsbD,
      join_adjacent, BitVec.extractLsb'_eq_self, Nat.reduceAdd]
  -- What is left are the rows before, where their fixed bits meet a field of the instruction.
  case miaXY x y _ _ => cases x <;> cases y <;> rfl
  case tBCond cond _ =>
    cases cond
    case al => cases hwf
    all_goals rfl
  all_goals
    dsimp only [Instr.wf] at hwf
    repeat' with_reducible first
      | rfl
      | refine Decoded.eq_of_not_row (fun hrow => ?_) ?_
    all_goals
      simp only [Bool.and_eq_true, Bool.not_eq_true', beq_iff_eq] at hrow
      simp [-BitVec.getLsbD_eq_getElem, hrow, vfpNumber, vfpTransfer_eq, vfpDataOp, vfpExtension, accumulatorOp_eq,
        allocatedUncond_eq] at hwf

end Sys2Proof
end

section
/-! ## Forbidden registers of the single transfers (40_arm_memory_access.md R230, R238, R242, R247) -/

namespace Sys2Proof.Machine

/-- The rule stops with a fault, whichever it is. -/
def RuleFaults {α : Type} (r : Except Trap α) : Prop := ∃ f, r = .error (.fault f)

theorem Faults.of_finish {i : Instr} {s : State} {r : Except Trap State} (hi : exec i s = s.finish r)
    (hr : RuleFaults r) : Faults i s := hr.imp fun _ hf => exec_fault_of_rule hi hf

theorem Faults.of_rule {i : Instr} {s : State} {c : Cond} {rule : State → Except Trap State}
    (hi : exec i s = s.ifPassed c rule) (hc : s.cpsr.passed c = true) (hr : RuleFaults (rule s)) : Faults i s :=
  .of_finish (hi.trans (State.ifPassed_true hc rule)) hr

/-! ### Checks, and what follows them -/

section
variable {α : Type} {r : Except Trap α} {p w : Bool} {rn rd : Reg}

theorem ruleFaults_forbid_bind {b : Bool} {f : Fault} :
    RuleFaults (forbid b f >>= fun _ => r) ↔ b = true ∨ RuleFaults r := by
  cases b <;> simp [RuleFaults]

theorem ruleFaults_checkBase_bind :
    RuleFaults (checkBase w rn rd >>= fun _ => r) ↔ (w = true ∧ (rn = 15#4 ∨ rn = rd)) ∨ RuleFaults r := by
  simp only [checkBase, bind_assoc, ruleFaults_forbid_bind, isPc, Bool.and_eq_true, beq_iff_eq, and_or_left, or_assoc]

theorem ruleFaults_checkT_bind :
    RuleFaults (checkT rn rd >>= fun _ => r) ↔ rd = 15#4 ∨ rn = 15#4 ∨ rn = rd ∨ RuleFaults r := by
  simp only [checkT, bind_assoc, ruleFaults_forbid_bind, ruleFaults_checkBase_bind, isPc, beq_iff_eq, true_and,
    or_assoc]

theorem forbiddenIndexing_iff : (!p && w) = true ↔ (p || !w) = false := by
  cases p <;> cases w <;> simp

theorem ruleFaults_checkHalf_bind :
    RuleFaults (checkHalf p w rn rd >>= fun _ => r) ↔ (p || !w) = false ∨ rd = 15#4 ∨
      ((!p || w) = true ∧ (rn = 15#4 ∨ rn = rd)) ∨ RuleFaults r := by
  simp only [checkHalf, bind_assoc, ruleFaults_forbid_bind, ruleFaults_checkBase_bind, forbiddenIndexing_iff, isPc,
    beq_iff_eq]

theorem ruleFaults_checkDouble_bind :
    RuleFaults (checkDouble p w rn rd >>= fun _ => r) ↔ (p || !w) = false ∨ (rd.getLsbD 0 = true ∨ rd = 14#4) ∨
      ((!p || w) = true ∧ (rn = 15#4 ∨ rn = rd ∨ rn = rd + 1#4)) ∨ RuleFaults r := by
  simp only [checkDouble, bind_assoc, ruleFaults_forbid_bind, forbiddenIndexing_iff]
  simp only [isPc, Bool.or_eq_true, Bool.and_eq_true, beq_iff_eq, and_or_left, or_assoc]

end

/-! ### The restrictions of each family -/

theorem WordForm.ruleFaults_checked {f : WordForm} {rd : Reg} (h : f.regsOk rd = false) (rule : Except Trap State) :
    RuleFaults (f.checked rd rule) := by
  cases f
  all_goals
    simp only [WordForm.regsOk, WordForm.base, WordForm.writeback, WordForm.user] at h
    simp only [WordForm.checked, ruleFaults_forbid_bind, ruleFaults_checkBase_bind, ruleFaults_checkT_bind, isPc]
    grind

/-- The T forms allow no transfer of r15 (R238). -/
theorem WordForm.regsOk_pc_of_user {f : WordForm} (h : f.user = true) : f.regsOk 15#4 = false := by
  simp [WordForm.regsOk, h]

theorem WordForm.ruleFaults_checkedByte {f : WordForm} {rd : Reg} (h : f.regsOk rd = false ∨ rd = 15#4)
    (rule : Except Trap State) : RuleFaults (f.checkedByte rd rule) := by
  by_cases hd : rd = 15#4
  · subst hd
    have huser (hu : f.user = true) := WordForm.ruleFaults_checked (WordForm.regsOk_pc_of_user hu) rule
    cases f with
    | imm | reg => exact ruleFaults_forbid_bind.mpr (.inl rfl)
    | immT | regT => exact huser rfl
  · have hf := WordForm.ruleFaults_checked (h.resolve_right hd) rule
    cases f with
    | imm => exact ruleFaults_forbid_bind.mpr (.inr hf)
    | reg =>
      rw [WordForm.checkedByte, isPc_false hd, Bool.false_or]
      exact hf
    | immT | regT => exact hf

theorem HalfForm.ruleFaults_checked {f : HalfForm} {rd : Reg} (h : f.regsOk rd = false) (rule : Except Trap State) :
    RuleFaults (f.checked rd rule) := by
  cases f
  all_goals
    simp only [HalfForm.regsOk, HalfForm.formOk, HalfForm.base, HalfForm.writeback] at h
    simp only [HalfForm.checked, ruleFaults_forbid_bind, ruleFaults_checkHalf_bind, isPc]
    grind

theorem HalfForm.ruleFaults_checkedPair {f : HalfForm} {rd : Reg} {rule : Except Trap State}
    (h : f.pairOk rd = false ∨ RuleFaults rule) : RuleFaults (f.checkedPair rd rule) := by
  cases f
  all_goals
    simp only [HalfForm.pairOk, HalfForm.formOk, HalfForm.base, HalfForm.writeback] at h
    simp only [HalfForm.checkedPair, ruleFaults_forbid_bind, ruleFaults_checkDouble_bind, isPc]
    grind

theorem HalfForm.ruleFaults_checkedOffset {f : HalfForm} {rd : Reg} (h : f.offsetFree rd = false)
    (rule : Except Trap State) : RuleFaults (f.checkedOffset rd rule) := by
  cases f with
  | imm => cases h
  | reg => exact ruleFaults_forbid_bind.mpr (.inl (by simpa [HalfForm.offsetFree, imp_iff_not_or] using h))

/-! ### The instructions that break them fault -/

section
variable {cond : Cond} {rd : Reg} {s : State} (hc : s.cpsr.passed cond = true)
include hc

theorem WordForm.faults_word {f : WordForm} (h : f.regsOk rd = false) :
    Faults (f.ldr cond rd) s ∧ Faults (f.str cond rd) s :=
  ⟨.of_rule (rule := fun s => f.checked rd (s.loadWordTo (f.address s) f.base rd (f.privileged s)))
      (by cases f <;> rfl) hc (f.ruleFaults_checked h _),
    .of_rule (rule := fun s => f.checked rd (s.storeWordFrom (f.address s) f.base rd (f.privileged s)))
      (by cases f <;> rfl) hc (f.ruleFaults_checked h _)⟩

theorem WordForm.faults_byte {f : WordForm} (h : f.regsOk rd = false ∨ rd = 15#4) :
    Faults (f.ldrb cond rd) s ∧ Faults (f.strb cond rd) s :=
  ⟨.of_rule (rule := fun s => f.checkedByte rd (s.loadByteTo (f.address s) f.base rd (f.privileged s)))
      (by cases f <;> rfl) hc (f.ruleFaults_checkedByte h _),
    .of_rule (rule := fun s => f.checkedByte rd (s.storeByteFrom (f.address s) f.base rd (f.privileged s)))
      (by cases f <;> rfl) hc (f.ruleFaults_checkedByte h _)⟩

theorem HalfForm.faults_load {f : HalfForm} (h : f.regsOk rd = false) :
    Faults (f.ldrh cond rd) s ∧ Faults (f.ldrsh cond rd) s ∧ Faults (f.ldrsb cond rd) s :=
  ⟨.of_rule (rule := fun s => f.checked rd (s.loadHalfTo (f.address s) f.base rd))
      (by cases f <;> rfl) hc (f.ruleFaults_checked h _),
    .of_rule (rule := fun s => f.checked rd (s.loadSignedHalfTo (f.address s) f.base rd))
      (by cases f <;> rfl) hc (f.ruleFaults_checked h _),
    .of_rule (rule := fun s => f.checked rd (s.loadSignedByteTo (f.address s) f.base rd))
      (by cases f <;> rfl) hc (f.ruleFaults_checked h _)⟩

theorem HalfForm.faults_strh {f : HalfForm} (h : f.regsOk rd = false) : Faults (f.strh cond rd) s :=
  .of_rule (rule := fun s => f.checked rd (s.storeHalfFrom (f.address s) f.base rd))
    (by cases f <;> rfl) hc (f.ruleFaults_checked h _)

theorem HalfForm.faults_ldrd {f : HalfForm} (h : f.pairOk rd = false ∨ f.offsetFree rd = false) :
    Faults (f.ldrd cond rd) s :=
  .of_rule (rule := fun s => f.checkedPair rd (f.checkedOffset rd (s.loadDoubleTo (f.address s) f.base rd)))
    (by cases f <;> rfl) hc (f.ruleFaults_checkedPair (h.imp_right fun ho => f.ruleFaults_checkedOffset ho _))

theorem HalfForm.faults_strd {f : HalfForm} (h : f.pairOk rd = false) : Faults (f.strd cond rd) s :=
  .of_rule (rule := fun s => f.checkedPair rd (s.storeDoubleFrom (f.address s) f.base rd))
    (by cases f <;> rfl) hc (f.ruleFaults_checkedPair (.inl h))

end

end Sys2Proof.Machine
end

section
/-! ## What the single loads leave (40_arm_memory_access.md R230 to R247) -/

namespace Sys2Proof.Machine

theorem Completes.of_rule {i : Instr} {s t : State} {r : Except Trap State} {p : State → Prop}
    (hi : exec i s = s.finish r) (hr : r = .ok t) (hp : p t) : Completes i s p :=
  ⟨t, by rw [hi, hr, State.finish_ok], hp⟩

theorem Completes.mono {i : Instr} {s : State} {p q : State → Prop} (h : Completes i s p) (hpq : ∀ t, p t → q t) :
    Completes i s q := h.imp fun t ht => ht.imp_right (hpq t)

/-! ### The base -/

theorem WordForm.address_writeback (f : WordForm) (s : State) : (f.address s).writeback = f.writeback := by
  cases f <;> rfl

theorem HalfForm.address_writeback (f : HalfForm) (s : State) : (f.address s).writeback = f.writeback := by
  cases f <;> rfl

/-- A base that is written back is neither r15 nor Rd (R230). -/
theorem WordForm.base_of_regsOk {f : WordForm} {rd : Reg} (h : f.regsOk rd = true) (hw : f.writeback = true) :
    f.base ≠ 15#4 ∧ f.base ≠ rd := by
  simp only [WordForm.regsOk, hw, Bool.true_and, Bool.and_eq_true, Bool.not_eq_true', Bool.or_eq_false_iff,
    beq_eq_false_iff_ne] at h
  obtain ⟨⟨-, hbase⟩, -⟩ := h
  exact hbase

theorem HalfForm.base_of_regsOk {f : HalfForm} {rd : Reg} (h : f.regsOk rd = true) (hw : f.writeback = true) :
    f.base ≠ 15#4 ∧ f.base ≠ rd := by
  simp only [HalfForm.regsOk, hw, Bool.true_and, Bool.and_eq_true, Bool.not_eq_true', Bool.or_eq_false_iff,
    beq_eq_false_iff_ne] at h
  obtain ⟨-, hbase⟩ := h
  exact hbase

theorem HalfForm.rd_of_regsOk {f : HalfForm} {rd : Reg} (h : f.regsOk rd = true) : rd ≠ 15#4 := by
  simp only [HalfForm.regsOk, Bool.and_eq_true, bne_iff_ne] at h
  obtain ⟨⟨-, hd⟩, -⟩ := h
  exact hd

/-! ### Loads into a register: from the byte, halfword or word read to the end of the rule -/

section
variable {s : State} {a : Address} {rn rd : Reg} {p : Bool}

/-- The rotation of R75 as the statements write it: by eight times the address modulo 4. -/
theorem rotateLoaded_eq (a v : Word) : rotateLoaded a v = v.rotateRight (8 * (a.toNat % 4)) := by
  have hmask : (a &&& 3#32).toNat = a.toNat % 4 := Nat.and_two_pow_sub_one_eq_mod a.toNat 2
  rw [rotateLoaded, hmask]

theorem State.loadWordTo_eq {v : Word} (ha : s.WordAlignOk a.addr)
    (h : s.allowed (wordAddress a.addr) 4 .read p = true) (hv : s.word (wordAddress a.addr) = some v) :
    s.loadWordTo a rn rd p = if rd = 15#4 then (s.writeBack a rn).loadPc (rotateLoaded a.addr v)
      else ((s.writeBack a rn).setReg rd (rotateLoaded a.addr v)).advance := by
  simp [State.loadWordTo, State.checkWordAligned_ok ha, State.readWord_ok h hv]

theorem State.loadByteTo_eq {v : Byte} (h : s.allowed a.addr 1 .read p = true) (hv : s.byte a.addr = some v) :
    s.loadByteTo a rn rd p = ((s.writeBack a rn).setReg rd (v.zeroExtend 32)).advance := by
  simp [State.loadByteTo, State.readByte_ok h hv]

theorem State.loadSignedByteTo_eq {v : Byte} (h : s.allowed a.addr 1 .read s.privileged = true)
    (hv : s.byte a.addr = some v) :
    s.loadSignedByteTo a rn rd = ((s.writeBack a rn).setReg rd (v.signExtend 32)).advance := by
  simp [State.loadSignedByteTo, State.readByte_ok h hv]

theorem State.loadHalfTo_eq {v : Half} (ha : a.addr &&& 1#32 = 0#32)
    (h : s.allowed a.addr 2 .read s.privileged = true) (hv : s.half a.addr = some v) :
    s.loadHalfTo a rn rd = ((s.writeBack a rn).setReg rd (v.zeroExtend 32)).advance := by
  simp [State.loadHalfTo, State.checkAligned_ok ha, State.readHalf_ok h hv]

theorem State.loadSignedHalfTo_eq {v : Half} (ha : a.addr &&& 1#32 = 0#32)
    (h : s.allowed a.addr 2 .read s.privileged = true) (hv : s.half a.addr = some v) :
    s.loadSignedHalfTo a rn rd = ((s.writeBack a rn).setReg rd (v.signExtend 32)).advance := by
  simp [State.loadSignedHalfTo, State.checkAligned_ok ha, State.readHalf_ok h hv]

theorem State.loadDoubleTo_eq {lo hi : Word} (ha : a.addr &&& 7#32 = 0#32)
    (h0 : s.allowed a.addr 4 .read s.privileged = true) (h1 : s.allowed (a.addr + 4#32) 4 .read s.privileged = true)
    (hlo : s.word a.addr = some lo) (hhi : s.word (a.addr + 4#32) = some hi) :
    s.loadDoubleTo a rn rd = (((s.writeBack a rn).setReg rd lo).setReg (rd + 1#4) hi).advance := by
  simp [State.loadDoubleTo, State.checkAligned_ok ha, State.readPair_ok h0 h1 hlo hhi]

/-! ### Memory that has no value (R51, R860) -/

theorem State.loadWordTo_unwritten (ha : s.WordAlignOk a.addr)
    (h : s.allowed (wordAddress a.addr) 4 .read p = true) (hv : s.word (wordAddress a.addr) = none) :
    s.loadWordTo a rn rd p = .error (.fault .unwritten) := by
  simp [State.loadWordTo, State.checkWordAligned_ok ha, State.readWord_unwritten h hv]

theorem State.loadByteTo_unwritten (h : s.allowed a.addr 1 .read p = true) (hv : s.byte a.addr = none) :
    s.loadByteTo a rn rd p = .error (.fault .unwritten) := by simp [State.loadByteTo, State.readByte_unwritten h hv]

theorem State.loadSignedByteTo_unwritten (h : s.allowed a.addr 1 .read s.privileged = true)
    (hv : s.byte a.addr = none) : s.loadSignedByteTo a rn rd = .error (.fault .unwritten) := by
  simp [State.loadSignedByteTo, State.readByte_unwritten h hv]

theorem State.loadHalfTo_unwritten (ha : a.addr &&& 1#32 = 0#32)
    (h : s.allowed a.addr 2 .read s.privileged = true) (hv : s.half a.addr = none) :
    s.loadHalfTo a rn rd = .error (.fault .unwritten) := by
  simp [State.loadHalfTo, State.checkAligned_ok ha, State.readHalf_unwritten h hv]

theorem State.loadSignedHalfTo_unwritten (ha : a.addr &&& 1#32 = 0#32)
    (h : s.allowed a.addr 2 .read s.privileged = true) (hv : s.half a.addr = none) :
    s.loadSignedHalfTo a rn rd = .error (.fault .unwritten) := by
  simp [State.loadSignedHalfTo, State.checkAligned_ok ha, State.readHalf_unwritten h hv]

theorem State.loadDoubleTo_unwritten (ha : a.addr &&& 7#32 = 0#32)
    (h0 : s.allowed a.addr 4 .read s.privileged = true) (h1 : s.allowed (a.addr + 4#32) 4 .read s.privileged = true)
    (hv : s.word a.addr = none ∨ s.word (a.addr + 4#32) = none) :
    s.loadDoubleTo a rn rd = .error (.fault .unwritten) := by
  simp [State.loadDoubleTo, State.checkAligned_ok ha, State.readPair_unwritten h0 h1 hv]

end

/-! ### The state after a load -/

theorem WordForm.completes_load {f : WordForm} {i : Instr} {s : State} {rd : Reg} {v : Word}
    (hr : f.regsOk rd = true) (hd : rd ≠ 15#4) (hg : s.CanGoOn)
    (hi : exec i s = s.finish ((s.writeBack (f.address s) f.base).setReg rd v).advance) :
    Completes i s fun t => t.reg rd = v ∧ (f.writeback = true → t.reg f.base = (f.address s).target) ∧
      s.FlagsKept t ∧ s.GoesOn t (f.written rd) := by
  have hw := f.address_writeback s
  obtain ⟨hrd, hbase, hflags, hgoes⟩ :=
    State.loaded_state (a := f.address s) v hd fun h => f.base_of_regsOk hr (hw ▸ h)
  refine .of_rule hi (State.advance_loaded v hg) ⟨hrd, hw ▸ hbase, hflags, hgoes _ ?_ fun h => ?_⟩
  · unfold WordForm.written
    split <;> simp
  · simp [WordForm.written, hw ▸ h]

theorem HalfForm.completes_load {f : HalfForm} {i : Instr} {s : State} {rd : Reg} {v : Word}
    (hr : f.regsOk rd = true) (hg : s.CanGoOn)
    (hi : exec i s = s.finish ((s.writeBack (f.address s) f.base).setReg rd v).advance) :
    Completes i s fun t => t.reg rd = v ∧ (f.writeback = true → t.reg f.base = (f.address s).target) ∧
      s.FlagsKept t ∧ s.GoesOn t (rd :: f.writtenBase) := by
  have hw := f.address_writeback s
  obtain ⟨hrd, hbase, hflags, hgoes⟩ :=
    State.loaded_state (a := f.address s) v (f.rd_of_regsOk hr) fun h => f.base_of_regsOk hr (hw ▸ h)
  refine .of_rule hi (State.advance_loaded v hg) ⟨hrd, hw ▸ hbase, hflags, hgoes _ List.mem_cons_self fun h => ?_⟩
  simp [HalfForm.writtenBase, hw ▸ h]

/-- Settles O26: the four forms share one rule, which reads, writes the base back, then Rd, and moves the pc on. -/
theorem loadsWordAndByte : Obligations.LoadsWordAndByte := by
  intro f cond rd s hc a
  refine ⟨fun h => ⟨(f.faults_word hc h).1, (f.faults_byte hc (.inl h)).1⟩,
    fun h => (f.faults_byte hc (.inr h)).1,
    fun hr ha hp hv => exec_fault_of_rule (f.exec_ldr hc hr) (State.loadWordTo_unwritten ha hp hv),
    fun hr hd hp hv => exec_fault_of_rule (f.exec_ldrb hc hr hd) (State.loadByteTo_unwritten hp hv),
    fun hr hd hg => ⟨fun ha hp v hv => ?word, fun hp v hv => f.completes_load hr hd hg ?byte⟩⟩
  case word =>
    rw [← rotateLoaded_eq]
    refine f.completes_load hr hd hg ?_
    rw [f.exec_ldr hc hr, State.loadWordTo_eq ha hp hv, if_neg hd]
  case byte => rw [f.exec_ldrb hc hr hd, State.loadByteTo_eq hp hv]

/-! ### LDR of r15 (R232) -/

theorem State.loadTarget_congr {s t : State} (hcfg : t.cfg = s.cfg) (ht : t.cpsr.t = s.cpsr.t) (v : Word) :
    t.loadTarget v = s.loadTarget v := by
  simp [State.loadTarget, hcfg, ht]

/-- What `loadPc` answers after registers were written: a fault where R232 forbids the word, else the branch. -/
theorem State.loadPc_none {s t : State} {v : Word} (hcfg : t.cfg = s.cfg) (hcpsr : t.cpsr = s.cpsr)
    (h : s.loadTarget v = none) : t.loadPc v = .error (.fault .pcTarget) := by
  rw [State.loadPc_eq, State.loadTarget_congr hcfg (by rw [hcpsr]), h]

theorem State.loadPc_some {s t : State} {v target : Word} {thumb : Bool} (hcfg : t.cfg = s.cfg)
    (hcpsr : t.cpsr = s.cpsr) (h : s.loadTarget v = some (thumb, target)) :
    t.loadPc v = .ok ((t.setThumb thumb).setPc target) := by
  rw [State.loadPc_eq, State.loadTarget_congr hcfg (by rw [hcpsr]), h]

/-- A general register does not depend on the pc and T. -/
theorem State.reg_setThumb_setPc {s : State} {b : Bool} {v : Word} {r : Reg} (h : r ≠ 15#4) :
    ((s.setThumb b).setPc v).reg r = s.reg r := by
  rw [State.reg_setPc _ _ _ h, State.reg, if_neg h, State.reg, if_neg h]
  rfl

/-- Settles O27: the base is written back first, which `loadTarget` does not see. -/
theorem loadOfPc : Obligations.LoadOfPc := by
  intro f cond s hc a
  refine ⟨fun h => (f.faults_word hc h).1, fun hr ha hp data hdata => ?_⟩
  have hload : exec (f.ldr cond 15#4) s =
      s.finish ((s.writeBack (f.address s) f.base).loadPc (data.rotateRight (8 * (a.toNat % 4)))) := by
    rw [f.exec_ldr hc hr, State.loadWordTo_eq ha hp hdata, if_pos rfl, rotateLoaded_eq]
  have hw := f.address_writeback s
  refine ⟨fun h => ⟨_, exec_fault_of_rule hload (State.loadPc_none (by simp) (by simp) h)⟩, fun thumb target h =>
    .of_rule hload (State.loadPc_some (by simp) (by simp) h) ⟨rfl, ?cpsr, fun hwb => ?base, ?regs, ?rest⟩⟩
  case cpsr => simp [State.setThumb]
  case base =>
    have hb := (f.base_of_regsOk hr hwb).1
    rw [State.reg_setThumb_setPc hb, State.reg_writeBack_base (hw.trans hwb) hb]
  case regs =>
    refine ((State.RegsKept.refl s f.writtenBase).writeBack rfl fun hwb => ?_).congr rfl
    simp [WordForm.writtenBase, hw ▸ hwb]
  case rest => rw [State.writeBack_only]; rfl

/-! ### The pair of LDRD -/

/-- Rd of LDRD and STRD is even and not r14, so the pair is two registers, neither of them r15 (R247). -/
theorem HalfForm.pair_of_pairOk {f : HalfForm} {rd : Reg} (h : f.pairOk rd = true) :
    rd ≠ 15#4 ∧ rd + 1#4 ≠ 15#4 ∧ rd ≠ rd + 1#4 := by
  simp only [HalfForm.pairOk, Bool.and_eq_true, Bool.not_eq_true', bne_iff_ne] at h
  obtain ⟨⟨⟨-, heven⟩, h14⟩, -⟩ := h
  clear f
  revert rd
  decide

theorem HalfForm.base_of_pairOk {f : HalfForm} {rd : Reg} (h : f.pairOk rd = true) (hw : f.writeback = true) :
    f.base ≠ 15#4 ∧ f.base ≠ rd ∧ f.base ≠ rd + 1#4 := by
  simp only [HalfForm.pairOk, hw, Bool.true_and, Bool.and_eq_true, Bool.not_eq_true', Bool.or_eq_false_iff,
    beq_eq_false_iff_ne] at h
  obtain ⟨-, ⟨hpc, h0⟩, h1⟩ := h
  exact ⟨hpc, h0, h1⟩

/-- The two registers of a pair after both are written. -/
theorem HalfForm.completes_loadPair {f : HalfForm} {i : Instr} {s : State} {rd : Reg} {lo hi : Word}
    (hr : f.pairOk rd = true) (hg : s.CanGoOn)
    (he : exec i s = s.finish (((s.writeBack (f.address s) f.base).setReg rd lo).setReg (rd + 1#4) hi).advance) :
    Completes i s fun t => t.reg rd = lo ∧ t.reg (rd + 1#4) = hi ∧
      (f.writeback = true → t.reg f.base = (f.address s).target) ∧ s.FlagsKept t ∧
      s.GoesOn t (rd :: (rd + 1#4) :: f.writtenBase) := by
  obtain ⟨hd, hd1, hne⟩ := f.pair_of_pairOk hr
  have hw := f.address_writeback s
  refine .of_rule he (State.advance_of (s := s) (by simp) (by simp) hg) ⟨?lo, ?hi, fun hwb => ?base, ?flags, rfl, ?regs,
    State.MemKept.of_mem (by simp), by simp⟩
  case lo => rw [State.reg_setPc _ _ _ hd, State.reg_setReg_ne _ _ _ _ hne, State.reg_setReg_self _ _ _ hd]
  case hi => rw [State.reg_setPc _ _ _ hd1, State.reg_setReg_self _ _ _ hd1]
  case base =>
    obtain ⟨hpc, h0, h1⟩ := f.base_of_pairOk hr hwb
    rw [State.reg_setPc _ _ _ hpc, State.reg_setReg_ne _ _ _ _ h1, State.reg_setReg_ne _ _ _ _ h0,
      State.reg_writeBack_base (hw.trans hwb) hpc]
  case flags => simp [State.FlagsKept]
  case regs =>
    have hbase := (State.RegsKept.refl s (rd :: (rd + 1#4) :: f.writtenBase)).writeBack rfl (a := f.address s)
      (rn := f.base) fun hwb => by simp [HalfForm.writtenBase, hw ▸ hwb]
    exact ((hbase.setReg (by simp) (by simp) lo).setReg (by simp) (by simp) hi).congr rfl

/-- Settles O29: both forms share one rule for each instruction; LDRD writes Rd and R(d+1), two
registers neither of which is the base. -/
theorem loadsHalfByteAndDouble : Obligations.LoadsHalfByteAndDouble := by
  intro f cond rd s hc a based
  refine ⟨f.faults_load hc, f.faults_ldrd hc, fun hr hg => ⟨fun ha hp v hv => ⟨?ldrh, ?ldrsh⟩, fun hp v hv => ?ldrsb⟩,
    fun hr => ⟨fun ha hp hv => ?noHalf, fun hp hv => ?noByte⟩,
    fun hr ho ha h0 h1 => ⟨fun hv => ?noWord, fun hg v w hv hw => ?ldrd⟩⟩
  case ldrh => exact f.completes_load hr hg (by rw [f.exec_ldrh hc hr, State.loadHalfTo_eq ha hp hv])
  case ldrsh => exact f.completes_load hr hg (by rw [f.exec_ldrsh hc hr, State.loadSignedHalfTo_eq ha hp hv])
  case ldrsb => exact f.completes_load hr hg (by rw [f.exec_ldrsb hc hr, State.loadSignedByteTo_eq hp hv])
  case noHalf =>
    exact ⟨exec_fault_of_rule (f.exec_ldrh hc hr) (State.loadHalfTo_unwritten ha hp hv),
      exec_fault_of_rule (f.exec_ldrsh hc hr) (State.loadSignedHalfTo_unwritten ha hp hv)⟩
  case noByte => exact exec_fault_of_rule (f.exec_ldrsb hc hr) (State.loadSignedByteTo_unwritten hp hv)
  case noWord => exact exec_fault_of_rule (f.exec_ldrd hc hr ho) (State.loadDoubleTo_unwritten ha h0 h1 hv)
  case ldrd => exact f.completes_loadPair hr hg (by rw [f.exec_ldrd hc hr ho, State.loadDoubleTo_eq ha h0 h1 hv hw])

end Sys2Proof.Machine
end

section
/-! ## What the single stores leave (40_arm_memory_access.md R230 to R248) -/

namespace Sys2Proof.Machine

/-- A rule that ends by writing the base back leaves the memory of `u`, the state after the store, and goes on. -/
theorem Completes.of_store {i : Instr} {s u : State} {a : Address} {rn : Reg} {lo : Word} {n : Nat}
    (hi : exec i s = s.finish (u.writeBack a rn).advance) (hu : u = { s with mem := u.mem })
    (ho : s.MemKeptOutside u lo n) (hb : a.writeback = true → rn ≠ 15#4) (hg : s.CanGoOn) :
    Completes i s fun t => t.mem = u.mem ∧ t.cfg = u.cfg ∧ (a.writeback = true → t.reg rn = a.target) ∧
      s.GoesOnStoring t (a.written rn) lo n := by
  obtain ⟨t, ht, hmem, hcfg, hbase, hgoes⟩ := State.stored_state hu ho hb hg
  exact .of_rule hi ht ⟨hmem, hcfg.trans (by rw [hu]), hbase, hgoes⟩

/-! ### From the write to the end of the rule -/

section
variable {s : State} {a : Address} {rn rd : Reg} {p : Bool}

/-- What a word store stores, as the statements write it (R233). -/
theorem State.regStored_eq (s : State) (r : Reg) : s.regStored r =
    if r = 15#4 then s.pc + (if s.cfg.pcStoreOffset = .eight then 8#32 else 12#32) else s.reg r := by
  unfold State.regStored State.pcStored
  cases s.cfg.pcStoreOffset <;> rfl

theorem State.storeWordFrom_eq (ha : s.WordAlignOk a.addr) (h : s.allowed (wordAddress a.addr) 4 .write p = true) :
    s.storeWordFrom a rn rd p = ((s.setWord (wordAddress a.addr) (s.regStored rd)).writeBack a rn).advance := by
  simp [State.storeWordFrom, State.checkWordAligned_ok ha, State.writeWord_ok h]

theorem State.storeByteFrom_eq (h : s.allowed a.addr 1 .write p = true) :
    s.storeByteFrom a rn rd p = ((s.setByte a.addr ((s.reg rd).extractLsb' 0 8)).writeBack a rn).advance := by
  simp [State.storeByteFrom, State.writeByte_ok h]

theorem State.storeHalfFrom_eq (ha : a.addr &&& 1#32 = 0#32) (h : s.allowed a.addr 2 .write s.privileged = true) :
    s.storeHalfFrom a rn rd = ((s.setHalf a.addr ((s.reg rd).extractLsb' 0 16)).writeBack a rn).advance := by
  simp [State.storeHalfFrom, State.checkAligned_ok ha, State.writeHalf_ok h]

/-- STRD writes a block of two words. -/
theorem State.storeDoubleFrom_eq (ha : a.addr &&& 7#32 = 0#32) (h0 : s.allowed a.addr 4 .write s.privileged = true)
    (h1 : s.allowed (a.addr + 4#32) 4 .write s.privileged = true) :
    s.storeDoubleFrom a rn rd = ((s.setWords [s.reg rd, s.reg (rd + 1#4)] a.addr).writeBack a rn).advance := by
  rw [← State.allowed_setWord s a.addr (s.reg rd)] at h1
  simp [State.storeDoubleFrom, State.checkAligned_ok ha, State.writeWord_ok h0, State.writeWord_ok h1, State.setWords]

end

/-- A double word at a multiple of eight does not pass the top of the address space. -/
theorem fitsBelowTop_two {a : Word} (h : a &&& 7#32 = 0#32) : FitsBelowTop a 2 := by
  have hmod : a.toNat % 8 = 0 := by
    rw [← Nat.and_two_pow_sub_one_eq_mod a.toNat 3]
    exact congrArg BitVec.toNat h
  have hlt := a.isLt
  unfold FitsBelowTop
  omega

theorem State.memKept_setWords (s : State) {vs : List Word} {a : Word} (h : FitsBelowTop a vs.length) :
    s.MemKeptOutside (s.setWords vs a) a (4 * vs.length) :=
  fun b hb => State.byte_setWords_outside s vs a b h hb

/-! ### The state after a store -/

theorem WordForm.writtenBase_eq (f : WordForm) (s : State) : (f.address s).written f.base = f.writtenBase := by
  rw [Address.written, f.address_writeback, WordForm.writtenBase]

theorem HalfForm.writtenBase_eq (f : HalfForm) (s : State) : (f.address s).written f.base = f.writtenBase := by
  rw [Address.written, f.address_writeback, HalfForm.writtenBase]

theorem WordForm.completes_store {f : WordForm} {i : Instr} {s u : State} {rd : Reg} {lo : Word} {n : Nat}
    (hr : f.regsOk rd = true) (hg : s.CanGoOn)
    (hi : exec i s = s.finish (u.writeBack (f.address s) f.base).advance) (hu : u = { s with mem := u.mem })
    (ho : s.MemKeptOutside u lo n) :
    Completes i s fun t => t.mem = u.mem ∧ t.cfg = u.cfg ∧
      (f.writeback = true → t.reg f.base = (f.address s).target) ∧ s.GoesOnStoring t f.writtenBase lo n := by
  rw [← f.writtenBase_eq s, ← f.address_writeback s]
  exact .of_store hi hu ho (fun hw => (f.base_of_regsOk hr (f.address_writeback s ▸ hw)).1) hg

theorem HalfForm.completes_store {f : HalfForm} {i : Instr} {s u : State} {lo : Word} {n : Nat}
    (hb : f.writeback = true → f.base ≠ 15#4) (hg : s.CanGoOn)
    (hi : exec i s = s.finish (u.writeBack (f.address s) f.base).advance) (hu : u = { s with mem := u.mem })
    (ho : s.MemKeptOutside u lo n) :
    Completes i s fun t => t.mem = u.mem ∧ t.cfg = u.cfg ∧
      (f.writeback = true → t.reg f.base = (f.address s).target) ∧ s.GoesOnStoring t f.writtenBase lo n := by
  rw [← f.writtenBase_eq s]
  rw [← f.address_writeback s] at hb ⊢
  exact .of_store hi hu ho hb hg

/-- Settles O28: the four forms share one rule; memory after it is that of a single `setWord` or `setByte`. -/
theorem storesWordAndByte : Obligations.StoresWordAndByte := by
  intro f cond rd s hc a stored
  refine ⟨fun h => ⟨(f.faults_word hc h).2, (f.faults_byte hc (.inl h)).2⟩, fun h => (f.faults_byte hc (.inr h)).2,
    fun hr hg => ⟨fun ha hp => ?word, fun hd hp => ?byte⟩⟩
  case word =>
    refine (f.completes_store hr hg ((f.exec_str hc hr).trans (congrArg s.finish (State.storeWordFrom_eq ha hp)))
      (State.setWord_frame ..) (State.memKept_setWord _ _ _)).mono fun t ⟨hmem, hcfg, hrest⟩ => ⟨?_, hrest⟩
    rw [State.word_congr hmem hcfg]
    exact (State.word_setWord ..).trans (congrArg some (s.regStored_eq rd))
  case byte =>
    refine (f.completes_store hr hg ((f.exec_strb hc hr hd).trans (congrArg s.finish (State.storeByteFrom_eq hp)))
      (State.setByte_frame ..) (State.memKept_setByte _ _ _)).mono fun t ⟨hmem, _, hrest⟩ => ⟨?_, hrest⟩
    rw [State.byte_congr hmem]
    exact State.byte_setByte_self ..

/-- Settles O30: STRD is a block of two words, which an address that is a multiple of eight keeps below the top. -/
theorem storesHalfAndDouble : Obligations.StoresHalfAndDouble := by
  intro f cond rd s hc a based
  refine ⟨f.faults_strh hc, f.faults_strd hc, fun hr hg ha hp => ?half,
    fun hr hg ha h0 h1 => ?double⟩
  case half =>
    refine (f.completes_store (fun hw => (f.base_of_regsOk hr hw).1) hg
      ((f.exec_strh hc hr).trans (congrArg s.finish (State.storeHalfFrom_eq ha hp))) (State.setHalf_frame ..)
      (State.memKept_setHalf _ _ _)).mono fun t ⟨hmem, hcfg, hrest⟩ => ⟨?_, hrest⟩
    rw [State.half_congr hmem hcfg]
    exact State.half_setHalf ..
  case double =>
    have hfits : FitsBelowTop a [s.reg rd, s.reg (rd + 1#4)].length := fitsBelowTop_two ha
    have hwords := s.wordsAt_setWords _ a hfits
    refine (f.completes_store (fun hw => (f.base_of_pairOk hr hw).1) hg
      ((f.exec_strd hc hr).trans (congrArg s.finish (State.storeDoubleFrom_eq ha h0 h1))) (State.setWords_frame ..)
      (s.memKept_setWords hfits)).mono fun t ⟨hmem, hcfg, hrest⟩ => ⟨?_, ?_, hrest⟩
    · rw [State.word_congr hmem hcfg]
      simpa using hwords 0 _ rfl
    · rw [State.word_congr hmem hcfg]
      exact hwords 1 _ rfl

end Sys2Proof.Machine
end

section
/-! ## SWP and SWPB (40_arm_memory_access.md R257, R258) -/

namespace Sys2Proof.Machine

/-- SWP after the test of its registers (R257). -/
def State.swapWord (s : State) (rn rd rm : Reg) : Except Trap State := do
  s.checkWordAligned (s.reg rn)
  s.checkAllowed (wordAddress (s.reg rn)) 4 .write s.privileged
  let old ← s.readWord (wordAddress (s.reg rn)) s.privileged
  let t ← s.writeWord (wordAddress (s.reg rn)) (s.reg rm) s.privileged
  (t.setReg rd (rotateLoaded (s.reg rn) old)).advance

/-- SWPB after the test of its registers (R258). -/
def State.swapByte (s : State) (rn rd rm : Reg) : Except Trap State := do
  s.checkAllowed (s.reg rn) 1 .write s.privileged
  let old ← s.readByte (s.reg rn) s.privileged
  let t ← s.writeByte (s.reg rn) ((s.reg rm).extractLsb' 0 8) s.privileged
  (t.setReg rd (old.zeroExtend 32)).advance

/-! ### The registers -/

theorem ruleFaults_checkSwap_bind {α : Type} {rn rd rm : Reg} {r : Except Trap α}
    (h : rn = 15#4 ∨ rd = 15#4 ∨ rm = 15#4 ∨ rn = rd ∨ rn = rm) :
    RuleFaults (checkSwap rn rd rm >>= fun _ => r) := by
  simp only [checkSwap, bind_assoc, ruleFaults_forbid_bind, isPc, Bool.or_eq_true, beq_iff_eq]
  tauto

theorem checkSwap_ok {rn rd rm : Reg} (hn : rn ≠ 15#4) (hd : rd ≠ 15#4) (hm : rm ≠ 15#4) (hnd : rn ≠ rd)
    (hnm : rn ≠ rm) : checkSwap rn rd rm = .ok () := by
  simp [checkSwap, isPc_false hn, isPc_false hd, isPc_false hm, beq_false_of_ne hnd, beq_false_of_ne hnm]

section
variable {cond : Cond} {rn rd rm : Reg} {s : State}

theorem exec_swp_eq : exec (.swp cond rn rd rm) s =
    s.ifPassed cond fun s => checkSwap rn rd rm >>= fun _ => s.swapWord rn rd rm := rfl

theorem exec_swpb_eq : exec (.swpb cond rn rd rm) s =
    s.ifPassed cond fun s => checkSwap rn rd rm >>= fun _ => s.swapByte rn rd rm := rfl

/-! ### Where a swap stops -/

theorem State.swapWord_misaligned (h : ¬s.WordAlignOk (s.reg rn)) :
    s.swapWord rn rd rm = .error (.exc .dataAbort) := by
  simp [State.swapWord, State.checkWordAligned_abort h]

/-- A refused read or write is the Data Abort, as a misaligned address under checking is. -/
theorem State.swapWord_refused (h : s.allowed (wordAddress (s.reg rn)) 4 .read s.privileged = false ∨
    s.allowed (wordAddress (s.reg rn)) 4 .write s.privileged = false) :
    s.swapWord rn rd rm = .error (.exc .dataAbort) := by
  by_cases ha : s.WordAlignOk (s.reg rn)
  · cases hw : s.allowed (wordAddress (s.reg rn)) 4 .write s.privileged with
    | false => simp [State.swapWord, State.checkWordAligned_ok ha, State.checkAllowed_abort hw]
    | true =>
      have hr := h.resolve_right (by simp [hw])
      simp [State.swapWord, State.checkWordAligned_ok ha, State.checkAllowed_ok hw, State.readWord_abort hr]
  · exact State.swapWord_misaligned ha

theorem State.swapByte_refused (h : s.allowed (s.reg rn) 1 .read s.privileged = false ∨
    s.allowed (s.reg rn) 1 .write s.privileged = false) : s.swapByte rn rd rm = .error (.exc .dataAbort) := by
  cases hw : s.allowed (s.reg rn) 1 .write s.privileged with
  | false => simp [State.swapByte, State.checkAllowed_abort hw]
  | true =>
    have hr := h.resolve_right (by simp [hw])
    simp [State.swapByte, State.checkAllowed_ok hw, State.readByte_abort hr]

theorem State.swapWord_unwritten (ha : s.WordAlignOk (s.reg rn))
    (hr : s.allowed (wordAddress (s.reg rn)) 4 .read s.privileged = true)
    (hw : s.allowed (wordAddress (s.reg rn)) 4 .write s.privileged = true)
    (hv : s.word (wordAddress (s.reg rn)) = none) : s.swapWord rn rd rm = .error (.fault .unwritten) := by
  simp [State.swapWord, State.checkWordAligned_ok ha, State.checkAllowed_ok hw, State.readWord_unwritten hr hv]

theorem State.swapByte_unwritten (hr : s.allowed (s.reg rn) 1 .read s.privileged = true)
    (hw : s.allowed (s.reg rn) 1 .write s.privileged = true) (hv : s.byte (s.reg rn) = none) :
    s.swapByte rn rd rm = .error (.fault .unwritten) := by
  simp [State.swapByte, State.checkAllowed_ok hw, State.readByte_unwritten hr hv]

/-! ### The exchange -/

theorem State.swapWord_eq {v : Word} (ha : s.WordAlignOk (s.reg rn))
    (hr : s.allowed (wordAddress (s.reg rn)) 4 .read s.privileged = true)
    (hw : s.allowed (wordAddress (s.reg rn)) 4 .write s.privileged = true)
    (hv : s.word (wordAddress (s.reg rn)) = some v) : s.swapWord rn rd rm =
      ((s.setWord (wordAddress (s.reg rn)) (s.reg rm)).setReg rd (rotateLoaded (s.reg rn) v)).advance := by
  simp [State.swapWord, State.checkWordAligned_ok ha, State.checkAllowed_ok hw, State.readWord_ok hr hv,
    State.writeWord_ok hw]

theorem State.swapByte_eq {v : Byte} (hr : s.allowed (s.reg rn) 1 .read s.privileged = true)
    (hw : s.allowed (s.reg rn) 1 .write s.privileged = true) (hv : s.byte (s.reg rn) = some v) :
    s.swapByte rn rd rm =
      ((s.setByte (s.reg rn) ((s.reg rm).extractLsb' 0 8)).setReg rd (v.zeroExtend 32)).advance := by
  simp [State.swapByte, State.checkAllowed_ok hw, State.readByte_ok hr hv, State.writeByte_ok hw]

/-- A swap ends as a store that writes Rd in place of a base. -/
theorem Completes.of_swap {i : Instr} {u : State} {v lo : Word} {n : Nat}
    (hi : exec i s = s.finish (u.setReg rd v).advance) (hu : u = { s with mem := u.mem })
    (ho : s.MemKeptOutside u lo n) (hd : rd ≠ 15#4) (hg : s.CanGoOn) :
    Completes i s fun t => t.mem = u.mem ∧ t.cfg = u.cfg ∧ t.reg rd = v ∧ s.GoesOnStoring t [rd] lo n :=
  (Completes.of_store (a := { addr := lo, target := v, writeback := true }) hi hu ho (fun _ => hd) hg).mono
    fun _ ⟨hmem, hcfg, hrd, hgoes⟩ => ⟨hmem, hcfg, hrd rfl, hgoes⟩

end

/-- Settles O32: a swap is a load, then a store that writes Rd in place of a base. -/
theorem swap : Obligations.Swap := by
  intro cond rn rd rm s hc a w
  refine ⟨fun h => ?faults, fun hn hd hm hnd hnm => ?allowed⟩
  case faults =>
    have hchk {r : Except Trap State} := ruleFaults_checkSwap_bind (r := r) h
    exact ⟨.of_rule exec_swp_eq hc hchk, .of_rule exec_swpb_eq hc hchk⟩
  have hchk := checkSwap_ok hn hd hm hnd hnm
  have swp : exec (.swp cond rn rd rm) s = s.finish (s.swapWord rn rd rm) := by
    rw [exec_swp_eq, State.ifPassed_true hc, bind_of_ok hchk]
  have swpb : exec (.swpb cond rn rd rm) s = s.finish (s.swapByte rn rd rm) := by
    rw [exec_swpb_eq, State.ifPassed_true hc, bind_of_ok hchk]
  refine ⟨fun ha => .of_rule swp (State.swapWord_misaligned ha), fun h => .of_rule swp (State.swapWord_refused h),
    fun h => .of_rule swpb (State.swapByte_refused h),
    fun ha hr hw => ⟨fun hv => exec_fault_of_rule swp (State.swapWord_unwritten ha hr hw hv), fun hg v hv => ?word⟩,
    fun hr hw => ⟨fun hv => exec_fault_of_rule swpb (State.swapByte_unwritten hr hw hv), fun hg v hv => ?byte⟩⟩
  case word =>
    refine (Completes.of_swap (swp.trans (congrArg s.finish (State.swapWord_eq ha hr hw hv))) (State.setWord_frame ..)
      (State.memKept_setWord _ _ _) hd hg).mono fun t ⟨hmem, hcfg, hrd, hgoes⟩ => ⟨?_, ?_, hgoes⟩
    · rw [hrd, rotateLoaded_eq]
    · rw [State.word_congr hmem hcfg]
      exact State.word_setWord ..
  case byte =>
    refine (Completes.of_swap (swpb.trans (congrArg s.finish (State.swapByte_eq hr hw hv))) (State.setByte_frame ..)
      (State.memKept_setByte _ _ _) hd hg).mono fun t ⟨hmem, _, hrd, hgoes⟩ => ⟨hrd, ?_, hgoes⟩
    rw [State.byte_congr hmem]
    exact State.byte_setByte_self ..

end Sys2Proof.Machine
end

section
/-! ## Register lists and block addresses (40_arm_memory_access.md R249, 30_encoding.md R110) -/

namespace Sys2Proof.Machine

/-- A register list of up to 16 bits holds the registers whose bit is set. -/
theorem mem_regList {n : Nat} (hn : n ≤ 16) {regs : BitVec n} {r : Reg} :
    r ∈ regList regs ↔ regs.getLsbD r.toNat = true := by
  simp only [regList, List.mem_map, List.mem_filter, List.mem_range]
  constructor
  · rintro ⟨i, ⟨hi, hbit⟩, rfl⟩
    rwa [BitVec.toNat_ofNat, Nat.mod_eq_of_lt (by omega)]
  · intro hbit
    exact ⟨r.toNat, ⟨BitVec.lt_of_getLsbD hbit, hbit⟩, by simp⟩

/-- The registers of a list stand in ascending order. -/
theorem regList_ascending {n : Nat} (hn : n ≤ 16) (regs : BitVec n) :
    (regList regs).Pairwise fun a b => a.toNat < b.toNat := by
  refine List.pairwise_map.mpr ((List.pairwise_lt_range.filter _).imp_of_mem fun {i j} hi hj hij => ?_)
  have hin := List.mem_range.mp (List.mem_of_mem_filter hi)
  have hjn := List.mem_range.mp (List.mem_of_mem_filter hj)
  rwa [BitVec.toNat_ofNat, BitVec.toNat_ofNat, Nat.mod_eq_of_lt (by omega), Nat.mod_eq_of_lt (by omega)]

/-- No register stands twice in a list. -/
theorem regList_nodup {n : Nat} (hn : n ≤ 16) (regs : BitVec n) : (regList regs).Nodup :=
  (regList_ascending hn regs).imp fun h heq => by simp [heq] at h

/-- A list of the registers below r15 does not hold r15. -/
theorem pc_notMem_regList (regs : BitVec 15) : 15#4 ∉ regList regs := by
  rw [mem_regList (by decide)]
  exact Bool.eq_false_iff.mp (BitVec.getLsbD_of_ge regs 15 (Nat.le_refl 15))

/-- Settles O33: `regList` filters an ascending range. -/
theorem blockAddresses : Obligations.BlockAddresses :=
  ⟨fun regs => ⟨fun _ => mem_regList (Nat.le_refl 16), regList_ascending (Nat.le_refl 16) regs⟩,
    fun _ _ => ⟨rfl, rfl, rfl, rfl, rfl, rfl⟩⟩

end Sys2Proof.Machine
end

section
/-! ## Blocks of words: where a transfer stops, and what it moves (40_arm_memory_access.md R249 to R251, R78, R80) -/

namespace Sys2Proof.Machine

section
variable {s : State} {p u : Bool} {base : Word} {n : Nat} {ws : List Word}

/-! ### Loads -/

theorem State.loadBlock_misaligned (h : ¬s.WordAlignOk base) :
    s.loadBlock p u base n = .error (.exc .dataAbort) := by
  simp [State.loadBlock, State.checkWordAligned_abort h]

theorem State.loadBlock_wrap (ha : s.WordAlignOk base) (hf : ¬FitsBelowTop (wordAddress (blockStart p u base n)) n) :
    s.loadBlock p u base n = .error (.fault .transferWrap) := by
  simp [State.loadBlock, State.checkWordAligned_ok ha, checkTransfer_fault hf]

theorem State.loadBlock_eq (ha : s.WordAlignOk base) (hf : FitsBelowTop (wordAddress (blockStart p u base n)) n) :
    s.loadBlock p u base n = s.readWords s.privileged n (wordAddress (blockStart p u base n)) := by
  simp [State.loadBlock, State.checkWordAligned_ok ha, checkTransfer_ok hf]

/-- A block that nothing stands in the way of is read whole. -/
theorem State.loadBlock_ok (h : s.BlockOk base (wordAddress (blockStart p u base n)) n .read) :
    ∃ vs, s.loadBlock p u base n = .ok vs ∧ vs.length = n ∧
      ∀ j < n, s.word (wordAddress (blockStart p u base n) + BitVec.ofNat 32 (4 * j)) = vs[j]? := by
  obtain ⟨ha, hf, hp, hw⟩ := h
  obtain ⟨vs, hvs, hlen, hwords⟩ := State.readWords_ok hp (hw rfl)
  refine ⟨vs, (State.loadBlock_eq ha hf).trans hvs, hlen, fun j hj => ?_⟩
  obtain ⟨v, hv, hword⟩ := hwords j hj
  rw [hword, hv]

/-! ### Stores -/

theorem State.storeBlock_misaligned (h : ¬s.WordAlignOk base) :
    s.storeBlock p u base ws = .error (.exc .dataAbort) := by
  simp [State.storeBlock, State.checkWordAligned_abort h]

theorem State.storeBlock_wrap (ha : s.WordAlignOk base)
    (hf : ¬FitsBelowTop (wordAddress (blockStart p u base ws.length)) ws.length) :
    s.storeBlock p u base ws = .error (.fault .transferWrap) := by
  simp [State.storeBlock, State.checkWordAligned_ok ha, checkTransfer_fault hf]

theorem State.storeBlock_eq (ha : s.WordAlignOk base)
    (hf : FitsBelowTop (wordAddress (blockStart p u base ws.length)) ws.length) :
    s.storeBlock p u base ws = s.writeWords s.privileged ws (wordAddress (blockStart p u base ws.length)) := by
  simp [State.storeBlock, State.checkWordAligned_ok ha, checkTransfer_ok hf]

/-- A block that nothing stands in the way of is written whole. -/
theorem State.storeBlock_ok
    (h : s.BlockOk base (wordAddress (blockStart p u base ws.length)) ws.length .write) :
    s.storeBlock p u base ws = .ok (s.setWords ws (wordAddress (blockStart p u base ws.length))) := by
  obtain ⟨ha, hf, hp, -⟩ := h
  exact (State.storeBlock_eq ha hf).trans (State.writeWords_ok hp)

/-! ### Instructions that are a block transfer and what follows it -/

variable {i : Instr}

/-- Where a multiple load stops. -/
theorem BlockStops.of_load {k : List Word → Except Trap State}
    (hi : exec i s = s.finish (s.loadBlock p u base n >>= k)) :
    BlockStops i s base (wordAddress (blockStart p u base n)) n .read := by
  refine ⟨fun ha => .of_rule hi ?_, fun ha hf => exec_fault_of_rule hi ?_, fun ha hf hp => .of_rule hi ?_,
    fun _ ha hf hp hw => exec_fault_of_rule hi ?_⟩
  · rw [State.loadBlock_misaligned ha, bind_error]
  · rw [State.loadBlock_wrap ha hf, bind_error]
  · rw [State.loadBlock_eq ha hf, State.readWords_abort hp, bind_error]
  · rw [State.loadBlock_eq ha hf, State.readWords_unwritten hp hw, bind_error]

/-- Where a multiple store stops. -/
theorem BlockStops.of_store {k : State → Except Trap State} (hn : ws.length = n)
    (hi : exec i s = s.finish (s.storeBlock p u base ws >>= k)) :
    BlockStops i s base (wordAddress (blockStart p u base n)) n .write := by
  subst hn
  refine ⟨fun ha => .of_rule hi ?_, fun ha hf => exec_fault_of_rule hi ?_, fun ha hf hp => .of_rule hi ?_,
    fun hk => nomatch hk⟩
  · rw [State.storeBlock_misaligned ha, bind_error]
  · rw [State.storeBlock_wrap ha hf, bind_error]
  · rw [State.storeBlock_eq ha hf, State.writeWords_abort hp, bind_error]

/-- What a multiple store leaves that then writes the base, or no register. -/
theorem Completes.of_storeBlock {a : Address} {rn : Reg} (hn : ws.length = n)
    (hi : exec i s = s.finish (s.storeBlock p u base ws >>= fun t => (t.writeBack a rn).advance))
    (h : s.BlockOk base (wordAddress (blockStart p u base n)) n .write) (hb : a.writeback = true → rn ≠ 15#4)
    (hg : s.CanGoOn) :
    Completes i s fun t => t.WordsAt (wordAddress (blockStart p u base n)) ws ∧
      (a.writeback = true → t.reg rn = a.target) ∧
      s.GoesOnStoring t (a.written rn) (wordAddress (blockStart p u base n)) (4 * n) := by
  subst hn
  rw [State.storeBlock_ok h, bind_ok] at hi
  obtain ⟨-, hfits, -⟩ := h
  refine (Completes.of_store hi (State.setWords_frame ..) (s.memKept_setWords hfits) hb hg).mono
    fun t ⟨hmem, hcfg, hrest⟩ => ⟨fun j v hv => ?_, hrest⟩
  rw [State.word_congr hmem hcfg]
  exact s.wordsAt_setWords _ _ hfits j v hv

end

end Sys2Proof.Machine
end

section
/-! ## LDM (40_arm_memory_access.md R249, R250, R253, R255) -/

namespace Sys2Proof.Machine

/-! ### The register list (R249) -/

theorem ruleFaults_checkBlock_bind {α : Type} {rn : Reg} {list : List Reg} {r : Except Trap α} :
    RuleFaults (checkBlock rn list >>= fun _ => r) ↔ list = [] ∨ rn = 15#4 ∨ RuleFaults r := by
  simp only [checkBlock, bind_assoc, ruleFaults_forbid_bind, isPc, List.isEmpty_iff, beq_iff_eq]

theorem checkBlock_ok {rn : Reg} {list : List Reg} (hl : list ≠ []) (hn : rn ≠ 15#4) :
    checkBlock rn list = .ok () := by
  simp [checkBlock, isPc_false hn, List.isEmpty_eq_false_iff.mpr hl]

/-- With `!` the base is not in the list (R255). -/
theorem baseInList_iff {w : Bool} {rn : Reg} {list : List Reg} :
    (w && list.contains rn) = true ↔ w = true ∧ rn ∈ list := by
  rw [Bool.and_eq_true, List.contains_iff_mem]

theorem baseInList_false {w : Bool} {rn : Reg} {list : List Reg} (h : w = true → rn ∉ list) :
    (w && list.contains rn) = false :=
  Bool.eq_false_iff.mpr fun hb => h (baseInList_iff.mp hb).1 (baseInList_iff.mp hb).2

/-! ### The state after the words are in the registers -/

/-- The state of a multiple load before the pc is written: the base with `!`, then the registers of the list. -/
def State.blockLoaded (s : State) (w : Bool) (rn : Reg) (v : Word) (list : List Reg) (words : List Word) : State :=
  (s.writeBase w rn v).setRegs list words

section
variable {s t : State} {w : Bool} {rn : Reg} {v a : Word} {list : List Reg} {words : List Word} {n : Nat}

theorem State.blockLoaded_only (s : State) (w : Bool) (rn : Reg) (v : Word) (list : List Reg) (words : List Word) :
    s.blockLoaded w rn v list words = { s with gpr := (s.blockLoaded w rn v list words).gpr } := by
  unfold State.blockLoaded
  rw [State.setRegs_only, State.writeBase_only]

/-- The registers of a list take the words of the block, in whatever state they are written. -/
theorem State.loadedFrom_setRegs (hnd : list.Nodup) (hn : list.length ≤ n)
    (hw : ∀ j < n, s.word (a + BitVec.ofNat 32 (4 * j)) = words[j]?) (hlen : words.length = n) :
    s.LoadedFrom (t.setRegs list words) a list := by
  intro j r hr h15
  have hj : j < n := Nat.lt_of_lt_of_le (List.getElem?_eq_some_iff.mp hr).1 hn
  have hword : words[j]? = some words[j] := List.getElem?_eq_getElem (hlen ▸ hj)
  rw [hw j hj, State.reg_setRegs t list words hnd j r _ hr hword h15, hword]

theorem State.reg_blockLoaded_base (hn : rn ≠ 15#4) (hw : w = true) (hl : rn ∉ list) :
    (s.blockLoaded w rn v list words).reg rn = v := by
  rw [State.blockLoaded, State.reg_setRegs_notMem _ _ _ _ hl, State.writeBase, if_pos hw,
    State.reg_setReg_self _ _ _ hn]

/-- Nothing but the base with `!` and the registers of the list is written, r15 left out. -/
theorem State.regsKept_blockLoaded {written : List Reg} (h : ∀ r ∈ list, r ≠ 15#4 → r ∈ written) :
    s.RegsKept (s.blockLoaded w rn v list words) (if w then rn :: written else written) := by
  have hm : (s.writeBase w rn v).cpsr.m = s.cpsr.m := by simp
  refine State.regsKept_setRegs ?_ hm list words fun r hr h15 => ?_
  · cases w
    · exact State.RegsKept.refl s _
    · exact (State.RegsKept.refl s _).setReg rfl List.mem_cons_self v
  · cases w
    · exact h r hr h15
    · exact List.mem_cons_of_mem _ (h r hr h15)

/-- A register other than r15 is read off the general registers and the mode. -/
theorem State.reg_congr_of_ne {r : Reg} (hg : t.gpr = s.gpr) (hm : t.cpsr.m = s.cpsr.m) (h : r ≠ 15#4) :
    t.reg r = s.reg r := by
  rw [State.reg, if_neg h, State.reg, if_neg h, hm, State.bankReg_congr hg]

theorem State.LoadedFrom.congr {t' : State} (h : s.LoadedFrom t a list) (hg : t'.gpr = t.gpr)
    (hm : t'.cpsr.m = t.cpsr.m) : s.LoadedFrom t' a list := fun j r hr h15 => by
  rw [State.reg_congr_of_ne hg hm h15]
  exact h j r hr h15

/-- What a multiple load leaves in the registers, however the pc and T are written after it. -/
theorem State.blockLoaded_leaves {written : List Reg} (hn : rn ≠ 15#4) (hl : w = true → rn ∉ list)
    (hnd : list.Nodup) (hlist : list.length ≤ n)
    (hw : ∀ j < n, s.word (a + BitVec.ofNat 32 (4 * j)) = words[j]?) (hlen : words.length = n)
    (hwritten : ∀ r ∈ list, r ≠ 15#4 → r ∈ written) (hg : t.gpr = (s.blockLoaded w rn v list words).gpr)
    (hm : t.cpsr.m = s.cpsr.m) :
    s.LoadedFrom t a list ∧ (w = true → t.reg rn = v) ∧ s.RegsKept t (if w then rn :: written else written) := by
  have hm' : t.cpsr.m = (s.blockLoaded w rn v list words).cpsr.m := by rw [hm, State.blockLoaded_only]
  refine ⟨(State.loadedFrom_setRegs hnd hlist hw hlen).congr hg hm', fun hwb => ?_,
    (State.regsKept_blockLoaded hwritten).congr hg⟩
  rw [State.reg_congr_of_ne hg hm' hn, State.reg_blockLoaded_base hn hwb (hl hwb)]

theorem getLastD_of_getElem? {d : Word} (hlen : words.length = n) (h : words[n - 1]? = some v) :
    words.getLastD d = v := by
  rw [List.getLastD_eq_getLast?, List.getLast?_eq_getElem?, hlen, h, Option.getD_some]

end

/-! ### LDM without `^` -/

/-- LDM after its words are read: a list with r15 ends as a load of r15 does (R250). -/
def State.ldmEnd (s : State) (u w : Bool) (rn : Reg) (regs : BitVec 16) (words : List Word) : Except Trap State :=
  let t := s.blockLoaded w rn (blockEnd u (s.reg rn) (regList regs).length) (regList regs) words
  if regs.getLsbD 15 then t.loadPc (words.getLastD 0#32) else t.advance

section
variable {cond : Cond} {p u w : Bool} {rn : Reg} {s : State}

theorem exec_ldm_eq {regs : BitVec 16} : exec (.ldm cond p u w rn regs) s = s.ifPassed cond fun s =>
    checkBlock rn (regList regs) >>= fun _ => forbid (w && (regList regs).contains rn) .baseInList >>= fun _ =>
      s.loadBlock p u (s.reg rn) (regList regs).length >>= s.ldmEnd u w rn regs := rfl

theorem exec_ldm_of_allowed {regs : BitVec 16} (hc : s.cpsr.passed cond = true) (hl : regList regs ≠ [])
    (hn : rn ≠ 15#4) (hw : w = true → rn ∉ regList regs) : exec (.ldm cond p u w rn regs) s =
      s.finish (s.loadBlock p u (s.reg rn) (regList regs).length >>= s.ldmEnd u w rn regs) := by
  rw [exec_ldm_eq, State.ifPassed_true hc, bind_of_ok (checkBlock_ok hl hn),
    bind_of_ok (forbid_of_not (baseInList_false hw) _)]

end

/-- Settles O34: the words of the block go to distinct registers, none of them the base with `!`. -/
theorem loadMultiple : Obligations.LoadMultiple := by
  intro cond p u w rn regs s hc i list n base a
  refine ⟨fun h => .of_rule exec_ldm_eq hc ?_, fun hl hn hw => ?_⟩
  · rw [ruleFaults_checkBlock_bind, ruleFaults_forbid_bind, baseInList_iff]
    exact h.imp_right (Or.imp_right .inl)
  have hldm := exec_ldm_of_allowed (p := p) (u := u) hc hl hn hw
  refine ⟨.of_load hldm, fun hok h15 hg => ?_⟩
  obtain ⟨words, hwords, hlen, hvals⟩ := State.loadBlock_ok hok
  rw [hwords, bind_ok] at hldm
  have hend : s.ldmEnd u w rn regs words =
      .ok ((s.blockLoaded w rn (blockEnd u base n) list words).setPc s.next) := by
    rw [State.ldmEnd, h15]
    exact State.advance_of (by rw [State.blockLoaded_only]) (by rw [State.blockLoaded_only]) hg
  obtain ⟨hloaded, hbase, hkept⟩ := State.blockLoaded_leaves (t := (s.blockLoaded w rn (blockEnd u base n) list
    words).setPc s.next) hn hw (regList_nodup (Nat.le_refl 16) regs) (Nat.le_refl n) hvals hlen (fun _ hr _ => hr) rfl
    (by simp [State.blockLoaded])
  refine .of_rule hldm hend ⟨hloaded, hbase, ?flags, rfl, hkept, .of_mem ?mem, ?special⟩
  case flags | mem | special => rw [State.blockLoaded_only]; rfl

/-! ### The exception return (R253, R614) -/

section
variable {s t : State} (ht : t = { s with gpr := t.gpr })
include ht

/-- After registers were written: the SPSR and the mode are those of the state before. -/
theorem State.exceptionReturn_ok (hs : s.hasSpsr = true) (hm : modeLegal s.cfg.arch s.spsr.m = true)
    (hT : s.spsr.t = true → s.cfg.arch.thumb = true) (v : Word) : t.exceptionReturn v =
      .ok ((t.setCpsr s.spsr).setPc (v &&& (if s.spsr.t then 0xFFFFFFFE#32 else 0xFFFFFFFC#32))) := by
  have hspsr : t.spsr = s.spsr := by rw [ht]; rfl
  have hhas : t.hasSpsr = true := by rw [ht]; exact hs
  have hcfg : t.cfg = s.cfg := by rw [ht]
  have hthumb : (s.spsr.t && !s.cfg.arch.thumb) = false := by
    cases h : s.spsr.t with
    | false => rfl
    | true => simp [hT h]
  simp only [State.exceptionReturn, hspsr, hhas, hcfg, hm, hthumb, Bool.not_true, forbid_false, bind_ok, pure_eq_ok]
  split <;> rfl

theorem State.ruleFaults_exceptionReturn
    (h : modeLegal s.cfg.arch s.spsr.m = false ∨ (s.spsr.t = true ∧ s.cfg.arch.thumb = false)) (v : Word) :
    RuleFaults (t.exceptionReturn v) := by
  have hspsr : t.spsr = s.spsr := by rw [ht]; rfl
  have hcfg : t.cfg = s.cfg := by rw [ht]
  simp only [State.exceptionReturn, ruleFaults_forbid_bind, hspsr, hcfg, Bool.and_eq_true, Bool.not_eq_true']
  exact .inr (h.imp_right .inl)

end

/-- LDM with `^` and r15 after its words are read. -/
def State.ldmReturnEnd (s : State) (u w : Bool) (rn : Reg) (regs : BitVec 15) (words : List Word) :
    Except Trap State :=
  (s.blockLoaded w rn (blockEnd u (s.reg rn) ((regList regs).length + 1)) (regList regs) words).exceptionReturn
    (words.getLastD 0#32)

theorem exec_ldmReturn_eq {cond : Cond} {p u w : Bool} {rn : Reg} {regs : BitVec 15} {s : State} :
    exec (.ldmReturn cond p u w rn regs) s = s.ifPassed cond fun s =>
      forbid (isPc rn) .forbiddenPc >>= fun _ => forbid (!s.hasSpsr) .noSpsr >>= fun _ =>
        forbid (w && (regList regs).contains rn) .baseInList >>= fun _ =>
          s.loadBlock p u (s.reg rn) ((regList regs).length + 1) >>= s.ldmReturnEnd u w rn regs := rfl

theorem exec_ldmReturn_of_allowed {cond : Cond} {p u w : Bool} {rn : Reg} {regs : BitVec 15} {s : State}
    (hc : s.cpsr.passed cond = true) (hn : rn ≠ 15#4) (hs : s.hasSpsr = true) (hw : w = true → rn ∉ regList regs) :
    exec (.ldmReturn cond p u w rn regs) s =
      s.finish (s.loadBlock p u (s.reg rn) ((regList regs).length + 1) >>= s.ldmReturnEnd u w rn regs) := by
  rw [exec_ldmReturn_eq, State.ifPassed_true hc, bind_of_ok (forbid_of_not (isPc_false hn) _),
    bind_of_ok (forbid_of_not (by rw [hs]; rfl) _), bind_of_ok (forbid_of_not (baseInList_false hw) _)]

/-- Settles O35: the state after the registers are loaded is in the mode before, and `loadPc` or
`exceptionReturn` reads only that state's parameters and status registers. -/
theorem loadMultipleOfPc : Obligations.LoadMultipleOfPc := by
  refine ⟨?branch, ?back⟩
  case branch =>
    intro cond p u w rn regs s hc i list n base a written h15 hn hw hok v hv
    have hpc : 15#4 ∈ list := (mem_regList (Nat.le_refl 16)).mpr h15
    have hpos : 0 < n := List.length_pos_of_mem hpc
    obtain ⟨words, hwords, hlen, hvals⟩ := State.loadBlock_ok hok
    have hlast : words.getLastD 0#32 = v := getLastD_of_getElem? hlen ((hvals (n - 1) (by omega)).symm.trans hv)
    have hldm := exec_ldm_of_allowed (p := p) (u := u) hc (List.ne_nil_of_mem hpc) hn hw
    rw [hwords, bind_ok, State.ldmEnd, h15, if_pos rfl, hlast] at hldm
    set loaded := s.blockLoaded w rn (blockEnd u base n) list words
    have honly : loaded = { s with gpr := loaded.gpr } := State.blockLoaded_only ..
    have hcfg : loaded.cfg = s.cfg := by rw [honly]
    have hcpsr : loaded.cpsr = s.cpsr := by rw [honly]
    refine ⟨fun h => ⟨_, exec_fault_of_rule hldm (State.loadPc_none hcfg hcpsr h)⟩, fun thumb target h => ?_⟩
    obtain ⟨hvals', hbase, hkept⟩ := State.blockLoaded_leaves (t := (loaded.setThumb thumb).setPc target) hn hw
      (regList_nodup (Nat.le_refl 16) regs) (Nat.le_refl n) hvals hlen
      (fun r hr hne => List.mem_filter.mpr ⟨hr, decide_eq_true hne⟩) rfl (by rw [honly]; rfl)
    refine .of_rule hldm (State.loadPc_some hcfg hcpsr h) ⟨rfl, ?_, hvals', hbase, hkept, ?_⟩
    · rw [← hcpsr]; rfl
    · rw [honly]; rfl
  case back =>
    intro cond p u w rn regs s hc i list n base bank a
    refine ⟨fun h => .of_rule exec_ldmReturn_eq hc ?_,
      fun hn hs hw => .of_load (exec_ldmReturn_of_allowed hc hn hs hw), fun hn hs hw hok v hv => ?_⟩
    · simp only [ruleFaults_forbid_bind, baseInList_iff, isPc, beq_iff_eq, Bool.not_eq_true']
      exact h.imp_right (Or.imp_right .inl)
    obtain ⟨words, hwords, hlen, hvals⟩ := State.loadBlock_ok hok
    have hlast : words.getLastD 0#32 = v := getLastD_of_getElem? hlen ((hvals n (Nat.lt_succ_self n)).symm.trans hv)
    have hldm := exec_ldmReturn_of_allowed (p := p) (u := u) hc hn hs hw
    rw [hwords, bind_ok, State.ldmReturnEnd, hlast] at hldm
    set loaded := s.blockLoaded w rn (blockEnd u base (n + 1)) list words
    have honly : loaded = { s with gpr := loaded.gpr } := State.blockLoaded_only ..
    refine ⟨fun h => .of_finish hldm (State.ruleFaults_exceptionReturn honly h v), fun hm hT => ?_⟩
    obtain ⟨hvals', hbase, hkept⟩ := State.blockLoaded_leaves (t := loaded) hn hw (regList_nodup (by decide) regs)
      (Nat.le_succ n) hvals hlen (fun _ hr _ => hr) rfl (by rw [honly])
    -- The registers of the mode left are those that `loaded`, still in that mode, shows.
    have hbank {r : Reg} (hr : r ≠ 15#4) : loaded.reg r = loaded.bankReg bank r := by
      rw [State.reg, if_neg hr, honly]
    refine .of_rule hldm (State.exceptionReturn_ok honly hs hm hT v) ⟨rfl, rfl, fun j r hr => ?_, fun hwb => ?_,
      hkept.congr rfl, ?_⟩
    · have hne : r ≠ 15#4 := fun h15 => pc_notMem_regList regs (h15 ▸ List.mem_of_getElem? hr)
      exact (hvals' j r hr hne).trans (congrArg some (hbank hne))
    · exact (hbank hn).symm.trans (hbase hwb)
    · rw [honly]; rfl

end Sys2Proof.Machine
end

section
/-! ## STM (40_arm_memory_access.md R249, R251, R255) -/

namespace Sys2Proof.Machine

section
variable {cond : Cond} {p u w : Bool} {rn : Reg} {regs : BitVec 16} {s : State}

theorem exec_stm_eq : exec (.stm cond p u w rn regs) s = s.ifPassed cond fun s =>
    checkBlock rn (regList regs) >>= fun _ =>
      forbid (w && (regList regs).contains rn && (regList regs).head? != some rn) .baseInList >>= fun _ =>
        s.storeBlock p u (s.reg rn) ((regList regs).map s.regStored) >>= fun t =>
          (t.writeBase w rn (blockEnd u (s.reg rn) (regList regs).length)).advance := rfl

/-- With `!`, a base in the list that is not its lowest register (R255). -/
theorem baseNotFirst_iff {list : List Reg} : (w && list.contains rn && list.head? != some rn) = true ↔
    w = true ∧ rn ∈ list ∧ list.head? ≠ some rn := by
  rw [Bool.and_eq_true, baseInList_iff, bne_iff_ne, and_assoc]

theorem exec_stm_of_allowed (hc : s.cpsr.passed cond = true) (hl : regList regs ≠ []) (hn : rn ≠ 15#4)
    (hw : w = true → rn ∈ regList regs → (regList regs).head? = some rn) : exec (.stm cond p u w rn regs) s =
      s.finish (s.storeBlock p u (s.reg rn) ((regList regs).map s.regStored) >>= fun t =>
        (t.writeBase w rn (blockEnd u (s.reg rn) (regList regs).length)).advance) := by
  have hbase : (w && (regList regs).contains rn && (regList regs).head? != some rn) = false :=
    Bool.eq_false_iff.mpr fun hb => by
      obtain ⟨hwb, hmem, hhead⟩ := baseNotFirst_iff.mp hb
      exact hhead (hw hwb hmem)
  rw [exec_stm_eq, State.ifPassed_true hc, bind_of_ok (checkBlock_ok hl hn), bind_of_ok (forbid_of_not hbase _)]

end

/-- Settles O36: the block is written whole, then the base as an address form with writeback. -/
theorem storeMultiple : Obligations.StoreMultiple := by
  intro cond p u w rn regs s hc i list n base a
  refine ⟨fun h => .of_rule exec_stm_eq hc ?_, fun hl hn hw => ?_⟩
  · rw [ruleFaults_checkBlock_bind, ruleFaults_forbid_bind, baseNotFirst_iff]
    exact h.imp_right (Or.imp_right .inl)
  have hstm := exec_stm_of_allowed (p := p) (u := u) hc hl hn hw
  exact ⟨.of_store (List.length_map _) hstm, fun hok hg => .of_storeBlock (List.length_map _)
    (a := { addr := a, target := blockEnd u base n, writeback := w }) hstm hok (fun _ => hn) hg⟩

end Sys2Proof.Machine
end

section
/-! ## LDM and STM of the User-mode registers (40_arm_memory_access.md R252, R254; 10_state.md R22) -/

namespace Sys2Proof.Machine

/-! ### The User-mode registers as the registers of User mode -/

/-- The state as User mode would see it. -/
def State.asUser (s : State) : State := { s with cpsr := { s.cpsr with m := modeUser } }

theorem State.reg_asUser {s : State} {r : Reg} (h : r ≠ 15#4) : s.asUser.reg r = s.userReg r := if_neg h

theorem State.asUser_setUserReg (s : State) (r : Reg) (v : Word) :
    (s.setUserReg r v).asUser = s.asUser.setReg r v := by
  unfold State.setUserReg State.setReg
  split <;> rfl

/-- A write of User-mode registers is a write of registers in User mode. -/
theorem State.asUser_setUserRegs (s : State) (rs : List Reg) (vs : List Word) :
    (s.setUserRegs rs vs).asUser = s.asUser.setRegs rs vs := by
  induction rs generalizing s vs with
  | nil => rfl
  | cons r rs ih =>
    cases vs with
    | nil => rfl
    | cons v vs => rw [State.setUserRegs, ih, State.asUser_setUserReg, State.setRegs]

theorem State.userRegsKept_iff {s t : State} {w : List Reg} : s.UserRegsKept t w ↔ s.asUser.RegsKept t.asUser w :=
  Iff.rfl

/-! ### The two instructions -/

section
variable {cond : Cond} {p u w : Bool} {rn : Reg} {s : State}

theorem exec_ldmUser_eq {regs : BitVec 15} : exec (.ldmUser cond p u w rn regs) s = s.ifPassed cond fun s =>
    checkBlock rn (regList regs) >>= fun _ => forbid (w || !s.hasSpsr) .userBank >>= fun _ =>
      s.loadBlock p u (s.reg rn) (regList regs).length >>= fun words =>
        (s.setUserRegs (regList regs) words).advance := rfl

theorem exec_stmUser_eq {regs : BitVec 16} : exec (.stmUser cond p u w rn regs) s = s.ifPassed cond fun s =>
    checkBlock rn (regList regs) >>= fun _ => forbid (w || !s.hasSpsr) .userBank >>= fun _ =>
      s.storeBlock p u (s.reg rn) ((regList regs).map s.userRegStored) >>= State.advance := rfl

/-- What the User-mode transfers forbid besides an empty list and base r15 (R252, R254). -/
theorem userBank_iff : (w || !s.hasSpsr) = true ↔ w = true ∨ s.hasSpsr = false := by
  rw [Bool.or_eq_true, Bool.not_eq_true']

theorem userBank_false (hw : w = false) (hs : s.hasSpsr = true) : (w || !s.hasSpsr) = false := by
  rw [hw, hs]; rfl

/-- Restrictions that both instructions have (R252, R254). -/
theorem ruleFaults_userTransfer {α : Type} {list : List Reg} {r : Except Trap α}
    (h : list = [] ∨ rn = 15#4 ∨ w = true ∨ s.hasSpsr = false) :
    RuleFaults (checkBlock rn list >>= fun _ => forbid (w || !s.hasSpsr) .userBank >>= fun _ => r) := by
  rw [ruleFaults_checkBlock_bind, ruleFaults_forbid_bind, userBank_iff]
  exact h.imp_right (Or.imp_right .inl)

theorem userTransfer_of_allowed {α : Type} {list : List Reg} (hl : list ≠ []) (hn : rn ≠ 15#4) (hw : w = false)
    (hs : s.hasSpsr = true) (r : Except Trap α) :
    (checkBlock rn list >>= fun _ => forbid (w || !s.hasSpsr) .userBank >>= fun _ => r) = r := by
  rw [bind_of_ok (checkBlock_ok hl hn), bind_of_ok (forbid_of_not (userBank_false hw hs) _)]

theorem exec_ldmUser_of_allowed {regs : BitVec 15} (hc : s.cpsr.passed cond = true) (hl : regList regs ≠ [])
    (hn : rn ≠ 15#4) (hw : w = false) (hs : s.hasSpsr = true) : exec (.ldmUser cond p u w rn regs) s =
      s.finish (s.loadBlock p u (s.reg rn) (regList regs).length >>= fun words =>
        (s.setUserRegs (regList regs) words).advance) := by
  rw [exec_ldmUser_eq, State.ifPassed_true hc, userTransfer_of_allowed hl hn hw hs]

theorem exec_stmUser_of_allowed {regs : BitVec 16} (hc : s.cpsr.passed cond = true) (hl : regList regs ≠ [])
    (hn : rn ≠ 15#4) (hw : w = false) (hs : s.hasSpsr = true) : exec (.stmUser cond p u w rn regs) s =
      s.finish (s.storeBlock p u (s.reg rn) ((regList regs).map s.userRegStored) >>= State.advance) := by
  rw [exec_stmUser_eq, State.ifPassed_true hc, userTransfer_of_allowed hl hn hw hs]

end

/-- What STM with `^` stores, as the statement writes it (R254). -/
theorem State.userRegStored_eq (s : State) :
    s.userRegStored = fun r => if r = 15#4 then s.regStored r else s.userReg r := by
  funext r
  unfold State.userRegStored State.regStored
  split <;> rfl

/-- Settles O37: the User-mode registers are those that the state would show in User mode (`asUser`). -/
theorem userBankTransfers : Obligations.UserBankTransfers := by
  refine ⟨?load, ?store⟩
  case load =>
    intro cond p u w rn regs s hc i list n a
    refine ⟨fun h => .of_rule exec_ldmUser_eq hc (ruleFaults_userTransfer h),
      fun hl hn hw hs => .of_load (exec_ldmUser_of_allowed hc hl hn hw hs), fun hl hn hw hs hok hg => ?_⟩
    obtain ⟨words, hwords, hlen, hvals⟩ := State.loadBlock_ok hok
    have hldm := exec_ldmUser_of_allowed (p := p) (u := u) hc hl hn hw hs
    rw [hwords, bind_ok] at hldm
    have huser := s.asUser_setUserRegs list words
    refine .of_rule hldm (State.advance_of (s := s) (by simp) (by simp) hg) ⟨fun j r hr => ?_, ?_, ?_⟩
    · have hne : r ≠ 15#4 := fun h15 => pc_notMem_regList regs (h15 ▸ List.mem_of_getElem? hr)
      have hloaded := State.loadedFrom_setRegs (t := s.asUser) (regList_nodup (by decide) regs) (Nat.le_refl n) hvals
        hlen j r hr hne
      rwa [← huser, State.reg_asUser hne] at hloaded
    · have hkept := State.regsKept_setRegs (.refl s.asUser list) rfl list words fun _ hr _ => hr
      rw [← huser] at hkept
      exact State.userRegsKept_iff.mpr hkept
    · rw [State.setUserRegs_only]
      rfl
  case store =>
    intro cond p u w rn regs s hc i list n a
    rw [← s.userRegStored_eq]
    refine ⟨fun h => .of_rule exec_stmUser_eq hc (ruleFaults_userTransfer h),
      fun hl hn hw hs => .of_store (List.length_map _) (exec_stmUser_of_allowed hc hl hn hw hs),
      fun hl hn hw hs hok hg => ?_⟩
    have hdone := Completes.of_storeBlock (a := { addr := a, target := a, writeback := false }) (rn := rn)
      (List.length_map _)
      (exec_stmUser_of_allowed hc hl hn hw hs) hok nofun hg
    exact hdone.mono fun t ⟨hvals, _, hgoes⟩ => ⟨hvals, hgoes⟩

end Sys2Proof.Machine
end

section
/-! ## The shifter (41_arm_data_processing.md R263 to R269, 30_encoding.md R104) -/

namespace Sys2Proof.Machine

section
variable {v : Word} {n : Nat}

/-! ### Each shift as arithmetic on its value, by the amounts where it has a plain reading -/

theorem toNat_shiftLsl (v : Word) (n : Nat) : (shiftLsl v n).value.toNat = v.toNat * 2 ^ n % 2 ^ 32 := by
  rw [shiftLsl, BitVec.toNat_shiftLeft, Nat.shiftLeft_eq]

theorem toNat_shiftLsr (v : Word) (n : Nat) : (shiftLsr v n).value.toNat = v.toNat / 2 ^ n := by
  rw [shiftLsr, BitVec.toNat_ushiftRight, Nat.shiftRight_eq_div_pow]

theorem toInt_shiftAsr (v : Word) (n : Nat) : (shiftAsr v n).value.toInt = v.toInt / 2 ^ n := by
  rw [shiftAsr, BitVec.toInt_sshiftRight, Int.shiftRight_eq_div_pow]
  norm_cast

theorem shiftLsl_carry (h : n ≤ 32) : (shiftLsl v n).carry = v.getLsbD (32 - n) := by simp [shiftLsl, h]

theorem shiftAsr_carry (h : n ≤ 32) : (shiftAsr v n).carry = v.getLsbD (n - 1) := if_pos h

/-- The last bit leaves with the amount 32; beyond it nothing is left (R268). -/
theorem shiftLsl_word (v : Word) : shiftLsl v 32 = { value := 0#32, carry := v.getLsbD 0 } := by
  rw [shiftLsl, BitVec.shiftLeft_eq_zero le_rfl]
  rfl

theorem shiftLsl_of_gt (h : 32 < n) : shiftLsl v n = { value := 0#32, carry := false } := by
  rw [shiftLsl, BitVec.shiftLeft_eq_zero h.le, decide_eq_false h.not_ge, Bool.false_and]

theorem shiftLsr_word (v : Word) : shiftLsr v 32 = { value := 0#32, carry := v.getLsbD 31 } := by
  rw [shiftLsr, BitVec.ushiftRight_eq_zero le_rfl]

theorem shiftLsr_of_gt (h : 32 < n) : shiftLsr v n = { value := 0#32, carry := false } := by
  rw [shiftLsr, BitVec.ushiftRight_eq_zero h.le, BitVec.getLsbD_of_ge v _ (by omega)]

/-- From 32 on only copies of the sign are left (R268). -/
theorem shiftAsr_of_ge (h : 32 ≤ n) :
    shiftAsr v n = { value := if v.getLsbD 31 then 0xFFFFFFFF#32 else 0#32, carry := v.getLsbD 31 } := by
  have hmsb : v.msb = v.getLsbD 31 := v.msb_eq_getLsbD_last
  have hvalue : v.sshiftRight n = if v.getLsbD 31 then 0xFFFFFFFF#32 else 0#32 := by
    cases hv : v.getLsbD 31
    · rw [BitVec.sshiftRight_eq_of_msb_false (hmsb.trans hv), BitVec.ushiftRight_eq_zero h]
      rfl
    · rw [BitVec.sshiftRight_eq_of_msb_true (hmsb.trans hv), BitVec.ushiftRight_eq_zero h]
      rfl
  have hcarry : (if n ≤ 32 then v.getLsbD (n - 1) else v.msb) = v.getLsbD 31 := by
    split_ifs with hle
    · rw [Nat.le_antisymm hle h]
    · exact hmsb
  rw [shiftAsr, hvalue, hcarry]

theorem shiftRor_mod (v : Word) (n : Nat) : shiftRor v n = shiftRor v (n % 32) := by
  simp only [shiftRor, Nat.mod_mod]

theorem shiftRor_of_multiple (h : n % 32 = 0) : shiftRor v n = { value := v, carry := v.getLsbD 31 } := by
  rw [shiftRor, if_pos h, v.msb_eq_getLsbD_last]

/-! ### Rotation -/

theorem rotateRight_eq_or (h : n < 32) : v.rotateRight n = v >>> n ||| v <<< (32 - n) := by
  rw [BitVec.rotateRight_def, Nat.mod_eq_of_lt h]

/-- The last bit rotated out is the top bit of the result (R266). -/
theorem msb_rotation (h0 : 0 < n) (h : n < 32) : (v >>> n ||| v <<< (32 - n)).msb = v.getLsbD (n - 1) := by
  have hmod : n % 32 = n := Nat.mod_eq_of_lt h
  rw [← rotateRight_eq_or h, BitVec.msb_eq_getLsbD_last, BitVec.getLsbD_rotateRight, hmod,
    decide_eq_false (by omega), cond_false, show 32 - 1 - (32 - n) = n - 1 by omega]
  rfl

theorem shiftRor_eq (h0 : 0 < n) (h : n < 32) :
    shiftRor v n = { value := v >>> n ||| v <<< (32 - n), carry := v.getLsbD (n - 1) } := by
  have hmod : n % 32 = n := Nat.mod_eq_of_lt h
  rw [shiftRor, hmod, if_neg h0.ne', rotateRight_eq_or h]

theorem rotatedImm_eq (rot : BitVec 4) (imm8 : BitVec 8) :
    rotatedImm rot imm8 =
      imm8.zeroExtend 32 >>> (2 * rot.toNat) ||| imm8.zeroExtend 32 <<< (32 - 2 * rot.toNat) :=
  rotateRight_eq_or (by have := rot.isLt; omega)

theorem rotatedImm_zero (imm8 : BitVec 8) : rotatedImm 0#4 imm8 = imm8.zeroExtend 32 := by
  rw [rotatedImm_eq]
  simp

/-- The carry enters at the top as the rest moves down one place (R267). -/
theorem shiftRrx_value (v : Word) (c : Bool) : (shiftRrx v c).value = bitWord c <<< 31 ||| v >>> 1 := by
  refine BitVec.eq_of_getLsbD_eq fun i hi => ?_
  simp only [shiftRrx, BitVec.getLsbD_append]
  rw [BitVec.getLsbD_or, BitVec.getLsbD_shiftLeft, BitVec.getLsbD_ushiftRight]
  obtain h | rfl := (Nat.le_of_lt_succ hi).lt_or_eq
  · simp [h, Nat.add_comm]
  · cases c <;> simp [bitWord, bit1]

/-! ### The amounts of a shift by a register (R268) -/

theorem shiftBy_zero (t : ShiftType) (v : Word) (c : Bool) : shiftBy t v 0 c = { value := v, carry := c } := rfl

section
variable {c : Bool} (h : 0 < n)
include h

theorem shiftBy_lsl : shiftBy .lsl v n c = shiftLsl v n := if_neg h.ne'
theorem shiftBy_lsr : shiftBy .lsr v n c = shiftLsr v n := if_neg h.ne'
theorem shiftBy_asr : shiftBy .asr v n c = shiftAsr v n := if_neg h.ne'
theorem shiftBy_ror : shiftBy .ror v n c = shiftRor v n := if_neg h.ne'

end

end

/-! ### The two shifted forms of Operand2 as one of these shifts -/

section
variable {s : State} {rs rm : Reg} {t : ShiftType} {n : Nat}

/-- A constant that the five bits of its field hold is the amount itself. -/
theorem State.op2Const_eq (h0 : 0 < n) (h : n < 32) :
    s.op2Const (BitVec.ofNat 5 n) t rm = shiftBy t (s.reg rm) n s.cpsr.c := by
  have hn : (BitVec.ofNat 5 n).toNat = n := Nat.mod_eq_of_lt h
  have hfield : BitVec.ofNat 5 n ≠ 0#5 := fun he => h0.ne' (hn.symm.trans (congrArg BitVec.toNat he))
  rw [State.op2Const, shiftConst.eq_def, if_neg hfield, hn]

/-- LSR and ASR by 32 are encoded as 0 (R264, R265). -/
theorem State.op2Const_lsr (h0 : 0 < n) (h : n ≤ 32) :
    s.op2Const (BitVec.ofNat 5 n) .lsr rm = shiftLsr (s.reg rm) n := by
  obtain h | rfl := h.lt_or_eq
  · rw [State.op2Const_eq h0 h, shiftBy_lsr h0]
  · rfl

theorem State.op2Const_asr (h0 : 0 < n) (h : n ≤ 32) :
    s.op2Const (BitVec.ofNat 5 n) .asr rm = shiftAsr (s.reg rm) n := by
  obtain h | rfl := h.lt_or_eq
  · rw [State.op2Const_eq h0 h, shiftBy_asr h0]
  · rfl

/-- Only the least significant byte of Rs counts (R268). -/
theorem State.op2Reg_eq : s.op2Reg rs t rm = shiftBy t (s.reg rm) ((s.reg rs).toNat % 256) s.cpsr.c := by
  rw [State.op2Reg, BitVec.extractLsb'_toNat, Nat.shiftRight_zero]

end

/-- Settles O14: the field is the amount, or 32 where it is 0 for LSR and ASR; what is left is what each shift does. -/
theorem shiftByConstant : Obligations.ShiftByConstant := by
  intro s rm v
  refine ⟨fun n h => ?lsl, fun n h0 h => ?lsr, fun n h0 h => ?asr, fun n h0 h => ?ror, shiftRrx_value v _, rfl⟩
  case lsl =>
    obtain rfl | h0 := n.eq_zero_or_pos
    · exact ⟨by rw [pow_zero, mul_one, Nat.mod_eq_of_lt v.isLt]; rfl, rfl⟩
    · rw [State.op2Const_eq h0 h, shiftBy_lsl h0, if_neg h0.ne']
      exact ⟨toNat_shiftLsl v n, shiftLsl_carry h.le⟩
  case lsr =>
    rw [State.op2Const_lsr h0 h]
    exact ⟨toNat_shiftLsr v n, rfl⟩
  case asr =>
    rw [State.op2Const_asr h0 h]
    exact ⟨toInt_shiftAsr v n, shiftAsr_carry h⟩
  case ror =>
    have hlt : n < 32 := Nat.lt_succ_of_le h
    rw [State.op2Const_eq h0 hlt, shiftBy_ror h0, shiftRor_eq h0 hlt]
    exact ⟨rfl, rfl, (msb_rotation h0 hlt).symm⟩

/-- Settles O15: the byte of Rs is the amount of the same shifts, now past 31 too. -/
theorem shiftByRegisterAndRotatedConstant : Obligations.ShiftByRegisterAndRotatedConstant := by
  refine ⟨fun s rs rm t => ?register, fun s rot imm8 => ⟨fun hrot => ?unrotated, fun hrot => ?rotated⟩⟩
  case register =>
    rw [State.op2Reg_eq]
    dsimp only
    generalize (s.reg rs).toNat % 256 = n
    refine ⟨fun h => ?none, fun h0 h => (State.op2Const_eq h0 (Nat.lt_succ_of_le h)).symm, fun h => ?word,
      fun h => ?beyond, fun h ht => ?asr⟩
    case none =>
      rw [h, shiftBy_zero]
      exact ⟨rfl, rfl⟩
    case word =>
      refine ⟨fun ht => ?lsl, fun ht => ?lsr, fun ht => ?ror⟩
      case lsl => rw [h, ht, shiftBy_lsl (by decide), shiftLsl_word]; exact ⟨rfl, rfl⟩
      case lsr => rw [h, ht, shiftBy_lsr (by decide), shiftLsr_word]; exact ⟨rfl, rfl⟩
      case ror => rw [h, ht, shiftBy_ror (by decide), shiftRor_of_multiple rfl]; exact ⟨rfl, rfl⟩
    case beyond =>
      have h0 : 0 < n := Nat.zero_lt_of_lt h
      refine ⟨fun ht => ?lsl, fun ht => ?lsr, fun ht hne => ?ror, fun ht hzero => ?whole⟩
      case lsl => rw [ht, shiftBy_lsl h0, shiftLsl_of_gt h]; exact ⟨rfl, rfl⟩
      case lsr => rw [ht, shiftBy_lsr h0, shiftLsr_of_gt h]; exact ⟨rfl, rfl⟩
      case ror =>
        have hpos : 0 < n % 32 := Nat.pos_of_ne_zero hne
        rw [ht, State.op2Const_eq hpos (n.mod_lt (by decide)), shiftBy_ror h0, shiftBy_ror hpos, shiftRor_mod]
      case whole => rw [ht, shiftBy_ror h0, shiftRor_of_multiple hzero]; exact ⟨rfl, rfl⟩
    case asr =>
      rw [ht, shiftBy_asr (Nat.zero_lt_of_lt h), shiftAsr_of_ge h]
      exact ⟨rfl, rfl⟩
  case unrotated =>
    rw [hrot]
    exact ⟨rotatedImm_zero imm8, rfl⟩
  case rotated => exact ⟨rotatedImm_eq rot imm8, if_neg hrot⟩

end Sys2Proof.Machine
end

section
/-! ## The ARM data-processing instructions as one rule for each family (41_arm_data_processing.md R262 to R289) -/

namespace Sys2Proof.Machine

/-! ### The registers of a shift by a register (R262) -/

section
variable {r q rs rm : Reg} {t : ShiftType}

theorem Op2.not_pcFree_byReg (others : List Reg) :
    (!(Op2.byReg rs t rm).pcFree others) = (others.contains 15#4 || isPc rs || isPc rm) := by
  simp only [Op2.pcFree, isPc, bne, Bool.not_and, Bool.not_not]
  rw [Bool.or_comm, Bool.or_assoc]

theorem Op2.not_pcFree_byReg_one :
    (!(Op2.byReg rs t rm).pcFree [r]) = (isPc r || isPc rs || isPc rm) := by
  rw [Op2.not_pcFree_byReg]
  simp [isPc, beq_eq_decide, eq_comm]

theorem Op2.not_pcFree_byReg_two :
    (!(Op2.byReg rs t rm).pcFree [r, q]) = (isPc r || isPc q || isPc rs || isPc rm) := by
  rw [Op2.not_pcFree_byReg]
  simp [isPc, beq_eq_decide, eq_comm]

end

/-! ### The results and flags of the statements, as the model computes them -/

/-- The addition by which the model performs an operation (R11, R274 to R279). -/
def ArithOp.alu (op : ArithOp) (a b : Word) (c : Bool) : AddResult :=
  match op with
  | .add => aluAdd a b
  | .sub => aluSub a b
  | .rsb => aluRsb a b
  | .adc => aluAdc a b c
  | .sbc => aluSbc a b c
  | .rsc => aluRsc a b c

theorem ArithOp.alu_value (op : ArithOp) (a b : Word) (c : Bool) : (op.alu a b c).value = op.value a b c := by
  cases op with
  | add => exact (addWithCarry_value a b false).trans (BitVec.add_zero _)
  | sub => exact (addWithCarry_not_value a b true).trans (BitVec.sub_zero _)
  | rsb => exact (addWithCarry_not_value b a true).trans (BitVec.sub_zero _)
  | adc => exact addWithCarry_value a b c
  | sbc => exact addWithCarry_not_value a b c
  | rsc => exact addWithCarry_not_value b a c

theorem ArithOp.alu_nzcv (op : ArithOp) (a b : Word) (c : Bool) : (op.alu a b c).nzcv = op.flags a b c := by
  cases op with
  | add => exact addWithCarry_nzcv a b false
  | sub => exact addWithCarry_not_nzcv a b true
  | rsb => exact addWithCarry_not_nzcv b a true
  | adc => exact addWithCarry_nzcv a b c
  | sbc => exact addWithCarry_not_nzcv a b c
  | rsc => exact addWithCarry_not_nzcv b a c

theorem logicalNzcv_eq (p : Psr) (r : Word) (c : Bool) : logicalNzcv p r c = resultFlags r c p.v := by
  rw [logicalNzcv, resultFlags, beq_eq_decide]

/-- What a comparison or test does once Operand2 is known (R286 to R289). -/
def CompareOp.rule (op : CompareOp) (s : State) (a : Word) (b : Shifted) : Except Trap State :=
  match op with
  | .cmp => s.compareSum (aluSub a b.value)
  | .cmn => s.compareSum (aluAdd a b.value)
  | .tst => s.testLogical (a &&& b.value) b.carry
  | .teq => s.testLogical (a ^^^ b.value) b.carry

theorem CompareOp.rule_eq (op : CompareOp) (s : State) (a : Word) (b : Shifted) :
    op.rule s a b = (s.setNzcv (op.flags a b s.cpsr.v)).advance := by
  cases op with
  | cmp => exact congrArg (fun f => (s.setNzcv f).advance) (addWithCarry_not_nzcv a b.value true)
  | cmn => exact congrArg (fun f => (s.setNzcv f).advance) (addWithCarry_nzcv a b.value false)
  | tst | teq => exact congrArg (fun f => (s.setNzcv f).advance) (logicalNzcv_eq s.cpsr _ b.carry)

/-! ### The rule of each family: the check of r15, Operand2, the result -/

theorem ArithOp.exec_eq (op : ArithOp) (o : Op2) (cond : Cond) (b : Bool) (rn rd : Reg) (s : State) :
    exec (op.instr o cond b rn rd) s = s.ifPassed cond fun s => forbid (!o.pcFree [rn, rd]) .forbiddenPc >>= fun _ =>
      s.writeSum b rd (op.alu (s.reg rn) (o.eval s).value s.cpsr.c) := by
  cases o with
  | imm | const => cases op <;> rfl
  | byReg =>
    rw [Op2.not_pcFree_byReg_two]
    cases op <;> rfl

theorem LogicOp.exec_eq (op : LogicOp) (o : Op2) (cond : Cond) (b : Bool) (rn rd : Reg) (s : State) :
    exec (op.instr o cond b rn rd) s = s.ifPassed cond fun s =>
      forbid (!o.pcFree (op.others rn rd)) .forbiddenPc >>= fun _ =>
      s.writeLogical b rd (op.value (s.reg rn) (o.eval s).value) (o.eval s).carry := by
  cases o with
  | imm | const => cases op <;> rfl
  | byReg =>
    cases op with
    | and_ | eor | orr | bic =>
      rw [LogicOp.others, Op2.not_pcFree_byReg_two]
      rfl
    | mov | mvn =>
      rw [LogicOp.others, Op2.not_pcFree_byReg_one]
      rfl

theorem CompareOp.exec_eq (op : CompareOp) (o : Op2) (cond : Cond) (rn : Reg) (s : State) :
    exec (op.instr o cond rn) s = s.ifPassed cond fun s => forbid (!o.pcFree [rn]) .forbiddenPc >>= fun _ =>
      op.rule s (s.reg rn) (o.eval s) := by
  cases o with
  | imm | const => cases op <;> rfl
  | byReg =>
    rw [Op2.not_pcFree_byReg_one]
    cases op <;> rfl

section
variable {o : Op2} {cond : Cond} {b : Bool} {rn rd : Reg} {s : State} (hc : s.cpsr.passed cond = true)
include hc

/-- Where no register is forbidden, the rule is the write of the result. -/
theorem ArithOp.exec_of_pcFree (op : ArithOp) (h : o.pcFree [rn, rd] = true) :
    exec (op.instr o cond b rn rd) s = s.finish (s.writeResult b rd (op.value (s.reg rn) (o.eval s).value s.cpsr.c)
      (op.flags (s.reg rn) (o.eval s).value s.cpsr.c)) := by
  rw [op.exec_eq, State.ifPassed_true hc, h, ← op.alu_value, ← op.alu_nzcv]
  rfl

theorem LogicOp.exec_of_pcFree (op : LogicOp) (h : o.pcFree (op.others rn rd) = true) :
    exec (op.instr o cond b rn rd) s = s.finish (s.writeResult b rd (op.value (s.reg rn) (o.eval s).value)
      (resultFlags (op.value (s.reg rn) (o.eval s).value) (o.eval s).carry s.cpsr.v)) := by
  rw [op.exec_eq, State.ifPassed_true hc, h, ← logicalNzcv_eq]
  rfl

theorem CompareOp.exec_of_pcFree (op : CompareOp) (h : o.pcFree [rn] = true) :
    exec (op.instr o cond rn) s =
      s.finish (s.setNzcv (op.flags (s.reg rn) (o.eval s) s.cpsr.v)).advance := by
  rw [op.exec_eq, State.ifPassed_true hc, h, ← op.rule_eq]
  rfl

/-- The check of R262 comes first, whatever follows it. -/
theorem Faults.of_not_pcFree {i : Instr} {others : List Reg} {rule : State → Except Trap State}
    (hi : exec i s = s.ifPassed cond fun s => forbid (!o.pcFree others) .forbiddenPc >>= fun _ => rule s)
    (h : o.pcFree others = false) : Faults i s :=
  .of_rule hi hc (ruleFaults_forbid_bind.mpr (.inl (by rw [h, Bool.not_false])))

end

end Sys2Proof.Machine
end

section
/-! ## What the data-processing instructions leave (41_arm_data_processing.md R270 to R289, 10_state.md R28, R29) -/

namespace Sys2Proof.Machine

/-! ### The ends of the rules -/

/-- A result in Rd: the next state where the pc can move on, a fault where it cannot (R273, R29). -/
theorem writesReg_or_pcWrap {i : Instr} {s : State} {b : Bool} {rd : Reg} {v : Word} {f : Nzcv}
    (hi : exec i s = s.finish (s.writeResult b rd v f)) (hd : rd ≠ 15#4) :
    (s.CanGoOn → WritesReg i s rd v (if b then f else s.cpsr.nzcv)) ∧ (¬s.CanGoOn → exec i s = .fault .pcWrap) :=
  ⟨fun hg => writesReg_of b hd (by rw [hi, State.writeResult_ok hd hg, State.finish_ok]),
    fun hg => exec_fault_of_rule hi (State.writeResult_fault hd hg b v f)⟩

/-- Flags alone, in the same two cases. -/
theorem writesFlags_or_pcWrap {i : Instr} {s : State} {f : Nzcv} (hi : exec i s = s.finish (s.setNzcv f).advance) :
    (s.CanGoOn → WritesFlags i s f) ∧ (¬s.CanGoOn → exec i s = .fault .pcWrap) :=
  ⟨fun hg => writesFlags_of (by rw [hi, State.advance_of (s := s) (t := s.setNzcv f) rfl rfl hg, State.finish_ok]),
    fun hg => exec_fault_of_rule hi (State.advance_of_fault (s := s) rfl rfl hg)⟩

/-- A result in r15: without S the write of the pc, with S the exception return (R272). -/
theorem writesPc_or_returns {i : Bool → Instr} {s : State} {v : Word} {f : Nzcv}
    (hi : ∀ b, exec (i b) s = s.finish (s.writeResult b 15#4 v f)) :
    exec (i false) s = s.pcWritten v ∧ ((∃ t, s.returnTo v = .next t) → exec (i true) s = s.returnTo v) ∧
      ((¬∃ t, s.returnTo v = .next t) → Faults (i true) s) := by
  have hpc : exec (i false) s = s.finish (s.writePc v) := hi false
  have hreturn : exec (i true) s = s.finish (s.exceptionReturn v) := hi true
  obtain ⟨hnext, hfault⟩ := s.finish_exceptionReturn s v
  exact ⟨hpc.trans (s.finish_writePc s v), fun h => hreturn.trans (hnext h),
    fun h => (hfault h).imp fun _ hf => hreturn.trans hf⟩

/-! ### The three families -/

/-- Settles O16: every operation is an addition whose value and flags are those of exact arithmetic. -/
theorem arithmeticResult : Obligations.ArithmeticResult := fun op o cond b rn rd s hc =>
  ⟨.of_not_pcFree hc (op.exec_eq o cond b rn rd s), fun h hd => writesReg_or_pcWrap (op.exec_of_pcFree hc h) hd⟩

/-- Settles O17: as O16, the flags now those of the result and the shifter's carry. -/
theorem logicalResult : Obligations.LogicalResult := fun op o cond b rn rd s hc =>
  ⟨.of_not_pcFree hc (op.exec_eq o cond b rn rd s), fun h hd => writesReg_or_pcWrap (op.exec_of_pcFree hc h) hd⟩

/-- Settles O18: every comparison and test ends with the flags and the move of the pc. -/
theorem compareFlags : Obligations.CompareFlags := fun op o cond rn s hc =>
  ⟨.of_not_pcFree hc (op.exec_eq o cond rn s), fun h => writesFlags_or_pcWrap (op.exec_of_pcFree hc h)⟩

/-- Settles O19: both families end in the same write of a result, which for r15 is a branch or an exception return. -/
theorem dataProcessingWritesPc : Obligations.DataProcessingWritesPc :=
  ⟨fun op o cond rn _ hc h => writesPc_or_returns (i := (op.instr o cond · rn 15#4))
      fun _ => op.exec_of_pcFree hc h,
    fun op o cond rn _ hc h => writesPc_or_returns (i := (op.instr o cond · rn 15#4))
      fun _ => op.exec_of_pcFree hc h⟩

end Sys2Proof.Machine
end

section
/-! ## CLZ (41_arm_data_processing.md R290) -/

namespace Sys2Proof.Machine

theorem leadingZeros_le (v : Word) (n : Nat) : leadingZeros v n ≤ n := by
  induction n with
  | zero => exact le_rfl
  | succ n ih =>
    rw [leadingZeros]
    split
    · exact Nat.zero_le _
    · exact Nat.succ_le_succ ih

/-- The bits counted are clear. -/
theorem getLsbD_of_lt_leadingZeros {v : Word} {n j : Nat} (h : j < leadingZeros v n) :
    v.getLsbD (n - 1 - j) = false := by
  induction n generalizing j with
  | zero => cases h
  | succ n ih =>
    rw [leadingZeros] at h
    split at h
    · cases h
    · cases j with
      | zero => simpa using ‹¬v.getLsbD n = true›
      | succ j =>
        rw [← ih (Nat.lt_of_succ_lt_succ h)]
        congr 1
        omega

/-- The bit below them is set, where there is one. -/
theorem getLsbD_leadingZeros {v : Word} {n : Nat} (h : leadingZeros v n < n) :
    v.getLsbD (n - 1 - leadingZeros v n) = true := by
  induction n with
  | zero => cases h
  | succ n ih =>
    rw [leadingZeros] at h ⊢
    split_ifs at h ⊢ with hv
    · exact hv
    · rw [← ih (Nat.lt_of_succ_lt_succ h)]
      congr 1
      omega

theorem exec_clz_eq (cond : Cond) (rd rm : Reg) (s : State) :
    exec (.clz cond rd rm) s = s.ifPassed cond fun s => forbid (isPc rd || isPc rm) .forbiddenPc >>= fun _ =>
      (s.setReg rd (BitVec.ofNat 32 (leadingZeros (s.reg rm) 32))).advance := rfl

/-- With no r15, CLZ ends as a data-processing instruction without S does. -/
theorem exec_clz_of_ne_pc {cond : Cond} {rd rm : Reg} {s : State} (hc : s.cpsr.passed cond = true) (hd : rd ≠ 15#4)
    (hm : rm ≠ 15#4) : exec (.clz cond rd rm) s =
      s.finish (s.writeResult false rd (BitVec.ofNat 32 (leadingZeros (s.reg rm) 32)) s.cpsr.nzcv) := by
  rw [exec_clz_eq, State.ifPassed_true hc, isPc_false hd, isPc_false hm, State.writeResult, if_neg hd]
  rfl

/-- Settles O20: `leadingZeros` counts the clear bits down to the first set one. -/
theorem countLeadingZeros : Obligations.CountLeadingZeros := by
  intro cond rd rm s hc
  refine ⟨fun h => .of_rule (exec_clz_eq cond rd rm s) hc ?_, fun hd hm hg => ⟨leadingZeros (s.reg rm) 32,
    leadingZeros_le _ _, getLsbD_leadingZeros, fun _ => getLsbD_of_lt_leadingZeros,
    (writesReg_or_pcWrap (exec_clz_of_ne_pc hc hd hm) hd).1 hg⟩⟩
  exact ruleFaults_forbid_bind.mpr (.inl (by simpa [isPc] using h))

end Sys2Proof.Machine
end

section
/-! ## Words of the spec (30_encoding.md R100) -/

namespace Sys2Proof

theorem decode_eq_of_encode_eq {i : Instr} {code : Code} (hwf : i.wf = true) (h : encode i = code) :
    decode Arch.full true code = .instr i := h ▸ decodeOfEncode i hwf

/-- Settles O13: each word is the code of its instruction, which is well formed, so it is read back (O10). -/
theorem decodeWords : Obligations.DecodeWords := by
  refine ⟨?_, ?_, ?_, ?_, ?_, ?_, ?_, ?_, ?_, ?_⟩ <;> exact decode_eq_of_encode_eq rfl rfl

end Sys2Proof
end

section
/-! ## The multiplies (42_arm_multiply_and_saturating.md R300 to R306) -/

namespace Sys2Proof.Machine

/-! ### Instructions that begin with a test of their registers (R300, R315) -/

section
variable {i : Instr} {cond : Cond} {s t : State} {b : Bool} {f : Fault} {rule : State → Except Trap State}
  (hi : exec i s = s.ifPassed cond fun s => forbid b f >>= fun _ => rule s) (hc : s.cpsr.passed cond = true)
include hi hc

theorem Faults.of_check (h : b = true) : Faults i s := .of_rule hi hc (ruleFaults_forbid_bind.mpr (.inl h))

/-- A fault of what follows the test, such as a second test, counts as well. -/
theorem Faults.of_check_or_rule (h : b = true ∨ RuleFaults (rule s)) : Faults i s :=
  .of_rule hi hc (ruleFaults_forbid_bind.mpr h)

theorem exec_of_check (h : b = false) : exec i s = s.finish (rule s) := by
  rw [hi, State.ifPassed_true hc, bind_of_ok (forbid_of_not h f)]

theorem exec_next_of_check (h : b = false) (hr : rule s = .ok t) : exec i s = .next t := by
  rw [exec_of_check hi hc h, hr, State.finish_ok]

end

/-- Two tests that hold. -/
theorem exec_of_two_checks {i : Instr} {cond : Cond} {s : State} {b b' : Bool} {f f' : Fault}
    {rule : State → Except Trap State}
    (hi : exec i s = s.ifPassed cond fun s => forbid b f >>= fun _ => forbid b' f' >>= fun _ => rule s)
    (hc : s.cpsr.passed cond = true) (h : b = false) (h' : b' = false) : exec i s = s.finish (rule s) := by
  rw [exec_of_check hi hc h, bind_of_ok (forbid_of_not h' f')]

theorem Completes.of_exists {i : Instr} {s : State} {r : Except Trap State} {p : State → Prop}
    (hi : exec i s = s.finish r) (h : ∃ t, r = .ok t ∧ p t) : Completes i s p :=
  h.elim fun _ ⟨hr, hp⟩ => .of_rule hi hr hp

section
variable {a b c d : Reg}

theorem isPc_or_three : (isPc a || isPc b || isPc c) = true ↔ a = 15#4 ∨ b = 15#4 ∨ c = 15#4 := by
  simp only [isPc, Bool.or_eq_true, beq_iff_eq, or_assoc]

theorem isPc_or_four : (isPc a || isPc b || isPc c || isPc d) = true ↔ a = 15#4 ∨ b = 15#4 ∨ c = 15#4 ∨ d = 15#4 := by
  rw [Bool.or_eq_true, isPc_or_three, isPc, beq_iff_eq, or_assoc, or_assoc]

theorem isPc_or_three_false (ha : a ≠ 15#4) (hb : b ≠ 15#4) (hc : c ≠ 15#4) :
    (isPc a || isPc b || isPc c) = false := by rw [isPc_false ha, isPc_false hb, isPc_false hc]; rfl

theorem isPc_or_four_false (ha : a ≠ 15#4) (hb : b ≠ 15#4) (hc : c ≠ 15#4) (hd : d ≠ 15#4) :
    (isPc a || isPc b || isPc c || isPc d) = false := by rw [isPc_or_three_false ha hb hc, isPc_false hd]; rfl

end

/-! ### The rules of the multiplies -/

section
variable {cond : Cond} {setFlags : Bool} {rd rn rs rm rdHi rdLo : Reg} {s : State}

theorem exec_mul_eq : exec (.mul cond setFlags rd rs rm) s = s.ifPassed cond fun s =>
    forbid (isPc rd || isPc rs || isPc rm) .forbiddenPc >>= fun _ => forbid (rd == rm) .sameRegister >>= fun _ =>
      s.writeProduct setFlags rd (s.reg rm * s.reg rs) := rfl

theorem exec_mla_eq : exec (.mla cond setFlags rd rn rs rm) s = s.ifPassed cond fun s =>
    forbid (isPc rd || isPc rn || isPc rs || isPc rm) .forbiddenPc >>= fun _ =>
      forbid (rd == rm) .sameRegister >>= fun _ => s.writeProduct setFlags rd (s.reg rm * s.reg rs + s.reg rn) := rfl

/-- All four long multiplies are the same tests and the same end, their exact result narrowed to 64 bits. -/
theorem LongOp.exec_eq (op : LongOp) : exec (op.instr cond setFlags rdHi rdLo rs rm) s = s.ifPassed cond fun s =>
    forbid (isPc rdHi || isPc rdLo || isPc rs || isPc rm) .forbiddenPc >>= fun _ =>
      forbid (rdLo == rdHi || rdLo == rm || rdHi == rm) .sameRegister >>= fun _ =>
        s.writeLongProduct setFlags rdHi rdLo
          (BitVec.ofInt 64 (op.value (s.reg rdHi ++ s.reg rdLo) (s.reg rm) (s.reg rs))) := by
  cases op with
  | umull =>
    simp only [LongOp.instr, exec_umull, execUmull, checkLongMul, bind_assoc, LongOp.value, ← Int.natCast_mul,
      BitVec.ofInt_natCast]
  | umlal =>
    simp only [LongOp.instr, exec_umlal, execUmlal, checkLongMul, bind_assoc, LongOp.value, State.pair,
      ← Int.natCast_mul, ← Int.natCast_add, BitVec.ofInt_natCast]
  | smull => simp only [LongOp.instr, exec_smull, execSmull, checkLongMul, bind_assoc, LongOp.value]
  | smlal => simp only [LongOp.instr, exec_smlal, execSmlal, checkLongMul, bind_assoc, LongOp.value, State.pair]

end

/-- Settles O21: each multiply tests its registers and then ends as all the 32-bit or all the long ones do. -/
theorem multiplies : Obligations.Multiplies := by
  refine ⟨fun cond setFlags rd rn rs rm s hc => ⟨fun h => ?forbidden, fun hn => ?accumulatesPc,
    fun hd hs hm hne hg => ?products⟩, fun op cond setFlags rdHi rdLo rs rm s hc => ⟨fun h => ?longForbidden,
    fun hHi hLo hs hm hLoHi hLoM hHiM hg => ?long⟩⟩
  case forbidden =>
    constructor
    · refine Faults.of_check_or_rule exec_mul_eq hc ?_
      rw [isPc_or_three, ruleFaults_forbid_bind, beq_iff_eq]
      tauto
    · refine Faults.of_check_or_rule exec_mla_eq hc ?_
      rw [isPc_or_four, ruleFaults_forbid_bind, beq_iff_eq]
      tauto
  case accumulatesPc => exact .of_check exec_mla_eq hc (isPc_or_four.mpr (.inr (.inl hn)))
  case products =>
    have hsame := beq_false_of_ne hne
    exact ⟨.of_exists (exec_of_two_checks exec_mul_eq hc (isPc_or_three_false hd hs hm) hsame)
        (State.writeProduct_ok hd hg),
      fun hn => .of_exists (exec_of_two_checks exec_mla_eq hc (isPc_or_four_false hd hn hs hm) hsame)
        (State.writeProduct_ok hd hg)⟩
  case longForbidden =>
    refine .of_check_or_rule op.exec_eq hc ?_
    rw [isPc_or_four, ruleFaults_forbid_bind, Bool.or_eq_true, Bool.or_eq_true, beq_iff_eq, beq_iff_eq, beq_iff_eq]
    tauto
  case long =>
    have hsame : (rdLo == rdHi || rdLo == rm || rdHi == rm) = false := by
      rw [beq_false_of_ne hLoHi, beq_false_of_ne hLoM, beq_false_of_ne hHiM]
      rfl
    obtain ⟨t, ht, hr, hflags, hgoes, -⟩ := State.writeLongProduct_ok hHi hLo hLoHi hg
    exact .of_rule (exec_of_two_checks op.exec_eq hc (isPc_or_four_false hHi hLo hs hm) hsame) ht ⟨hr, hflags, hgoes⟩

end Sys2Proof.Machine
end

section
/-! ## The halfword multiplies (42_arm_multiply_and_saturating.md R307 to R311) -/

namespace Sys2Proof.Machine

/-! ### A 64-bit result with the flags kept -/

/-- Which registers may have changed is a set: the order and number of the names say nothing. -/
theorem State.RegsKept.mono {s t : State} {w w' : List Reg} (h : s.RegsKept t w) (hw : ∀ r ∈ w, r ∈ w') :
    s.RegsKept t w' := fun i hi => h i fun r hr => hi r (hw r hr)

/-- Without S the end of the long multiplies is two writes. -/
theorem State.writeLongProduct_false (s : State) (hi lo : Reg) (v : DWord) : s.writeLongProduct false hi lo v =
    ((s.setReg lo (v.extractLsb' 0 32)).setReg hi (v.extractLsb' 32 32)).advance := by
  rw [State.writeLongProduct, State.drawnIf_false]
  rfl

/-- A rule that ends as a long multiply without S draws nothing and keeps the flags (R311, R367). -/
theorem Completes.of_writeLongProduct {i : Instr} {s : State} {hi lo : Reg} {v : DWord}
    (he : exec i s = s.finish (s.writeLongProduct false hi lo v)) (hhi : hi ≠ 15#4) (hlo : lo ≠ 15#4) (hne : hi ≠ lo)
    (hg : s.CanGoOn) :
    Completes i s fun t => t.reg hi ++ t.reg lo = v ∧ s.FlagsKept t ∧ s.GoesOn t [hi, lo] := by
  obtain ⟨t, ht, hv, hflags, ⟨hpc, hregs, hmem, hspecial, -⟩, hdraws⟩ := State.writeLongProduct_ok hhi hlo hne.symm hg
  refine .of_rule he ht ⟨hv, hflags, hpc, hregs.mono (by simp), hmem, ?_⟩
  rw [hspecial, hdraws rfl]
  rfl

/-! ### The rules, their halves as signed integers -/

section
variable {cond : Cond} {rd rn rs rm : Reg} {y x : Bool} {s : State}

theorem exec_smulXY_eq : exec (.smulXY cond rd rs y x rm) s = s.ifPassed cond fun s =>
    forbid (isPc rd || isPc rs || isPc rm) .forbiddenPc >>= fun _ =>
      (s.setReg rd (BitVec.ofInt 32 (halfInt (s.reg rm) x * halfInt (s.reg rs) y))).advance := by
  simp only [← halfOf_toInt]
  rfl

theorem exec_smulwY_eq : exec (.smulwY cond rd rs y rm) s = s.ifPassed cond fun s =>
    forbid (isPc rd || isPc rs || isPc rm) .forbiddenPc >>= fun _ =>
      (s.setReg rd (BitVec.ofInt 32 ((s.reg rm).toInt * halfInt (s.reg rs) y / 2 ^ 16))).advance := by
  simp only [← wideProduct_eq]
  rfl

theorem exec_smlaXY_eq : exec (.smlaXY cond rd rn rs y x rm) s = s.ifPassed cond fun s =>
    forbid (isPc rd || isPc rn || isPc rs || isPc rm) .forbiddenPc >>= fun _ =>
      s.writeAccumulated rd (halfInt (s.reg rm) x * halfInt (s.reg rs) y + (s.reg rn).toInt) := by
  simp only [← halfOf_toInt]
  rfl

theorem exec_smlawY_eq : exec (.smlawY cond rd rn rs y rm) s = s.ifPassed cond fun s =>
    forbid (isPc rd || isPc rn || isPc rs || isPc rm) .forbiddenPc >>= fun _ =>
      s.writeAccumulated rd ((s.reg rm).toInt * halfInt (s.reg rs) y / 2 ^ 16 + (s.reg rn).toInt) := by
  simp only [← wideProduct_eq]
  rfl

theorem exec_smlalXY_eq : exec (.smlalXY cond rd rn rs y x rm) s = s.ifPassed cond fun s =>
    forbid (isPc rd || isPc rn || isPc rs || isPc rm) .forbiddenPc >>= fun _ =>
      forbid (rd == rn) .sameRegister >>= fun _ => s.writeLongProduct false rd rn
        (BitVec.ofInt 64 ((s.reg rd ++ s.reg rn).toInt + halfInt (s.reg rm) x * halfInt (s.reg rs) y)) := by
  simp only [← halfOf_toInt]
  rfl

/-- The end of a multiply that writes one register. -/
theorem State.advance_setReg {v : Word} (hg : s.CanGoOn) :
    (s.setReg rd v).advance = .ok ((s.setReg rd v).setPc s.next) := State.advance_of (by simp) (by simp) hg

end

/-- Settles O22: the products go straight into Rd, the accumulating ones through the end that sets Q, SMLALxy through
that of the long multiplies. -/
theorem halfwordMultiplies : Obligations.HalfwordMultiplies := by
  intro cond rd rn rs rm y x s hc product wide
  refine ⟨fun h => ?forbidden, fun hn => ?accumulatesPc, fun h => ?samePair, fun hd hs hm hg => ?results⟩
  case forbidden =>
    have hthree := isPc_or_three.mpr h
    have hfour : (isPc rd || isPc rn || isPc rs || isPc rm) = true := isPc_or_four.mpr (h.imp_right .inr)
    exact ⟨.of_check exec_smulXY_eq hc hthree, .of_check exec_smulwY_eq hc hthree, .of_check exec_smlaXY_eq hc hfour,
      .of_check exec_smlawY_eq hc hfour, .of_check exec_smlalXY_eq hc hfour⟩
  case accumulatesPc =>
    have hfour : (isPc rd || isPc rn || isPc rs || isPc rm) = true := isPc_or_four.mpr (.inr (.inl hn))
    exact ⟨.of_check exec_smlaXY_eq hc hfour, .of_check exec_smlawY_eq hc hfour, .of_check exec_smlalXY_eq hc hfour⟩
  case samePair =>
    exact .of_check_or_rule exec_smlalXY_eq hc (.inr (ruleFaults_forbid_bind.mpr (.inl (beq_iff_eq.mpr h))))
  case results =>
    have hthree := isPc_or_three_false hd hs hm
    refine ⟨writesReg_of_plain hd (exec_next_of_check exec_smulXY_eq hc hthree (State.advance_setReg hg)),
      writesReg_of_plain hd (exec_next_of_check exec_smulwY_eq hc hthree (State.advance_setReg hg)), fun hn => ?_⟩
    have hfour := isPc_or_four_false hd hn hs hm
    refine ⟨writesRegQ_of hd (exec_next_of_check exec_smlaXY_eq hc hfour (State.writeAccumulated_ok hg)),
      writesRegQ_of hd (exec_next_of_check exec_smlawY_eq hc hfour (State.writeAccumulated_ok hg)), fun hne => ?_⟩
    exact .of_writeLongProduct (exec_of_two_checks exec_smlalXY_eq hc hfour (beq_false_of_ne hne)) hd hn hne hg

end Sys2Proof.Machine
end

section
/-! ## Saturating arithmetic (42_arm_multiply_and_saturating.md R315 to R319) -/

namespace Sys2Proof.Machine

/-! ### The rules, their saturation as the nearest signed word -/

section
variable {cond : Cond} {rn rd rm : Reg} {s : State}

theorem exec_qadd_eq : exec (.qadd cond rn rd rm) s = s.ifPassed cond fun s =>
    forbid (isPc rn || isPc rd || isPc rm) .forbiddenPc >>= fun _ =>
      s.writeSaturated rd (BitVec.ofInt 32 (clamp32 ((s.reg rm).toInt + (s.reg rn).toInt)))
        (!fits32 ((s.reg rm).toInt + (s.reg rn).toInt)) := by
  simp only [exec_qadd, execQadd, signedSat32_eq]

theorem exec_qsub_eq : exec (.qsub cond rn rd rm) s = s.ifPassed cond fun s =>
    forbid (isPc rn || isPc rd || isPc rm) .forbiddenPc >>= fun _ =>
      s.writeSaturated rd (BitVec.ofInt 32 (clamp32 ((s.reg rm).toInt - (s.reg rn).toInt)))
        (!fits32 ((s.reg rm).toInt - (s.reg rn).toInt)) := by
  simp only [exec_qsub, execQsub, signedSat32_eq]

theorem exec_qdadd_eq : exec (.qdadd cond rn rd rm) s = s.ifPassed cond fun s =>
    forbid (isPc rn || isPc rd || isPc rm) .forbiddenPc >>= fun _ =>
      s.writeSaturated rd (BitVec.ofInt 32 (clamp32 ((s.reg rm).toInt + clamp32 (2 * (s.reg rn).toInt))))
        (!fits32 (2 * (s.reg rn).toInt) || !fits32 ((s.reg rm).toInt + clamp32 (2 * (s.reg rn).toInt))) := by
  simp only [exec_qdadd, execQdadd, signedSat32_eq, toInt_clamp32]

theorem exec_qdsub_eq : exec (.qdsub cond rn rd rm) s = s.ifPassed cond fun s =>
    forbid (isPc rn || isPc rd || isPc rm) .forbiddenPc >>= fun _ =>
      s.writeSaturated rd (BitVec.ofInt 32 (clamp32 ((s.reg rm).toInt - clamp32 (2 * (s.reg rn).toInt))))
        (!fits32 (2 * (s.reg rn).toInt) || !fits32 ((s.reg rm).toInt - clamp32 (2 * (s.reg rn).toInt))) := by
  simp only [exec_qdsub, execQdsub, signedSat32_eq, toInt_clamp32]

end

/-- Settles O23: the four rules are one test of the registers and one end, which writes Rd and adds to Q. -/
theorem saturatingArithmetic : Obligations.SaturatingArithmetic := by
  intro cond rn rd rm s hc m n d
  refine ⟨fun h => ?forbidden, fun hn hd hm hg => ?results⟩
  case forbidden =>
    have hpc := isPc_or_three.mpr h
    exact ⟨.of_check exec_qadd_eq hc hpc, .of_check exec_qsub_eq hc hpc, .of_check exec_qdadd_eq hc hpc,
      .of_check exec_qdsub_eq hc hpc⟩
  case results =>
    have hpc := isPc_or_three_false hn hd hm
    exact ⟨writesRegQ_of hd (exec_next_of_check exec_qadd_eq hc hpc (State.writeSaturated_ok hg)),
      writesRegQ_of hd (exec_next_of_check exec_qsub_eq hc hpc (State.writeSaturated_ok hg)),
      writesRegQ_of hd (exec_next_of_check exec_qdadd_eq hc hpc (State.writeSaturated_ok hg)),
      writesRegQ_of hd (exec_next_of_check exec_qdsub_eq hc hpc (State.writeSaturated_ok hg))⟩

end Sys2Proof.Machine
end

section
/-! ## The accumulator (42_arm_multiply_and_saturating.md R312 to R314, 45_arm_misc_and_pseudo.md R366, R367) -/

namespace Sys2Proof.Machine

/-! ### The 40 bits in two registers -/

/-- What MAR puts together, as a number. -/
theorem low_byte_append_eq (hi lo : Word) :
    hi.extractLsb' 0 8 ++ lo = BitVec.ofNat 40 (hi.toNat % 2 ^ 8 * 2 ^ 32 + lo.toNat) := by
  apply BitVec.eq_of_toNat_eq
  rw [BitVec.toNat_append, ← Nat.shiftLeft_add_eq_or_of_lt lo.isLt, BitVec.extractLsb'_toNat, Nat.shiftRight_zero,
    Nat.shiftLeft_eq, BitVec.toNat_ofNat]
  have := lo.isLt
  omega

/-- The low word that MRA writes is that of the accumulator sign-extended to 64 bits (R367). -/
theorem extractLsb'_low_signExtend (a : BitVec 40) : (a.signExtend 64).extractLsb' 0 32 = a.extractLsb' 0 32 := by
  ext j hj
  simp only [BitVec.getElem_extractLsb', BitVec.getLsbD_signExtend, Nat.zero_add]
  simp [show j < 64 by omega, show j < 40 by omega]

/-- So is the high word. -/
theorem extractLsb'_high_signExtend (a : BitVec 40) :
    (a.signExtend 64).extractLsb' 32 32 = (a.extractLsb' 32 8).signExtend 32 := by
  ext j hj
  rw [BitVec.getElem_extractLsb', BitVec.getLsbD_signExtend, BitVec.getElem_signExtend,
    decide_eq_true (show 32 + j < 64 by omega), Bool.true_and]
  by_cases h8 : j < 8
  · rw [if_pos (by omega), dif_pos h8, BitVec.getElem_extractLsb']
  · rw [if_neg (by omega), dif_neg h8]
    simp [BitVec.msb_eq_getLsbD_last]

/-! ### The rules -/

section
variable {cond : Cond} {rs rm : Reg} {y x : Bool} {s : State}

theorem exec_mia_eq : exec (.mia cond rs rm) s = s.ifPassed cond fun s =>
    forbid (isPc rs || isPc rm) .forbiddenPc >>= fun _ =>
      (s.setAcc (BitVec.ofInt 40 (s.acc0.toInt + (s.reg rm).toInt * (s.reg rs).toInt))).advance := rfl

theorem exec_miaph_eq : exec (.miaph cond rs rm) s = s.ifPassed cond fun s =>
    forbid (isPc rs || isPc rm) .forbiddenPc >>= fun _ =>
      (s.setAcc (BitVec.ofInt 40 (s.acc0.toInt + halfInt (s.reg rm) false * halfInt (s.reg rs) false +
        halfInt (s.reg rm) true * halfInt (s.reg rs) true))).advance := by
  simp only [← halfOf_toInt, Int.add_assoc]
  rfl

theorem exec_miaXY_eq : exec (.miaXY cond x y rs rm) s = s.ifPassed cond fun s =>
    forbid (isPc rs || isPc rm) .forbiddenPc >>= fun _ =>
      (s.setAcc (BitVec.ofInt 40 (s.acc0.toInt + halfInt (s.reg rm) x * halfInt (s.reg rs) y))).advance := by
  simp only [← halfOf_toInt]
  rfl

theorem exec_mar_eq : exec (.mar cond rs rm) s = s.ifPassed cond fun s =>
    forbid (isPc rs || isPc rm) .forbiddenPc >>= fun _ =>
      (s.setAcc (BitVec.ofNat 40 ((s.reg rs).toNat % 2 ^ 8 * 2 ^ 32 + (s.reg rm).toNat))).advance := by
  simp only [← low_byte_append_eq]
  rfl

/-- MRA ends as a long multiply without S whose result is the accumulator. -/
theorem exec_mra_eq : exec (.mra cond rs rm) s = s.ifPassed cond fun s =>
    forbid (isPc rs || isPc rm) .forbiddenPc >>= fun _ => forbid (rs == rm) .sameRegister >>= fun _ =>
      s.writeLongProduct false rs rm (s.acc0.signExtend 64) := by
  simp only [exec_mra, execMra, State.writeLongProduct_false, extractLsb'_low_signExtend, extractLsb'_high_signExtend]

end

theorem State.advance_setAcc {s : State} {v : BitVec 40} (hg : s.CanGoOn) :
    (s.setAcc v).advance = .ok ((s.setAcc v).setPc s.next) := State.advance_of rfl rfl hg

/-- Settles O24: the accumulator takes a sum or the bits of two registers; MRA writes its sign extension as a 64-bit
result. -/
theorem accumulator : Obligations.Accumulator := by
  intro cond rs rm y x s hc m r acc
  refine ⟨fun h => ?forbidden, fun h => ?samePair, fun hs hm hg => ?results⟩
  case forbidden =>
    have hpc : (isPc rs || isPc rm) = true := by simpa only [isPc, Bool.or_eq_true, beq_iff_eq] using h
    exact ⟨.of_check exec_mia_eq hc hpc, .of_check exec_miaph_eq hc hpc, .of_check exec_miaXY_eq hc hpc,
      .of_check exec_mar_eq hc hpc, .of_check exec_mra_eq hc hpc⟩
  case samePair =>
    exact .of_check_or_rule exec_mra_eq hc (.inr (ruleFaults_forbid_bind.mpr (.inl (beq_iff_eq.mpr h))))
  case results =>
    have hpc : (isPc rs || isPc rm) = false := by rw [isPc_false hs, isPc_false hm, Bool.or_false]
    refine ⟨exec_next_of_check exec_mia_eq hc hpc (State.advance_setAcc hg),
      exec_next_of_check exec_miaph_eq hc hpc (State.advance_setAcc hg),
      exec_next_of_check exec_miaXY_eq hc hpc (State.advance_setAcc hg),
      exec_next_of_check exec_mar_eq hc hpc (State.advance_setAcc hg), fun hne => ?_⟩
    have hmra := exec_of_two_checks exec_mra_eq hc hpc (beq_false_of_ne hne)
    refine (Completes.of_writeLongProduct hmra hs hm hne hg).mono fun t ⟨hv, hflags, hgoes⟩ => ⟨?_, hflags, hgoes⟩
    rw [hv, BitVec.toInt_signExtend_of_le (by decide)]

end Sys2Proof.Machine
end

section
/-! ## The branches of both states (43_arm_branch.md R330 to R334, 48_thumb_branch_swi_pseudo.md R450 to R456) -/

namespace Sys2Proof.Machine

/-! ### Offsets: a shift to the left is a product by a power of two -/

theorem twoPow_eq_ofNat (w k : Nat) : BitVec.twoPow w k = BitVec.ofNat w (2 ^ k) :=
  BitVec.eq_of_toNat_eq (by rw [BitVec.toNat_twoPow, BitVec.toNat_ofNat])

/-- A signed offset of `2 ^ k` bytes a unit. -/
theorem signExtend_shiftLeft {n : Nat} (x : BitVec n) (k : Nat) :
    x.signExtend 32 <<< k = BitVec.ofInt 32 ((2 ^ k : Nat) * x.toInt) := by
  rw [BitVec.shiftLeft_eq_mul_twoPow, twoPow_eq_ofNat, BitVec.ofInt_mul, BitVec.ofInt_natCast, BitVec.mul_comm]
  rfl

/-- An unsigned offset of `2 ^ k` bytes a unit. -/
theorem zeroExtend_shiftLeft {n : Nat} (x : BitVec n) (k : Nat) :
    x.zeroExtend 32 <<< k = BitVec.ofNat 32 (2 ^ k * x.toNat) := by
  rw [BitVec.shiftLeft_eq_mul_twoPow, twoPow_eq_ofNat, BitVec.ofNat_mul, BitVec.mul_comm, BitVec.ofNat_toNat]

theorem State.branchTarget_eq (s : State) (imm24 : BitVec 24) :
    s.branchTarget imm24 = s.pc + 8#32 + BitVec.ofInt 32 (4 * imm24.toInt) := by
  rw [State.branchTarget, signExtend_shiftLeft]
  rfl

theorem State.thumbTarget_eq (s : State) {n : Nat} (imm : BitVec n) :
    s.thumbTarget imm = s.pc + 4#32 + BitVec.ofInt 32 (2 * imm.toInt) := by
  rw [State.thumbTarget, signExtend_shiftLeft]
  rfl

/-- The H bit of BLX of a label is worth a halfword (R334). -/
theorem halfwordBit_eq (h : Bool) : (bit2 h false).zeroExtend 32 = if h then 2#32 else 0#32 := by
  cases h <;> rfl

/-! ### BLX of a register: a test for r15, then the link and the interworking branch (R333, R455) -/

section
variable {i : Instr} {s linked : State} {r : Reg} {v : Word}
  (hi : exec i s = s.finish (forbid (isPc r) .forbiddenPc >>= fun _ => linked.branchExchange v))
include hi

theorem Faults.of_exchange_pc (hr : r = 15#4) : Faults i s :=
  .of_finish hi (ruleFaults_forbid_bind.mpr (.inl (by rw [hr, isPc_pc])))

theorem exec_exchange_of_ne_pc (hr : r ≠ 15#4) : exec i s = linked.interworked v := by
  rw [hi, bind_of_ok (forbid_of_not (isPc_false hr) _), State.finish_branchExchange]

end

/-! ### ARM state, under a condition that passes -/

section
variable {cond : Cond} {s : State} (hc : s.cpsr.passed cond = true)
include hc

theorem exec_b_eq (imm24 : BitVec 24) :
    exec (.b cond imm24) s = .next (s.setPc (s.pc + 8#32 + BitVec.ofInt 32 (4 * imm24.toInt))) := by
  rw [exec_b, execB, State.ifPassed_true hc, State.finish_ok, State.branchTarget_eq]

theorem exec_bl_eq (imm24 : BitVec 24) : exec (.bl cond imm24) s =
    .next ((s.setReg 14#4 (s.pc + 4#32)).setPc (s.pc + 8#32 + BitVec.ofInt 32 (4 * imm24.toInt))) := by
  rw [exec_bl, execBl, State.ifPassed_true hc, State.finish_ok, State.branchTarget_eq]

theorem exec_bx_eq (rm : Reg) : exec (.bx cond rm) s = s.interworked (s.reg rm) := by
  rw [exec_bx, execBx, State.ifPassed_true hc, State.finish_branchExchange]

theorem exec_blxReg_eq (rm : Reg) : exec (.blxReg cond rm) s = s.finish (forbid (isPc rm) .forbiddenPc >>= fun _ =>
    (s.setReg 14#4 (s.pc + 4#32)).branchExchange (s.reg rm)) := by
  rw [exec_blxReg, execBlxReg, State.ifPassed_true hc]

theorem exec_tBCond_eq (imm8 : BitVec 8) :
    exec (.tBCond cond imm8) s = .next (s.setPc (s.pc + 4#32 + BitVec.ofInt 32 (2 * imm8.toInt))) := by
  rw [exec_tBCond, execTBCond, State.ifPassed_true hc, State.finish_ok, State.thumbTarget_eq]

end

/-! ### Branches without a condition -/

section
variable (s : State)

theorem exec_blxLabel_eq (h : Bool) (imm24 : BitVec 24) : exec (.blxLabel h imm24) s =
    .next (((s.setReg 14#4 (s.pc + 4#32)).setThumb true).setPc
      (s.pc + 8#32 + BitVec.ofInt 32 (4 * imm24.toInt) + (if h then 2#32 else 0#32))) := by
  rw [exec_blxLabel, execBlxLabel, State.always_eq, State.finish_ok, State.branchTarget_eq, halfwordBit_eq]

theorem exec_tB_eq (imm11 : BitVec 11) :
    exec (.tB imm11) s = .next (s.setPc (s.pc + 4#32 + BitVec.ofInt 32 (2 * imm11.toInt))) := by
  rw [exec_tB, execTB, State.always_eq, State.finish_ok, State.thumbTarget_eq]

/-- The first half of BL and BLX is no branch: it moves on to the second half. -/
theorem exec_tBlFirst_eq (hi11 : BitVec 11) (hg : s.CanGoOn) : exec (.tBlFirst hi11) s =
    .next ((s.setReg 14#4 (s.pc + 4#32 + BitVec.ofInt 32 (4096 * hi11.toInt))).setPc s.next) := by
  rw [exec_tBlFirst, execTBlFirst, State.always_eq, State.advance_setReg hg, State.finish_ok, signExtend_shiftLeft]
  rfl

theorem exec_tBlSecond_eq (lo11 : BitVec 11) : exec (.tBlSecond lo11) s =
    .next ((s.setReg 14#4 s.thumbReturn).setPc
      ((s.reg 14#4 + BitVec.ofNat 32 (2 * lo11.toNat)) &&& 0xFFFFFFFE#32)) := by
  rw [exec_tBlSecond, execTBlSecond, State.always_eq, State.finish_ok, zeroExtend_shiftLeft]
  rfl

theorem exec_tBlxSecond_eq (lo10 : BitVec 10) : exec (.tBlxSecond lo10) s =
    .next (((s.setReg 14#4 s.thumbReturn).setThumb false).setPc
      ((s.reg 14#4 + BitVec.ofNat 32 (4 * lo10.toNat)) &&& 0xFFFFFFFC#32)) := by
  rw [exec_tBlxSecond, execTBlxSecond, State.always_eq, State.finish_ok, zeroExtend_shiftLeft]
  rfl

theorem exec_tBx_eq (h2 : Bool) (rm : LowReg) : exec (.tBx h2 rm) s = s.interworked (s.reg (highReg h2 rm)) := by
  rw [exec_tBx, execTBx, State.always_eq, State.finish_branchExchange]

theorem exec_tBlxReg_eq (h2 : Bool) (rm : LowReg) : exec (.tBlxReg h2 rm) s =
    s.finish (forbid (isPc (highReg h2 rm)) .forbiddenPc >>= fun _ =>
      (s.setReg 14#4 s.thumbReturn).branchExchange (s.reg (highReg h2 rm))) := by
  rw [exec_tBlxReg, execTBlxReg, State.always_eq]

end

/-- Settles O38: each branch is its equation above; BLX of a register splits on r15. -/
theorem branches : Obligations.Branches := by
  refine ⟨fun cond imm24 rm s hc => ?arm, fun h imm24 s => exec_blxLabel_eq s h imm24,
    fun cond imm8 imm11 imm10 h2 rm s => ?thumb⟩
  case arm =>
    have hblx := exec_blxReg_eq hc rm
    exact ⟨exec_b_eq hc imm24, exec_bl_eq hc imm24, exec_bx_eq hc rm, .of_exchange_pc hblx,
      exec_exchange_of_ne_pc hblx⟩
  case thumb =>
    have hblx := exec_tBlxReg_eq s h2 rm
    exact ⟨exec_tB_eq s imm11, fun hc => exec_tBCond_eq hc imm8, exec_tBlFirst_eq s imm11, exec_tBlSecond_eq s imm11,
      exec_tBlxSecond_eq s imm10, exec_tBx_eq s h2 rm, .of_exchange_pc hblx, exec_exchange_of_ne_pc hblx⟩

end Sys2Proof.Machine
end

section
/-! ## The generic coprocessors: accepted commands and the register transfers (44_arm_coprocessor.md R340 to R348,
60_exceptions.md R616) -/

namespace Sys2Proof.Machine

/-! ### Whether the command is accepted (R340) -/

theorem State.coprocCheck_ok {s : State} {cp : BitVec 4} (hp : s.coprocPresent cp = true)
    (ha : s.answer.accept = true) : s.coprocCheck cp = .ok () :=
  if_pos (Bool.and_eq_true_iff.mpr ⟨hp, ha⟩)

theorem State.coprocCheck_undefined {s : State} {cp : BitVec 4}
    (h : ¬(s.coprocPresent cp = true ∧ s.answer.accept = true)) :
    s.coprocCheck cp = .error (.exc .undefined) :=
  if_neg (mt Bool.and_eq_true_iff.mp h)

/-- The instruction is a command to coprocessor `cp`, and `rule` is what it does once the command is accepted. -/
def Commands (i : Instr) (s : State) (cp : BitVec 4) (rule : Except Trap State) : Prop :=
  exec i s = s.finish (s.coprocCheck cp >>= fun _ => rule)

section
variable {i : Instr} {s t : State} {cp : BitVec 4} {rule : Except Trap State} (hi : Commands i s cp rule)
include hi

theorem Commands.takes_undefined (h : ¬(s.coprocPresent cp = true ∧ s.answer.accept = true)) :
    Takes i s .undefined :=
  .of_rule hi (by rw [State.coprocCheck_undefined h, bind_error])

variable (hp : s.coprocPresent cp = true) (ha : s.answer.accept = true)
include hp ha

theorem Commands.exec_eq : exec i s = s.finish rule := by
  rw [hi, bind_of_ok (State.coprocCheck_ok hp ha)]

theorem Commands.exec_next (hr : rule = .ok t) : exec i s = .next t := by
  rw [hi.exec_eq hp ha, hr, State.finish_ok]

end

/-- An accepted command whose rule begins with a test of the registers: what follows the test may fault too. -/
theorem Commands.faults_of_check {i : Instr} {s : State} {cp : BitVec 4} {b : Bool} {f : Fault}
    {rule : Except Trap State} (hi : Commands i s cp (forbid b f >>= fun _ => rule))
    (hp : s.coprocPresent cp = true) (ha : s.answer.accept = true) (h : b = true ∨ RuleFaults rule) : Faults i s :=
  .of_finish (hi.exec_eq hp ha) (ruleFaults_forbid_bind.mpr h)

/-! ### The rules of the register transfers -/

section
variable {cond : Cond} {o4 crn crm cp : BitVec 4} {o3 opc2 : BitVec 3} {rd rn : Reg} {s : State}

/-- The end of MRC and MRC2: the flags for r15, the register otherwise. -/
def State.coprocReceived (s : State) (cp : BitVec 4) (rd : Reg) (c : CoprocCommand) : State :=
  if rd = 15#4 then (s.coprocDone cp c).setNzcv (topFlags s.answer.first)
  else (s.coprocDone cp c).setReg rd s.answer.first

theorem commands_cdp2 :
    Commands (.cdp2 o4 crn rd cp opc2 crm) s cp (s.coprocDone cp (.dataOp true o4 crn rd opc2 crm)).advance := rfl

theorem commands_mcr2 : Commands (.mcr2 o3 crn rd cp opc2 crm) s cp
    (forbid (isPc rd) .forbiddenPc >>= fun _ =>
      (s.coprocDone cp (.toCp true o3 crn opc2 crm (s.reg rd))).advance) := rfl

theorem commands_mrc2 : Commands (.mrc2 o3 crn rd cp opc2 crm) s cp
    (s.coprocReceived cp rd (.fromCp true o3 crn opc2 crm)).advance := rfl

variable (hc : s.cpsr.passed cond = true)
include hc

theorem commands_cdp : Commands (.cdp cond o4 crn rd cp opc2 crm) s cp
    (s.coprocDone cp (.dataOp false o4 crn rd opc2 crm)).advance := by
  rw [Commands, exec_cdp, execCdp, State.ifPassed_true hc]
  rfl

theorem commands_mcr : Commands (.mcr cond o3 crn rd cp opc2 crm) s cp
    (forbid (isPc rd) .forbiddenPc >>= fun _ =>
      (s.coprocDone cp (.toCp false o3 crn opc2 crm (s.reg rd))).advance) := by
  rw [Commands, exec_mcr, execMcr, State.ifPassed_true hc]
  rfl

theorem commands_mrc : Commands (.mrc cond o3 crn rd cp opc2 crm) s cp
    (s.coprocReceived cp rd (.fromCp false o3 crn opc2 crm)).advance := by
  rw [Commands, exec_mrc, execMrc, State.ifPassed_true hc]
  rfl

theorem commands_mcrr : Commands (.mcrr cond rn rd cp o4 crm) s cp
    (forbid (isPc rd || isPc rn) .forbiddenPc >>= fun _ =>
      (s.coprocDone cp (.toCp2 o4 crm (s.reg rd) (s.reg rn))).advance) := by
  rw [Commands, exec_mcrr, execMcrr, State.ifPassed_true hc]

theorem commands_mrrc : Commands (.mrrc cond rn rd cp o4 crm) s cp
    (forbid (isPc rd || isPc rn) .forbiddenPc >>= fun _ => forbid (rd == rn) .sameRegister >>= fun _ =>
      (((s.coprocDone cp (.fromCp2 o4 crm)).setReg rd s.answer.first).setReg rn s.answer.second).advance) := by
  rw [Commands, exec_mrrc, execMrrc, State.ifPassed_true hc]

end

/-! ### The ends of the rules -/

section
variable {s : State} {cp : BitVec 4} {c : CoprocCommand} {rd : Reg}

theorem State.advance_coprocDone (hg : s.CanGoOn) :
    (s.coprocDone cp c).advance = .ok ((s.coprocDone cp c).setPc s.next) := State.advance_of rfl rfl hg

theorem State.advance_coprocReceived_pc (hg : s.CanGoOn) : (s.coprocReceived cp 15#4 c).advance =
    .ok (((s.coprocDone cp c).setNzcv (topFlags s.answer.first)).setPc s.next) := by
  rw [State.coprocReceived, if_pos rfl]
  exact State.advance_of rfl rfl hg

theorem State.advance_coprocReceived_reg (hd : rd ≠ 15#4) (hg : s.CanGoOn) : (s.coprocReceived cp rd c).advance =
    .ok (((s.coprocDone cp c).setReg rd s.answer.first).setPc s.next) := by
  rw [State.coprocReceived, if_neg hd]
  exact State.advance_of (by simp) (by simp) hg

end

theorem isPc_or_two {a b : Reg} : (isPc a || isPc b) = true ↔ a = 15#4 ∨ b = 15#4 := by
  simp only [isPc, Bool.or_eq_true, beq_iff_eq]

theorem isPc_or_two_false {a b : Reg} (ha : a ≠ 15#4) (hb : b ≠ 15#4) : (isPc a || isPc b) = false := by
  rw [isPc_false ha, isPc_false hb, Bool.or_false]

/-- Settles O41: each instruction is a command with a rule of its own, which the check of acceptance goes before. -/
theorem coprocessorTransfers : Obligations.CoprocessorTransfers := by
  intro cond o4 crn crm cp o3 opc2 rd rn s hc done moved v flags
  refine ⟨fun h => ?undefined, fun hp ha => ⟨fun hd => ?pcOfOne, fun h => ?pcOfTwo, fun h => ?samePair,
    fun hg => ⟨?cdp, ?cdp2, fun hd => ?one, ?mrcOfPc, ?mrc2OfPc, fun hd hn => ?two⟩⟩⟩
  case undefined =>
    exact ⟨(commands_cdp hc).takes_undefined h, commands_cdp2.takes_undefined h, (commands_mcr hc).takes_undefined h,
      commands_mcr2.takes_undefined h, (commands_mrc hc).takes_undefined h, commands_mrc2.takes_undefined h,
      (commands_mcrr hc).takes_undefined h, (commands_mrrc hc).takes_undefined h⟩
  case pcOfOne =>
    have hpc : isPc rd = true := beq_iff_eq.mpr hd
    exact ⟨(commands_mcr hc).faults_of_check hp ha (.inl hpc),
      commands_mcr2.faults_of_check hp ha (.inl hpc)⟩
  case pcOfTwo =>
    have hpc := isPc_or_two.mpr h
    exact ⟨(commands_mcrr hc).faults_of_check hp ha (.inl hpc),
      (commands_mrrc hc).faults_of_check hp ha (.inl hpc)⟩
  case samePair =>
    have hsame : (rd == rn) = true := beq_iff_eq.mpr h
    exact (commands_mrrc hc).faults_of_check hp ha (.inr (ruleFaults_forbid_bind.mpr (.inl hsame)))
  case cdp => exact (commands_cdp hc).exec_next hp ha (State.advance_coprocDone hg)
  case cdp2 => exact commands_cdp2.exec_next hp ha (State.advance_coprocDone hg)
  case one =>
    have hpc := forbid_of_not (isPc_false hd) .forbiddenPc
    exact ⟨(commands_mcr hc).exec_next hp ha ((bind_of_ok hpc _).trans (State.advance_coprocDone hg)),
      commands_mcr2.exec_next hp ha ((bind_of_ok hpc _).trans (State.advance_coprocDone hg)),
      (commands_mrc hc).exec_next hp ha (State.advance_coprocReceived_reg hd hg),
      commands_mrc2.exec_next hp ha (State.advance_coprocReceived_reg hd hg)⟩
  case mrcOfPc => exact (commands_mrc hc).exec_next hp ha (State.advance_coprocReceived_pc hg)
  case mrc2OfPc => exact commands_mrc2.exec_next hp ha (State.advance_coprocReceived_pc hg)
  case two =>
    have hpc := forbid_of_not (isPc_or_two_false hd hn) .forbiddenPc
    refine ⟨(commands_mcrr hc).exec_next hp ha ((bind_of_ok hpc _).trans (State.advance_coprocDone hg)), fun hne => ?_⟩
    have hpair := forbid_of_not (beq_false_of_ne hne) .sameRegister
    exact (commands_mrrc hc).exec_next hp ha ((bind_of_ok hpc _).trans ((bind_of_ok hpair _).trans
      (State.advance_of (by simp) (by simp) hg)))

end Sys2Proof.Machine
end

section
/-! ## LDC, STC and their unconditional forms (44_arm_coprocessor.md R349 to R352) -/

namespace Sys2Proof.Machine

/-! ### The tests that loads and stores share: the base, alignment, the top of memory -/

/-- The byte offset as the statement writes it. -/
theorem coprocOffset_eq (offset8 : BitVec 8) : coprocOffset offset8 = BitVec.ofNat 32 (4 * offset8.toNat) := by
  apply BitVec.eq_of_toNat_eq
  rw [coprocOffset, BitVec.zeroExtend_eq_setWidth, BitVec.toNat_setWidth, BitVec.toNat_append, BitVec.toNat_ofNat,
    BitVec.toNat_ofNat, Nat.zero_mod, Nat.or_zero, Nat.shiftLeft_eq, Nat.mul_comm]

/-- What LDC and STC test of their operands, between the check of acceptance and the access to `n` words. -/
def State.checkCoprocBlock (s : State) (rn : Reg) (a : Address) (n : Nat) : Except Trap Unit :=
  forbid (a.writeback && isPc rn) .forbiddenPc >>= fun _ => s.checkAligned a.addr 3#32 >>= fun _ =>
    checkTransfer a.addr n

section
variable {s : State} {rn : Reg} {a : Address} {n : Nat}

/-- A base that is written back is not r15 (R349). -/
theorem coprocBase_ok (hb : a.writeback = true → rn ≠ 15#4) :
    forbid (a.writeback && isPc rn) .forbiddenPc = .ok () :=
  forbid_of_not (Bool.eq_false_iff.mpr fun h =>
    hb (Bool.and_eq_true_iff.mp h).1 (beq_iff_eq.mp (Bool.and_eq_true_iff.mp h).2)) _

theorem State.checkCoprocBlock_basePc (hw : a.writeback = true) (hr : rn = 15#4) :
    s.checkCoprocBlock rn a n = .error (.fault .forbiddenPc) := by
  rw [State.checkCoprocBlock, hw, hr, isPc_pc, Bool.and_true, forbid_true, bind_error]

variable (hb : a.writeback = true → rn ≠ 15#4)
include hb

/-- A misaligned address: whichever stop the check answers (R75). -/
theorem State.checkCoprocBlock_misaligned {e : Trap} (h : s.checkAligned a.addr 3#32 = .error e) :
    s.checkCoprocBlock rn a n = .error e := by
  rw [State.checkCoprocBlock, bind_of_ok (coprocBase_ok hb), h, bind_error]

variable (ha : a.addr &&& 3#32 = 0#32)
include ha

theorem State.checkCoprocBlock_eq : s.checkCoprocBlock rn a n = checkTransfer a.addr n := by
  rw [State.checkCoprocBlock, bind_of_ok (coprocBase_ok hb), bind_of_ok (State.checkAligned_ok ha)]

theorem State.checkCoprocBlock_wrap (hf : ¬FitsBelowTop a.addr n) :
    s.checkCoprocBlock rn a n = .error (.fault .transferWrap) :=
  (State.checkCoprocBlock_eq hb ha).trans (checkTransfer_fault hf)

theorem State.checkCoprocBlock_ok (hf : FitsBelowTop a.addr n) : s.checkCoprocBlock rn a n = .ok () :=
  (State.checkCoprocBlock_eq hb ha).trans (checkTransfer_ok hf)

end

/-! ### Where an instruction that begins with these tests stops -/

section
variable {i : Instr} {s : State} {rn : Reg} {a : Address} {n : Nat} {access : Except Trap State}
  (hi : exec i s = s.finish (s.checkCoprocBlock rn a n >>= fun _ => access))
include hi

theorem Faults.of_coprocBase (hw : a.writeback = true) (hr : rn = 15#4) : Faults i s :=
  ⟨_, exec_fault_of_rule hi (by rw [State.checkCoprocBlock_basePc hw hr, bind_error])⟩

variable (hb : a.writeback = true → rn ≠ 15#4)
include hb

theorem Takes.of_coprocMisaligned (ha : a.addr &&& 3#32 ≠ 0#32) (hchk : s.cfg.alignCheck = true) :
    Takes i s .dataAbort :=
  .of_rule hi (by rw [State.checkCoprocBlock_misaligned hb (State.checkAligned_abort ha hchk), bind_error])

theorem Faults.of_coprocMisaligned (ha : a.addr &&& 3#32 ≠ 0#32) (hchk : s.cfg.alignCheck = false) : Faults i s :=
  ⟨_, exec_fault_of_rule hi
    (by rw [State.checkCoprocBlock_misaligned hb (State.checkAligned_fault ha hchk), bind_error])⟩

variable (ha : a.addr &&& 3#32 = 0#32)
include ha

theorem Faults.of_coprocWrap (hf : ¬FitsBelowTop a.addr n) : Faults i s :=
  ⟨_, exec_fault_of_rule hi (by rw [State.checkCoprocBlock_wrap hb ha hf, bind_error])⟩

theorem exec_of_coprocBlock_ok (hf : FitsBelowTop a.addr n) : exec i s = s.finish access := by
  rw [hi, bind_of_ok (State.checkCoprocBlock_ok hb ha hf)]

end

/-! ### What is left when the command is done -/

/-- `u` is the state after the access, as `s` but for memory. The command adds to the record alone, so this is the end
of a store from the state that has the new record already. -/
theorem Completes.of_coprocDone {i : Instr} {s u : State} {cp : BitVec 4} {c : CoprocCommand} {a : Address} {rn : Reg}
    {lo : Word} {n : Nat} (hi : exec i s = s.finish ((u.coprocDone cp c).writeBack a rn).advance)
    (hu : u = { s with mem := u.mem }) (ho : s.MemKeptOutside u lo n) (hb : a.writeback = true → rn ≠ 15#4)
    (hg : s.CanGoOn) :
    Completes i s fun t => t.mem = u.mem ∧ t.cfg = u.cfg ∧ t.coproc = s.coprocEvent cp c :: s.coproc ∧
      (a.writeback = true → t.reg rn = a.target) ∧ t.pc = s.next ∧ s.RegsKept t (a.written rn) ∧
      s.MemKeptOutside t lo n ∧ s.FlagsKept t ∧ t.special = { s.special with coproc := t.coproc } := by
  have hdone : u.coprocDone cp c = { s.coprocDone cp c with mem := u.mem } := by rw [hu]; rfl
  obtain ⟨t, ht, hmem, hcfg, hbase, hpc, hregs, hout, hflags, hspecial⟩ :=
    State.stored_state (s := s.coprocDone cp c) (u := u.coprocDone cp c) hdone ho hb hg
  have hrecord : t.coproc = s.coprocEvent cp c :: s.coproc := (congrArg State.coproc hspecial :)
  refine .of_rule hi ht ⟨hmem, hcfg.trans ?_, hrecord, hbase, hpc, hregs, hout, hflags, ?_⟩
  · rw [hu]; rfl
  · rw [hrecord, hspecial]; rfl

/-! ### Loads and stores -/

section
variable {i : Instr} {s : State} {two long : Bool} {cp crd : BitVec 4} {rn : Reg} {a : Address}

/-- LDC after its tests. -/
def State.coprocLoadWords (s : State) (two long : Bool) (cp crd : BitVec 4) (rn : Reg) (a : Address) :
    Except Trap State :=
  s.readWords s.privileged s.answer.count a.addr >>= fun words =>
    ((s.coprocDone cp (.load two long crd words)).writeBack a rn).advance

/-- STC after its tests. -/
def State.coprocStoreWords (s : State) (two long : Bool) (cp crd : BitVec 4) (rn : Reg) (a : Address) :
    Except Trap State :=
  s.writeWords s.privileged s.answer.words a.addr >>= fun t =>
    ((t.coprocDone cp (.store two long crd s.answer.words)).writeBack a rn).advance

theorem State.coprocLoad_eq : s.coprocLoad two long cp crd rn a = s.coprocCheck cp >>= fun _ =>
    s.checkCoprocBlock rn a s.answer.count >>= fun _ => s.coprocLoadWords two long cp crd rn a := by
  simp only [State.coprocLoad, State.checkCoprocBlock, State.coprocLoadWords, bind_assoc]

theorem State.coprocStore_eq : s.coprocStore two long cp crd rn a = s.coprocCheck cp >>= fun _ =>
    s.checkCoprocBlock rn a s.answer.words.length >>= fun _ => s.coprocStoreWords two long cp crd rn a := by
  simp only [State.coprocStore, State.checkCoprocBlock, State.coprocStoreWords, bind_assoc]

theorem Commands.of_coprocLoad (hi : exec i s = s.finish (s.coprocLoad two long cp crd rn a)) : Commands i s cp
    (s.checkCoprocBlock rn a s.answer.count >>= fun _ => s.coprocLoadWords two long cp crd rn a) :=
  hi.trans (congrArg s.finish State.coprocLoad_eq)

theorem Commands.of_coprocStore (hi : exec i s = s.finish (s.coprocStore two long cp crd rn a)) : Commands i s cp
    (s.checkCoprocBlock rn a s.answer.words.length >>= fun _ => s.coprocStoreWords two long cp crd rn a) :=
  hi.trans (congrArg s.finish State.coprocStore_eq)

/-- Any instruction that loads for a coprocessor, once the command is accepted. -/
theorem CoprocLoads.of_rule (hi : exec i s = s.finish (s.checkCoprocBlock rn a s.answer.count >>= fun _ =>
    s.coprocLoadWords two long cp crd rn a)) : CoprocLoads i s two long cp crd rn a := by
  refine ⟨.of_coprocBase hi, fun hb => ⟨.of_coprocMisaligned hi hb, .of_coprocMisaligned hi hb, .of_coprocWrap hi hb,
    fun ha hf hp => ?abort, fun ha hf hp hw => ?unwritten, fun ha hf hp hw hg => ?done⟩⟩
  case abort =>
    refine .of_rule (exec_of_coprocBlock_ok hi hb ha hf) ?_
    rw [State.coprocLoadWords, State.readWords_abort hp, bind_error]
  case unwritten =>
    refine exec_fault_of_rule (exec_of_coprocBlock_ok hi hb ha hf) ?_
    rw [State.coprocLoadWords, State.readWords_unwritten hp hw, bind_error]
  case done =>
    obtain ⟨words, hwords, hlen, hvals⟩ := State.readWords_ok hp hw
    have hload := exec_of_coprocBlock_ok hi hb ha hf
    rw [State.coprocLoadWords, hwords, bind_ok] at hload
    refine (Completes.of_coprocDone (lo := 0#32) (n := 0) hload rfl (fun _ _ => rfl) hb hg).mono
      fun t ⟨hmem, _, hrecord, hbase, hpc, hregs, _, hrest⟩ =>
        ⟨⟨words, hlen, fun j v hv => ?_, hrecord⟩, hbase, hpc, hregs, .of_mem hmem, hrest⟩
    obtain ⟨w, hw', hword⟩ := hvals j (hlen ▸ (List.getElem?_eq_some_iff.mp hv).1)
    exact hword.trans (hw'.symm.trans hv)

/-- Any instruction that stores for a coprocessor, once the command is accepted. -/
theorem CoprocStores.of_rule (hi : exec i s = s.finish (s.checkCoprocBlock rn a s.answer.words.length >>= fun _ =>
    s.coprocStoreWords two long cp crd rn a)) : CoprocStores i s two long cp crd rn a := by
  refine ⟨.of_coprocBase hi, fun hb => ⟨.of_coprocMisaligned hi hb, .of_coprocMisaligned hi hb, .of_coprocWrap hi hb,
    fun ha hf hp => ?abort, fun ha hf hp hg => ?done⟩⟩
  case abort =>
    refine .of_rule (exec_of_coprocBlock_ok hi hb ha hf) ?_
    rw [State.coprocStoreWords, State.writeWords_abort hp, bind_error]
  case done =>
    have hstore := exec_of_coprocBlock_ok hi hb ha hf
    rw [State.coprocStoreWords, State.writeWords_ok hp, bind_ok] at hstore
    refine (Completes.of_coprocDone hstore (State.setWords_frame ..) (s.memKept_setWords hf) hb hg).mono
      fun t ⟨hmem, hcfg, hrest⟩ => ⟨fun j v hv => ?_, hrest⟩
    rw [State.word_congr hmem hcfg]
    exact s.wordsAt_setWords _ _ hf j v hv

theorem Takes.of_coprocLoad (hi : exec i s = s.finish (s.coprocLoad two long cp crd rn a))
    (h : ¬(s.coprocPresent cp = true ∧ s.answer.accept = true)) : Takes i s .undefined :=
  (Commands.of_coprocLoad hi).takes_undefined h

theorem Takes.of_coprocStore (hi : exec i s = s.finish (s.coprocStore two long cp crd rn a))
    (h : ¬(s.coprocPresent cp = true ∧ s.answer.accept = true)) : Takes i s .undefined :=
  (Commands.of_coprocStore hi).takes_undefined h

theorem CoprocLoads.of_coprocLoad (hi : exec i s = s.finish (s.coprocLoad two long cp crd rn a))
    (hp : s.coprocPresent cp = true) (ha : s.answer.accept = true) : CoprocLoads i s two long cp crd rn a :=
  .of_rule ((Commands.of_coprocLoad hi).exec_eq hp ha)

theorem CoprocStores.of_coprocStore (hi : exec i s = s.finish (s.coprocStore two long cp crd rn a))
    (hp : s.coprocPresent cp = true) (ha : s.answer.accept = true) : CoprocStores i s two long cp crd rn a :=
  .of_rule ((Commands.of_coprocStore hi).exec_eq hp ha)

end

/-! ### The eight instructions -/

section
variable {cond : Cond} {u long w : Bool} {rn : Reg} {crd cp : BitVec 4} {offset8 : BitVec 8} {s : State}

theorem exec_ldc2Pre_eq : exec (.ldc2Pre u long w rn crd cp offset8) s = s.finish (s.coprocLoad true long cp crd rn
    (s.addressForm true u w rn (BitVec.ofNat 32 (4 * offset8.toNat)))) := by
  rw [exec_ldc2Pre, execLdc2Pre, State.always_eq, coprocOffset_eq]

theorem exec_ldc2Post_eq : exec (.ldc2Post u long rn crd cp offset8) s = s.finish (s.coprocLoad true long cp crd rn
    (s.addressForm false u true rn (BitVec.ofNat 32 (4 * offset8.toNat)))) := by
  rw [exec_ldc2Post, execLdc2Post, State.always_eq, coprocOffset_eq]

theorem exec_stc2Pre_eq : exec (.stc2Pre u long w rn crd cp offset8) s = s.finish (s.coprocStore true long cp crd rn
    (s.addressForm true u w rn (BitVec.ofNat 32 (4 * offset8.toNat)))) := by
  rw [exec_stc2Pre, execStc2Pre, State.always_eq, coprocOffset_eq]

theorem exec_stc2Post_eq : exec (.stc2Post u long rn crd cp offset8) s = s.finish (s.coprocStore true long cp crd rn
    (s.addressForm false u true rn (BitVec.ofNat 32 (4 * offset8.toNat)))) := by
  rw [exec_stc2Post, execStc2Post, State.always_eq, coprocOffset_eq]

variable (hc : s.cpsr.passed cond = true)
include hc

theorem exec_ldcPre_eq : exec (.ldcPre cond u long w rn crd cp offset8) s = s.finish (s.coprocLoad false long cp crd rn
    (s.addressForm true u w rn (BitVec.ofNat 32 (4 * offset8.toNat)))) := by
  rw [exec_ldcPre, execLdcPre, State.ifPassed_true hc, coprocOffset_eq]

theorem exec_ldcPost_eq : exec (.ldcPost cond u long rn crd cp offset8) s = s.finish (s.coprocLoad false long cp crd rn
    (s.addressForm false u true rn (BitVec.ofNat 32 (4 * offset8.toNat)))) := by
  rw [exec_ldcPost, execLdcPost, State.ifPassed_true hc, coprocOffset_eq]

theorem exec_stcPre_eq : exec (.stcPre cond u long w rn crd cp offset8) s = s.finish (s.coprocStore false long cp crd rn
    (s.addressForm true u w rn (BitVec.ofNat 32 (4 * offset8.toNat)))) := by
  rw [exec_stcPre, execStcPre, State.ifPassed_true hc, coprocOffset_eq]

theorem exec_stcPost_eq : exec (.stcPost cond u long rn crd cp offset8) s =
    s.finish (s.coprocStore false long cp crd rn
      (s.addressForm false u true rn (BitVec.ofNat 32 (4 * offset8.toNat)))) := by
  rw [exec_stcPost, execStcPost, State.ifPassed_true hc, coprocOffset_eq]

end

/-- Settles O42: the eight instructions are two rules at two address forms; each rule is a command, the shared tests,
and an access to a block. -/
theorem coprocessorLoadsAndStores : Obligations.CoprocessorLoadsAndStores := by
  intro cond u long w rn crd cp offset8 s hc off pre post
  refine ⟨fun h => ?undefined, fun hp ha => ?accepted⟩
  case undefined =>
    simp only [List.forall_mem_cons]
    exact ⟨.of_coprocLoad (exec_ldcPre_eq hc) h, .of_coprocLoad (exec_ldcPost_eq hc) h,
      .of_coprocLoad exec_ldc2Pre_eq h, .of_coprocLoad exec_ldc2Post_eq h, .of_coprocStore (exec_stcPre_eq hc) h,
      .of_coprocStore (exec_stcPost_eq hc) h, .of_coprocStore exec_stc2Pre_eq h, .of_coprocStore exec_stc2Post_eq h,
      fun _ hnil => absurd hnil List.not_mem_nil⟩
  case accepted =>
    exact ⟨.of_coprocLoad (exec_ldcPre_eq hc) hp ha, .of_coprocLoad (exec_ldcPost_eq hc) hp ha,
      .of_coprocLoad exec_ldc2Pre_eq hp ha, .of_coprocLoad exec_ldc2Post_eq hp ha,
      .of_coprocStore (exec_stcPre_eq hc) hp ha, .of_coprocStore (exec_stcPost_eq hc) hp ha,
      .of_coprocStore exec_stc2Pre_eq hp ha, .of_coprocStore exec_stc2Post_eq hp ha⟩

end Sys2Proof.Machine
end

section
/-! ## MRS and MSR (45_arm_misc_and_pseudo.md R361 to R364; 10_state.md R31, R38) -/

namespace Sys2Proof.Machine

/-! ### A status register as a word (R31) -/

/-- The bits of the flags and of the masks; for T and the mode see `Psr.toWord_t` and `Psr.toWord_m`. -/
theorem Psr.toWord_flags (p : Psr) : p.toWord.getLsbD 31 = p.n ∧ p.toWord.getLsbD 30 = p.z ∧
    p.toWord.getLsbD 29 = p.c ∧ p.toWord.getLsbD 28 = p.v ∧ p.toWord.getLsbD 27 = p.q ∧
    p.toWord.getLsbD 7 = p.i ∧ p.toWord.getLsbD 6 = p.f := by
  simp only [Psr.toWord, BitVec.getLsbD_append, Nat.reduceLT, Nat.reduceSub, if_true, if_false, bit1_getLsbD_0,
    bit3_getLsbD_1, bit3_getLsbD_2, bit4_getLsbD_0, bit4_getLsbD_1, bit4_getLsbD_2, bit4_getLsbD_3, and_self]

theorem Psr.toWord_reserved (p : Psr) : p.toWord.extractLsb' 8 19 = 0#19 := by
  refine BitVec.eq_of_getLsbD_eq fun i hi => ?_
  simp only [Psr.toWord, BitVec.getLsbD_extractLsb', BitVec.getLsbD_append]
  interval_cases i <;> simp

/-! ### MSR writes the selected bytes (R362) -/

theorem mergeBits_getLsbD_eq (old v mask : Word) (i : Nat) :
    (mergeBits old v mask).getLsbD i = if mask.getLsbD i then v.getLsbD i else old.getLsbD i := by
  cases h : mask.getLsbD i
  · exact mergeBits_getLsbD h
  · simp [mergeBits, h]

/-- The flags byte is under the mask of MSR when its field is selected, in every mode. -/
theorem msrMask_getLsbD_flags (fields : BitVec 4) (p : Bool) {i : Nat} (hlo : 24 ≤ i) (hi : i < 32) :
    (if p then psrMask fields else psrMask fields &&& 0xFF000000#32).getLsbD i = fields.getLsbD 3 := by
  revert fields p
  interval_cases i <;> decide

section
variable {p : Psr} {a : Arch} {v mask : Word} {flags control : Bool}

/-- The mode written is that of the value, or the old one. -/
theorem mergeBits_mode (hc : ∀ i < 8, mask.getLsbD i = control) :
    (mergeBits p.toWord v mask).extractLsb' 0 5 = if control then v.extractLsb' 0 5 else p.m := by
  cases control
  · exact (mergeBits_control p v hc).2
  · refine BitVec.eq_of_getLsbD_eq fun i hi => ?_
    rw [if_pos rfl, BitVec.getLsbD_extractLsb', BitVec.getLsbD_extractLsb', Nat.zero_add,
      mergeBits_getLsbD_eq, hc i (by omega), if_pos rfl]

/-- A mask that covers the flags byte and the control byte, or not, writes what `Psr.written` says; what it covers
between them is reserved. -/
theorem Psr.ofWord_mergeBits (hf : ∀ i, 24 ≤ i → i < 32 → mask.getLsbD i = flags)
    (hc : ∀ i < 8, mask.getLsbD i = control) :
    Psr.ofWord a (mergeBits p.toWord v mask) = p.written a flags control v := by
  obtain ⟨hn, hz, hcarry, hv, hq, hi, hfiq⟩ := p.toWord_flags
  have hflag (i : Nat) (hlo : 24 ≤ i) (hi : i < 32) := hf i hlo hi ▸ mergeBits_getLsbD_eq p.toWord v mask i
  have hcontrol (i : Nat) (hi : i < 8) := hc i hi ▸ mergeBits_getLsbD_eq p.toWord v mask i
  simp only [Psr.ofWord, Psr.written, mergeBits_mode hc, hflag, hcontrol, Nat.reduceLeDiff, Nat.reduceLT, hn, hz,
    hcarry, hv, hq, hi, hfiq, p.toWord_t]

end

/-! ### The rule of MSR for each status register -/

section
variable (s : State) (fields : BitVec 4) (v : Word)

theorem State.writePsr_spsr : s.writePsr true fields v = forbid (!s.hasSpsr) .noSpsr >>= fun _ =>
    (s.setSpsr (s.spsr.written s.cfg.arch (fields.getLsbD 3) (fields.getLsbD 0) v)).advance := by
  have hmask := Psr.ofWord_mergeBits (p := s.spsr) (a := s.cfg.arch) (v := v)
    (fun i => msrMask_getLsbD_flags fields true) (fun i => msrMask_getLsbD fields true)
  rw [if_pos rfl, Bool.and_true] at hmask
  rw [State.writePsr, if_pos rfl, hmask]

/-- Without the control byte neither test is made; with it both are of the value itself. -/
theorem State.writePsr_cpsr : s.writePsr false fields v =
    forbid (fields.getLsbD 0 && s.privileged && s.cfg.arch.thumb && v.getLsbD 5 != s.cpsr.t) .msrState >>= fun _ =>
      forbid (fields.getLsbD 0 && s.privileged && !modeLegal s.cfg.arch (v.extractLsb' 0 5)) .illegalMode >>= fun _ =>
        (s.setCpsr (s.cpsr.written s.cfg.arch (fields.getLsbD 3) (fields.getLsbD 0 && s.privileged) v)).advance := by
  have hcontrol : ∀ i < 8, _ := fun i => msrMask_getLsbD fields s.privileged
  rw [State.writePsr, if_neg Bool.false_ne_true]
  simp only [Psr.ofWord_mergeBits (fun i => msrMask_getLsbD_flags fields s.privileged) hcontrol,
    mergeBits_mode hcontrol, mergeBits_getLsbD_eq, hcontrol 5 (by decide)]
  cases fields.getLsbD 0 && s.privileged <;> simp

end

/-! ### The outcome of MSR -/

theorem State.setSpsr_pc (s : State) (p : Psr) : (s.setSpsr p).pc = s.pc := by
  unfold State.setSpsr State.setSpsrOf
  split <;> rfl

theorem State.setSpsr_cpsr (s : State) (p : Psr) : (s.setSpsr p).cpsr = s.cpsr := by
  unfold State.setSpsr State.setSpsrOf
  split <;> rfl

theorem State.advance_setSpsr {s : State} {p : Psr} (hg : s.CanGoOn) :
    (s.setSpsr p).advance = .ok ((s.setSpsr p).setPc s.next) :=
  State.advance_of (s.setSpsr_pc p) (congrArg Psr.t (s.setSpsr_cpsr p)) hg

/-- The size of an instruction is that of the state after, so the pc moves on by `s.next` only if T is as before. -/
theorem State.advance_setCpsr {s : State} {p : Psr} (ht : p.t = s.cpsr.t) (hg : s.CanGoOn) :
    (s.setCpsr p).advance = .ok ((s.setCpsr p).setPc s.next) := State.advance_of rfl ht hg

/-- T is as before, where it is legal and the control byte written, if any, has it so. -/
theorem Psr.written_t {s : State} {flags control : Bool} {v : Word} (hlegal : s.thumbLegal)
    (ht : control = true → s.cfg.arch.thumb = true → v.getLsbD 5 = s.cpsr.t) :
    (s.cpsr.written s.cfg.arch flags control v).t = s.cpsr.t := by
  cases hthumb : s.cfg.arch.thumb
  · have harm : s.cpsr.t = false := Bool.eq_false_iff.mpr fun h => Bool.false_ne_true (hthumb.symm.trans (hlegal h))
    rw [Psr.written, hthumb, Bool.and_false, harm]
  · simp only [Psr.written, hthumb, Bool.and_true]
    split
    · exact ht ‹_› hthumb
    · rfl

/-- A requirement that is made where `c` holds, and is met there, forbids nothing. -/
theorem and_not_eq_false {c b : Bool} (h : c = true → b = true) : (c && !b) = false := by
  cases c
  · rfl
  · rw [h rfl]; rfl

/-- An instruction with the rule of MSR does what the statement says, where T is legal. -/
theorem State.MsrDoes.of_writePsr {i : Instr} {s : State} {r : Bool} {fields : BitVec 4} {v : Word}
    (hi : exec i s = s.finish (s.writePsr r fields v)) (hlegal : s.thumbLegal) : s.MsrDoes i r fields v := by
  cases r with
  | true =>
    rw [State.writePsr_spsr] at hi
    refine ⟨fun h => .of_finish hi (ruleFaults_forbid_bind.mpr (.inl (by rw [h]; rfl))), fun h hg => ?_⟩
    rw [hi, bind_of_ok (forbid_of_not (by rw [h]; rfl) _), State.advance_setSpsr hg, State.finish_ok]
  | false =>
    rw [State.writePsr_cpsr] at hi
    refine ⟨fun hc h => .of_finish hi ?fault, fun h hg => ?next⟩
    case fault =>
      rw [ruleFaults_forbid_bind, ruleFaults_forbid_bind, hc]
      obtain ⟨hthumb, ht⟩ | hm := h
      · exact .inl (by rw [hthumb]; exact bne_iff_ne.mpr ht)
      · exact .inr (.inl (by simp [hm]))
    case next =>
      have hstate : (fields.getLsbD 0 && s.privileged && s.cfg.arch.thumb && v.getLsbD 5 != s.cpsr.t) = false := by
        by_contra hne
        simp only [Bool.not_eq_false, Bool.and_eq_true, bne_iff_ne] at hne
        obtain ⟨⟨hc, hthumb⟩, ht⟩ := hne
        exact ht ((h (Bool.and_eq_true_iff.mpr hc)).1 hthumb)
      have hmode : (fields.getLsbD 0 && s.privileged && !modeLegal s.cfg.arch (v.extractLsb' 0 5)) = false :=
        and_not_eq_false fun hc => (h hc).2
      rw [hi, bind_of_ok (forbid_of_not hstate _), bind_of_ok (forbid_of_not hmode _),
        State.advance_setCpsr (Psr.written_t hlegal fun hc => (h hc).1) hg, State.finish_ok]

/-! ### The instructions -/

section
variable {cond : Cond} {r : Bool} {rd rm : Reg} {fields rot : BitVec 4} {imm8 : BitVec 8} {s : State}

theorem exec_mrs_eq : exec (.mrs cond r rd) s = s.ifPassed cond fun s =>
    forbid (isPc rd) .forbiddenPc >>= fun _ => forbid (r && !s.hasSpsr) .noSpsr >>= fun _ =>
      (s.setReg rd (if r then s.spsr else s.cpsr).toWord).advance := rfl

theorem exec_msrReg_eq : exec (.msrReg cond r fields rm) s = s.ifPassed cond fun s =>
    forbid (isPc rm) .forbiddenPc >>= fun _ => s.writePsr r fields (s.reg rm) := rfl

theorem exec_msrImm_eq : exec (.msrImm cond r fields rot imm8) s = s.ifPassed cond fun s =>
    s.writePsr r fields (s.op2Imm rot imm8).value := rfl

variable (hc : s.cpsr.passed cond = true)
include hc

theorem mrs_faults (h : rd = 15#4 ∨ (r = true ∧ s.hasSpsr = false)) : Faults (.mrs cond r rd) s := by
  obtain hd | ⟨hr, hs⟩ := h
  · exact .of_check exec_mrs_eq hc (by rw [hd, isPc_pc])
  · exact .of_check_or_rule exec_mrs_eq hc (.inr (ruleFaults_forbid_bind.mpr (.inl (by rw [hr, hs]; rfl))))

theorem mrs_writesReg (hd : rd ≠ 15#4) (hs : r = true → s.hasSpsr = true) (hg : s.CanGoOn) :
    WritesReg (.mrs cond r rd) s rd (if r then s.spsr else s.cpsr).toWord s.cpsr.nzcv := by
  refine writesReg_of_plain hd ?_
  rw [exec_of_check exec_mrs_eq hc (isPc_false hd), bind_of_ok (forbid_of_not (and_not_eq_false hs) _),
    State.advance_setReg hg, State.finish_ok]

end

/-- What O40 says holds of every state in which T is legal, and so of every state that meets the invariant; MRS needs
not even that. -/
theorem statusRegisterMoves_of_thumbLegal :
    (∀ (cond : Cond) (r : Bool) (rd : Reg) (s : State), s.cpsr.passed cond = true →
      (rd = 15#4 ∨ (r = true ∧ s.hasSpsr = false) → Faults (.mrs cond r rd) s) ∧
      (rd ≠ 15#4 → (r = true → s.hasSpsr = true) → s.CanGoOn → Completes (.mrs cond r rd) s fun t =>
        let v := t.reg rd
        let p := if r then s.spsr else s.cpsr
        v.getLsbD 31 = p.n ∧ v.getLsbD 30 = p.z ∧ v.getLsbD 29 = p.c ∧ v.getLsbD 28 = p.v ∧ v.getLsbD 27 = p.q ∧
          v.extractLsb' 8 19 = 0#19 ∧ v.getLsbD 7 = p.i ∧ v.getLsbD 6 = p.f ∧ v.getLsbD 5 = p.t ∧
          v.extractLsb' 0 5 = p.m ∧ s.FlagsKept t ∧ s.GoesOn t [rd])) ∧
    (∀ (cond : Cond) (r : Bool) (fields rot : BitVec 4) (imm8 : BitVec 8) (rm : Reg) (s : State),
      s.cpsr.passed cond = true → s.thumbLegal →
      (rm = 15#4 → Faults (.msrReg cond r fields rm) s) ∧
      (rm ≠ 15#4 → s.MsrDoes (.msrReg cond r fields rm) r fields (s.reg rm)) ∧
      s.MsrDoes (.msrImm cond r fields rot imm8) r fields (s.op2Imm rot imm8).value) := by
  refine ⟨fun cond r rd s hc => ⟨mrs_faults hc, fun hd hs hg => ?mrs⟩, fun cond r fields rot imm8 rm s hc hlegal =>
    ⟨fun hm => .of_check exec_msrReg_eq hc (by rw [hm, isPc_pc]), fun hm => ?msrReg, ?msrImm⟩⟩
  case mrs =>
    refine (mrs_writesReg hc hd hs hg).mono fun t ⟨hv, hflags, hgoes⟩ => ?_
    generalize (if r then s.spsr else s.cpsr) = p at hv ⊢
    obtain ⟨hn, hz, hcarry, hov, hq, hi, hf⟩ := p.toWord_flags
    rw [hv]
    exact ⟨hn, hz, hcarry, hov, hq, p.toWord_reserved, hi, hf, p.toWord_t, p.toWord_m, hflags, hgoes⟩
  case msrReg =>
    exact .of_writePsr (exec_of_check exec_msrReg_eq hc (isPc_false hm)) hlegal
  case msrImm =>
    exact .of_writePsr (exec_msrImm_eq.trans (State.ifPassed_true hc _)) hlegal

/-! ### MSR in a state that the processor cannot be in -/

/-- T is set on a processor without Thumb. R24 has no such state and no step brings one about (`State.Inv`), but O40
does not leave it out. -/
def thumbStateWithoutThumb : State :=
  { State.reset with
    cpsr := { Psr.reset with t := true }
    cfg := { Config.default with arch := { Arch.full with thumb := false } } }

/-- MSR of no field drops T here, as a reserved bit (R38), and the pc moves on by the size of an ARM instruction. -/
theorem exec_msr_thumbStateWithoutThumb : exec (.msrImm .al false 0#4 0#4 0#8) thumbStateWithoutThumb =
    .next ((thumbStateWithoutThumb.setCpsr Psr.reset).setPc 4#32) := rfl

/-- Refutes O40: the statement moves the pc on by the instruction size of the state before MSR, the model by that of the
state after it. Where T is set without Thumb these are two and four; wherever T is legal they are the same, and all that
O40 says holds (`statusRegisterMoves_of_thumbLegal`). -/
theorem not_statusRegisterMoves : ¬ Obligations.StatusRegisterMoves := by
  intro ⟨_, hmsr⟩
  obtain ⟨_, _, himm⟩ := hmsr .al false 0#4 0#4 0#8 0#4 thumbStateWithoutThumb rfl
  obtain ⟨_, hnext⟩ : _ ∧ _ := himm
  have hstate := hnext (fun hcontrol => absurd hcontrol (by decide)) (by decide)
  rw [exec_msr_thumbStateWithoutThumb, Host.Outcome.next.injEq] at hstate
  exact absurd (congrArg State.pc hstate) (by decide)

end Sys2Proof.Machine
end

section
/-! ## SWI, BKPT, the unallocated encodings and PLD (45_arm_misc_and_pseudo.md R360, R365; 48_thumb_branch_swi_pseudo.md
R457, R458; 30_encoding.md R117, R134; 40_arm_memory_access.md R256) -/

namespace Sys2Proof.Machine

/-! ### SWI: the semihosting call is the one with its number, its parameter and its operation in r0 (R15) -/

theorem State.softwareInterrupt_iff {s : State} {b : Bool} :
    (s.cfg.semihosting && b && s.reg 0#4 == 0x18#32) = true ↔
      (s.cfg.semihosting = true ∧ s.reg 0#4 = 0x18#32) ∧ b = true := by
  simp only [Bool.and_eq_true, beq_iff_eq, and_right_comm]

section
variable {i : Instr} {s : State} {n : Nat} {imm number : BitVec n}
  (hi : exec i s = s.finish (s.softwareInterrupt (imm == number)))
include hi

theorem exec_softwareInterrupt_exits
    (h : (s.cfg.semihosting = true ∧ s.reg 0#4 = 0x18#32) ∧ imm = number) :
    exec i s = .next { s with exited := some (s.reg 1#4) } := by
  rw [hi, State.softwareInterrupt, if_pos (State.softwareInterrupt_iff.mpr (h.imp_right beq_iff_eq.mpr)),
    State.finish_ok]

theorem Takes.of_softwareInterrupt
    (h : ¬((s.cfg.semihosting = true ∧ s.reg 0#4 = 0x18#32) ∧ imm = number)) : Takes i s .swi :=
  .of_rule hi (if_neg fun hb => h ((State.softwareInterrupt_iff.mp hb).imp_right beq_iff_eq.mp))

end

/-! ### BKPT: the parameter decides (R365, R458, R608) -/

section
variable {i : Instr} {s : State} {imm : BitVec 16} (hi : exec i s = s.finish (s.breakpoint imm))
include hi

theorem Takes.of_breakpoint (h : s.cfg.bkpt = .prefetchAbort) : Takes i s .prefetchAbort :=
  .of_rule hi (by rw [State.breakpoint, h]; rfl)

theorem exec_breakpoint_stops (h : s.cfg.bkpt = .debugStop) : exec i s = .fault (.breakpoint imm) :=
  exec_fault_of_rule hi (by rw [State.breakpoint, h]; rfl)

end

theorem exec_bkpt_eq (cond : Cond) (immHi : BitVec 12) (immLo : BitVec 4) (s : State) :
    exec (.bkpt cond immHi immLo) s = s.ifPassed cond fun s =>
      forbid (cond != .al) .conditionalBreakpoint >>= fun _ => s.breakpoint (immHi ++ immLo) := rfl

/-! ### PLD (R256) -/

section
variable {u : Bool} {rn rm : Reg} {imm12 : BitVec 12} {n : BitVec 5} {shift : ShiftType} {s : State}

theorem exec_pldReg_eq : exec (.pldReg u rn n shift rm) s =
    s.finish (forbid (isPc rm) .forbiddenPc >>= fun _ => s.advance) := rfl

theorem exec_pldImm_next (hg : s.CanGoOn) : exec (.pldImm u rn imm12) s = .next (s.setPc s.next) := by
  rw [exec_pldImm, execPldImm, State.always_eq, State.advance_ok hg, State.finish_ok]

theorem exec_pldReg_next (hm : rm ≠ 15#4) (hg : s.CanGoOn) :
    exec (.pldReg u rn n shift rm) s = .next (s.setPc s.next) := by
  rw [exec_pldReg_eq, bind_of_ok (forbid_of_not (isPc_false hm) _), State.advance_ok hg, State.finish_ok]

end

/-- Settles O39: the forms of both states share a rule; the unallocated encodings raise their exception, and PLD is a
move of the pc. -/
theorem softwareInterruptBreakpointAndHint : Obligations.SoftwareInterruptBreakpointAndHint := by
  refine ⟨fun cond imm24 imm8 s => ?swi, fun cond immHi immLo imm8 s => ?bkpt, fun bits imm8 s => ⟨rfl, rfl⟩,
    fun u rn rm imm12 n shift s => ?pld⟩
  case swi =>
    have harm (hc : s.cpsr.passed cond = true) :
        exec (.swi cond imm24) s = s.finish (s.softwareInterrupt (imm24 == 0x123456#24)) :=
      State.ifPassed_true hc fun s => s.softwareInterrupt (imm24 == 0x123456#24)
    have hthumb : exec (.tSwi imm8) s = s.finish (s.softwareInterrupt (imm8 == 0xAB#8)) := rfl
    exact ⟨fun hc => ⟨exec_softwareInterrupt_exits (harm hc), .of_softwareInterrupt (harm hc)⟩,
      exec_softwareInterrupt_exits hthumb, .of_softwareInterrupt hthumb⟩
  case bkpt =>
    have harm := exec_of_check (exec_bkpt_eq .al immHi immLo s) rfl rfl
    have hthumb : exec (.tBkpt imm8) s = s.finish (s.breakpoint (imm8.zeroExtend 16)) := rfl
    exact ⟨fun hc hne => .of_check (exec_bkpt_eq cond immHi immLo s) hc (bne_iff_ne.mpr hne),
      fun h => ⟨.of_breakpoint harm h, .of_breakpoint hthumb h⟩,
      fun h => ⟨exec_breakpoint_stops harm h, exec_breakpoint_stops hthumb h⟩⟩
  case pld =>
    exact ⟨fun hm => .of_finish exec_pldReg_eq (ruleFaults_forbid_bind.mpr (.inl (by rw [hm, isPc_pc]))),
      fun hg => ⟨exec_pldImm_next hg, fun hm => exec_pldReg_next hm hg⟩⟩

end Sys2Proof.Machine
end

section
/-! ## The Thumb single transfers (46_thumb_memory_access.md R380 to R397) -/

namespace Sys2Proof.Machine

theorem lowReg_ne_pc (r : LowReg) : lowReg r ≠ 15#4 := by
  revert r
  decide

/-! ### The tests that all of them share: alignment, then access (R380, R80) -/

/-- A rule that goes on after the address is found aligned and the access allowed. -/
def State.lowAccess (s : State) (a mask : Word) (n : Nat) (k : Access) (rule : Except Trap State) :
    Except Trap State := do
  s.checkAligned a mask
  s.checkAllowed a n k s.privileged
  rule

section
variable {i : Instr} {s u : State} {rd : LowReg} {a mask : Word} {n : Nat} {k : Access} {rule : Except Trap State}

theorem exec_of_lowAccess (hi : exec i s = s.finish (s.lowAccess a mask n k rule)) (ha : a &&& mask = 0#32)
    (hp : s.allowed a n k s.privileged = true) : exec i s = s.finish rule := by
  rw [hi, State.lowAccess, bind_of_ok (State.checkAligned_ok ha), bind_of_ok (State.checkAllowed_ok hp)]

theorem Takes.of_lowAccess_refused (hi : exec i s = s.finish (s.lowAccess a mask n k rule)) (ha : a &&& mask = 0#32)
    (hp : s.allowed a n k s.privileged = false) : Takes i s .dataAbort :=
  .of_rule hi (by rw [State.lowAccess, bind_of_ok (State.checkAligned_ok ha), State.checkAllowed_abort hp, bind_error])

theorem Takes.of_lowAccess_misaligned (hi : exec i s = s.finish (s.lowAccess a mask n k rule))
    (ha : a &&& mask ≠ 0#32) (hc : s.cfg.alignCheck = true) : Takes i s .dataAbort :=
  .of_rule hi (by rw [State.lowAccess, State.checkAligned_abort ha hc, bind_error])

theorem exec_lowAccess_misaligned (hi : exec i s = s.finish (s.lowAccess a mask n k rule)) (ha : a &&& mask ≠ 0#32)
    (hc : s.cfg.alignCheck = false) : exec i s = .fault .misaligned :=
  exec_fault_of_rule hi (by rw [State.lowAccess, State.checkAligned_fault ha hc, bind_error])

/-! ### Loads: the five read operations as one rule, over the value that Rd is to take -/

/-- The load of a low register: the value that memory has, if it has one, then the pc moves on. -/
def State.loadLow (s : State) (rd : LowReg) (a mask : Word) (n : Nat) (value : Option Word) : Except Trap State :=
  s.lowAccess a mask n .read (orUnwritten value >>= fun v => (s.setReg (lowReg rd) v).advance)

theorem ThumbLoads.of_loadLow {value : Option Word} (hi : exec i s = s.finish (s.loadLow rd a mask n value)) :
    ThumbLoads i s rd a mask n value := by
  refine ⟨fun v ha hp hv hg => writesReg_of_plain (lowReg_ne_pc rd) ?loaded, fun ha hp hv => ?unwritten,
    .of_lowAccess_refused hi, .of_lowAccess_misaligned hi, exec_lowAccess_misaligned hi⟩
  case loaded =>
    rw [exec_of_lowAccess hi ha hp, hv, orUnwritten_some, bind_ok, State.advance_setReg hg, State.finish_ok]
  case unwritten => rw [exec_of_lowAccess hi ha hp, hv, orUnwritten_none, bind_error, State.finish_fault]

/-- Extending the value read is reading the extended value. -/
theorem orUnwritten_map {α β γ : Type} (o : Option α) (f : α → β) (g : β → Except Trap γ) :
    (orUnwritten (o.map f) >>= g) = orUnwritten o >>= fun v => g (f v) := by
  cases o <;> rfl

/-- Every address is aligned for a byte. -/
theorem State.checkAligned_byte (s : State) (a : Word) : s.checkAligned a 0#32 = .ok () :=
  State.checkAligned_ok BitVec.and_zero

theorem ThumbLoads.word (hi : exec i s = s.finish (s.loadLowWord rd a)) :
    ThumbLoads i s rd a 3#32 4 (s.word a) :=
  .of_loadLow (hi.trans (by simp only [State.loadLowWord, State.readWord, State.loadLow, State.lowAccess, bind_assoc]))

theorem ThumbLoads.half (hi : exec i s = s.finish (s.loadLowHalf rd a)) :
    ThumbLoads i s rd a 1#32 2 ((s.half a).map (·.zeroExtend 32)) :=
  .of_loadLow (hi.trans (by
    simp only [State.loadLowHalf, State.readHalf, State.loadLow, State.lowAccess, bind_assoc, orUnwritten_map]))

theorem ThumbLoads.signedHalf (hi : exec i s = s.finish (s.loadLowSignedHalf rd a)) :
    ThumbLoads i s rd a 1#32 2 ((s.half a).map (·.signExtend 32)) :=
  .of_loadLow (hi.trans (by
    simp only [State.loadLowSignedHalf, State.readHalf, State.loadLow, State.lowAccess, bind_assoc, orUnwritten_map]))

theorem ThumbLoads.byte (hi : exec i s = s.finish (s.loadLowByte rd a)) :
    ThumbLoads i s rd a 0#32 1 ((s.byte a).map (·.zeroExtend 32)) :=
  .of_loadLow (hi.trans (by
    simp only [State.loadLowByte, State.readByte, State.loadLow, State.lowAccess, bind_assoc, orUnwritten_map,
      State.checkAligned_byte, bind_ok]))

theorem ThumbLoads.signedByte (hi : exec i s = s.finish (s.loadLowSignedByte rd a)) :
    ThumbLoads i s rd a 0#32 1 ((s.byte a).map (·.signExtend 32)) :=
  .of_loadLow (hi.trans (by
    simp only [State.loadLowSignedByte, State.readByte, State.loadLow, State.lowAccess, bind_assoc, orUnwritten_map,
      State.checkAligned_byte, bind_ok]))

/-! ### Stores: the three write operations as one rule, over the state with the bytes written -/

/-- An allowed write, then the rest of the rule. -/
theorem State.write_bind {size : Nat} {p : Bool} (rest : State → Except Trap State) :
    ((if s.allowed a size .write p = true then .ok u else raise .dataAbort) >>= rest) =
      s.checkAllowed a size .write p >>= fun _ => rest u := by
  unfold State.checkAllowed
  split <;> rfl

/-- `u` is the state after the write; what holds of its memory holds at the end. -/
theorem ThumbStores.of_lowAccess {holds : State → Prop}
    (hi : exec i s = s.finish (s.lowAccess a mask n .write u.advance)) (hu : u = { s with mem := u.mem })
    (ho : s.MemKeptOutside u a n) (hh : ∀ t : State, t.mem = u.mem → t.cfg = u.cfg → holds t) :
    ThumbStores i s a mask n holds := by
  refine ⟨fun ha hp hg => ?_, .of_lowAccess_refused hi, .of_lowAccess_misaligned hi, exec_lowAccess_misaligned hi⟩
  have hstore := Completes.of_store (a := { addr := a, target := a, writeback := false }) (rn := 15#4)
    (exec_of_lowAccess hi ha hp) hu ho nofun hg
  exact hstore.mono fun t ⟨hmem, hcfg, _, hgoes⟩ => ⟨hh t hmem hcfg, hgoes⟩

theorem ThumbStores.word (hi : exec i s = s.finish (s.storeLowWord rd a)) :
    ThumbStores i s a 3#32 4 fun t => t.word a = some (s.reg (lowReg rd)) :=
  .of_lowAccess (u := s.setWord a (s.reg (lowReg rd)))
    (hi.trans (by simp only [State.storeLowWord, State.writeWord, State.write_bind, State.low, State.lowAccess]))
    (State.setWord_frame ..) (State.memKept_setWord _ _ _)
    fun _ hmem hcfg => (State.word_congr hmem hcfg a).trans (State.word_setWord ..)

theorem ThumbStores.half (hi : exec i s = s.finish (s.storeLowHalf rd a)) :
    ThumbStores i s a 1#32 2 fun t => t.half a = some ((s.reg (lowReg rd)).extractLsb' 0 16) :=
  .of_lowAccess (u := s.setHalf a ((s.reg (lowReg rd)).extractLsb' 0 16))
    (hi.trans (by simp only [State.storeLowHalf, State.writeHalf, State.write_bind, State.low, State.lowAccess]))
    (State.setHalf_frame ..) (State.memKept_setHalf _ _ _)
    fun _ hmem hcfg => (State.half_congr hmem hcfg a).trans (State.half_setHalf ..)

theorem ThumbStores.byte (hi : exec i s = s.finish (s.storeLowByte rd a)) :
    ThumbStores i s a 0#32 1 fun t => t.byte a = some ((s.reg (lowReg rd)).extractLsb' 0 8) :=
  .of_lowAccess (u := s.setByte a ((s.reg (lowReg rd)).extractLsb' 0 8))
    (hi.trans (by
      simp only [State.storeLowByte, State.writeByte, State.write_bind, State.low, State.lowAccess,
        State.checkAligned_byte, bind_ok]))
    (State.setByte_frame ..) (State.memKept_setByte _ _ _)
    fun _ hmem _ => (State.byte_congr hmem a).trans (State.byte_setByte_self ..)

end

/-- The offset of the byte forms is the field itself (R385, R386). -/
theorem zeroExtend_eq_ofNat_one_mul {n : Nat} (imm : BitVec n) :
    imm.zeroExtend 32 = BitVec.ofNat 32 (1 * imm.toNat) := by
  rw [Nat.one_mul, BitVec.ofNat_toNat]

/-- Settles O47: each instruction is one of eight operations at its address, written as the statement writes it but for
the offset of the byte forms. -/
theorem thumbSingleTransfers : Obligations.ThumbSingleTransfers := by
  refine ⟨fun imm5 imm8 rm rn rd s => ⟨.word rfl, .word rfl, .word rfl, .word rfl, .half rfl, .half rfl,
      .signedHalf rfl, .byte ?ldrb, .byte rfl, .signedByte rfl⟩,
    fun imm5 imm8 rm rn rd s => ⟨.word rfl, .word rfl, .word rfl, .half rfl, .half rfl, .byte ?strb, .byte rfl⟩⟩
  case ldrb => rw [exec_tLdrbImm, execTLdrbImm, State.always_eq, zeroExtend_eq_ofNat_one_mul, State.low]
  case strb => rw [exec_tStrbImm, execTStrbImm, State.always_eq, zeroExtend_eq_ofNat_one_mul, State.low]

end Sys2Proof.Machine
end

section
/-! ## PUSH and STMIA (46_thumb_memory_access.md R398, R401) -/

namespace Sys2Proof.Machine

section
variable {i : Instr} {s : State} {rn : Reg} {start v : Word} {ws : List Word} {n : Nat}

/-- A Thumb multiple store is the one of ARM that ascends from its base. -/
theorem State.storeLowBlock_eq (s : State) (start : Word) (ws : List Word) :
    s.storeLowBlock start ws = s.storeBlock false true start ws := rfl

/-- A rule that stores a block and then writes a register stops where the block does, and else leaves both. -/
theorem blockStops_and_completes_of_storeLowBlock (hn : ws.length = n) (hr : rn ≠ 15#4)
    (hi : exec i s = s.finish (s.storeLowBlock start ws >>= fun t => (t.setReg rn v).advance)) :
    BlockStops i s start (wordAddress start) n .write ∧
      (s.BlockOk start (wordAddress start) n .write → s.CanGoOn → Completes i s fun t =>
        t.WordsAt (wordAddress start) ws ∧ t.reg rn = v ∧ s.GoesOnStoring t [rn] (wordAddress start) (4 * n)) := by
  rw [State.storeLowBlock_eq] at hi
  refine ⟨.of_store hn hi, fun hok hg => ?_⟩
  have hstore := Completes.of_storeBlock (a := { addr := start, target := v, writeback := true }) hn hi hok
    (fun _ => hr) hg
  exact hstore.mono fun t ⟨hwords, hbase, hgoes⟩ => ⟨hwords, hbase rfl, hgoes⟩

end

section
variable {rn : LowReg} {r : Bool} {regs : BitVec 8} {s : State}

theorem exec_tPush_eq : exec (.tPush r regs) s = s.finish (forbid (pushList r regs).isEmpty .emptyList >>= fun _ =>
    s.storeLowBlock (s.reg 13#4 - BitVec.ofNat 32 (4 * (pushList r regs).length)) ((pushList r regs).map s.reg) >>=
      fun t => (t.setReg 13#4 (s.reg 13#4 - BitVec.ofNat 32 (4 * (pushList r regs).length))).advance) := rfl

theorem exec_tStmia_eq : exec (.tStmia rn regs) s = s.finish (forbid (regList regs).isEmpty .emptyList >>= fun _ =>
    forbid ((regList regs).contains (lowReg rn) && (regList regs).head? != some (lowReg rn)) .baseInList >>= fun _ =>
      s.storeLowBlock (s.reg (lowReg rn)) ((regList regs).map s.reg) >>= fun t =>
        (t.setReg (lowReg rn) (s.reg (lowReg rn) + BitVec.ofNat 32 (4 * (regList regs).length))).advance) := rfl

end

/-- A base in the list that is not its lowest register (R401). -/
theorem lowBaseNotFirst_iff {rn : Reg} {list : List Reg} :
    (list.contains rn && list.head? != some rn) = true ↔ rn ∈ list ∧ list.head? ≠ some rn := by
  rw [Bool.and_eq_true, List.contains_iff_mem, bne_iff_ne]

/-- Settles O48: after their tests both store a block that ascends from an address, and then write sp or the base. -/
theorem thumbStoreMultiple : Obligations.ThumbStoreMultiple := by
  refine ⟨fun r regs s => ⟨fun hl => ?noRegister, fun hl => ?push⟩, fun rn regs s => ⟨fun h => ?forbidden,
    fun hl hb => ?stmia⟩⟩
  case noRegister => exact .of_finish exec_tPush_eq (ruleFaults_forbid_bind.mpr (.inl (List.isEmpty_iff.mpr hl)))
  case push =>
    have hpush := exec_tPush_eq (r := r) (regs := regs) (s := s)
    rw [bind_of_ok (forbid_of_not (List.isEmpty_eq_false_iff.mpr hl : (pushList r regs).isEmpty = false) _)] at hpush
    exact blockStops_and_completes_of_storeLowBlock (List.length_map _) (by decide) hpush
  case forbidden =>
    refine .of_finish exec_tStmia_eq ?_
    rw [ruleFaults_forbid_bind, ruleFaults_forbid_bind, List.isEmpty_iff, lowBaseNotFirst_iff]
    exact h.imp_right .inl
  case stmia =>
    have hfirst := Bool.eq_false_iff.mpr fun h => (lowBaseNotFirst_iff.mp h).2 (hb (lowBaseNotFirst_iff.mp h).1)
    refine blockStops_and_completes_of_storeLowBlock (List.length_map _) (lowReg_ne_pc rn) (exec_tStmia_eq.trans ?_)
    rw [bind_of_ok (forbid_of_not (List.isEmpty_eq_false_iff.mpr hl) _), bind_of_ok (forbid_of_not hfirst _)]

end Sys2Proof.Machine
end

section
/-! ## POP and LDMIA (46_thumb_memory_access.md R399, R400) -/

namespace Sys2Proof.Machine

/-! ### A register outside the list may be written before the list or after it -/

theorem State.setReg_comm (s : State) {r q : Reg} (h : r ≠ q) (v w : Word) :
    (s.setReg r v).setReg q w = (s.setReg q w).setReg r v := by
  by_cases hr : r = 15#4
  · rw [hr, State.setReg_pcReg, State.setReg_pcReg]
  by_cases hq : q = 15#4
  · rw [hq, State.setReg_pcReg, State.setReg_pcReg]
  have hphys : (physReg (bankOf s.cpsr.m) r : Nat) ≠ physReg (bankOf s.cpsr.m) q := fun e =>
    h (physReg_inj _ _ _ hr hq (Fin.ext e))
  simp only [State.setReg, if_neg hr, if_neg hq, State.setBankReg, Vector.set_comm _ _ hphys]

theorem State.setReg_setRegs {q : Reg} {list : List Reg} (h : q ∉ list) (s : State) (words : List Word) (v : Word) :
    (s.setRegs list words).setReg q v = (s.setReg q v).setRegs list words := by
  induction list generalizing s words with
  | nil => rfl
  | cons r list ih =>
    rw [List.mem_cons, not_or] at h
    obtain ⟨hqr, hq⟩ := h
    cases words with
    | nil => rfl
    | cons w words => rw [State.setRegs, State.setRegs, ih hq, State.setReg_comm s (Ne.symm hqr)]

/-- A list of low registers holds no register above r7. -/
theorem notMem_regList_of_le {regs : BitVec 8} {r : Reg} (h : 8 ≤ r.toNat) : r ∉ regList regs := by
  rw [mem_regList (by decide), BitVec.getLsbD_of_ge regs _ h]
  decide

/-! ### The rules: a Thumb multiple load is the one of ARM that ascends from its base -/

/-- POP after its words are read: sp, the registers of the list, and the branch (R399). -/
def State.popEnd (s : State) (r : Bool) (v : Word) (list : List Reg) (words : List Word) : Except Trap State :=
  let t := s.blockLoaded true 13#4 v list words
  if r then t.popPc (words.getLastD 0#32) else t.advance

/-- How many words POP loads. -/
def popCount (r : Bool) (regs : BitVec 8) : Nat := (regList regs).length + (if r then 1 else 0)

section
variable {rn : LowReg} {r : Bool} {regs : BitVec 8} {s : State}

theorem exec_tPop_eq : exec (.tPop r regs) s = s.finish (forbid (popCount r regs == 0) .emptyList >>= fun _ =>
    s.loadBlock false true (s.reg 13#4) (popCount r regs) >>=
      s.popEnd r (s.reg 13#4 + BitVec.ofNat 32 (4 * popCount r regs)) (regList regs)) := by
  have hcount : (regList regs).length + r.toNat = popCount r regs := by cases r <;> rfl
  have hsp : 13#4 ∉ regList regs := notMem_regList_of_le (by decide)
  simp only [exec_tPop, execTPop, State.always_eq, hcount, State.setReg_setRegs hsp]
  rfl

theorem exec_tPop_of_nonempty (h : popCount r regs ≠ 0) : exec (.tPop r regs) s =
    s.finish (s.loadBlock false true (s.reg 13#4) (popCount r regs) >>=
      s.popEnd r (s.reg 13#4 + BitVec.ofNat 32 (4 * popCount r regs)) (regList regs)) := by
  rw [exec_tPop_eq, bind_of_ok (forbid_of_not (beq_false_of_ne h) _)]

theorem exec_tLdmia_eq : exec (.tLdmia rn regs) s = s.finish (forbid (regList regs).isEmpty .emptyList >>= fun _ =>
    s.loadBlock false true (s.reg (lowReg rn)) (regList regs).length >>= fun words =>
      (s.blockLoaded true (lowReg rn) (s.reg (lowReg rn) + BitVec.ofNat 32 (4 * (regList regs).length))
        (regList regs) words).advance) := rfl

end

/-! ### The ends of POP (R399), after registers were written -/

section
variable {s t : State} {v : Word} (ht : t = { s with gpr := t.gpr })
include ht

theorem State.advance_of_gpr (hg : s.CanGoOn) : t.advance = .ok { s with gpr := t.gpr, pc := s.next } := by
  rw [State.advance_of (s := s) (by rw [ht]) (by rw [ht]) hg, ht]
  rfl

theorem State.popPc_forbidden (hv : s.cfg.arch.version = .v5) (h : v &&& 3#32 = 2#32) :
    t.popPc v = .error (.fault .pcTarget) := by
  have hcfg : t.cfg = s.cfg := by rw [ht]
  rw [State.popPc, hcfg, Arch.atLeast5_eq, decide_eq_true hv, if_pos rfl, if_pos h, stop]

/-- From version 5 bit 0 selects the state. -/
theorem State.popPc_exchange (hv : s.cfg.arch.version = .v5) (h : v &&& 3#32 ≠ 2#32) :
    t.popPc v = .ok { s with
      gpr := t.gpr, pc := v &&& 0xFFFFFFFE#32, cpsr := { s.cpsr with t := v.getLsbD 0 } } := by
  have hcfg : t.cfg = s.cfg := by rw [ht]
  rw [State.popPc, hcfg, Arch.atLeast5_eq, decide_eq_true hv, if_pos rfl, if_neg h, ht]
  rfl

theorem State.popPc_keepsThumb (hv : s.cfg.arch.version ≠ .v5) :
    t.popPc v = .ok { s with gpr := t.gpr, pc := v &&& 0xFFFFFFFE#32 } := by
  have hcfg : t.cfg = s.cfg := by rw [ht]
  rw [State.popPc, hcfg, Arch.atLeast5_eq, decide_eq_false hv, if_neg Bool.false_ne_true, ht]
  rfl

end

/-- Settles O49: both load a block that ascends from sp or the base; POP then writes registers other than sp, LDMIA the
base before the list, which may hold it. -/
theorem thumbLoadMultiple : Obligations.ThumbLoadMultiple := by
  refine ⟨fun r regs s => ?pop, fun rn regs s => ?ldmia⟩
  case pop =>
    intro list n start a i loaded
    refine ⟨fun h => .of_finish exec_tPop_eq (ruleFaults_forbid_bind.mpr (.inl (beq_iff_eq.mpr h))), fun hn => ?_⟩
    have hpop : exec i s = s.finish (s.loadBlock false true start n >>=
        s.popEnd r (start + BitVec.ofNat 32 (4 * n)) list) := exec_tPop_of_nonempty hn
    refine ⟨.of_load hpop, fun hok => ?_⟩
    obtain ⟨words, hwords, hlen, hvals⟩ := State.loadBlock_ok (p := false) (u := true) hok
    rw [hwords, bind_ok, State.popEnd] at hpop
    set u := s.blockLoaded true 13#4 (start + BitVec.ofNat 32 (4 * n)) list words
    have honly : u = { s with gpr := u.gpr } := State.blockLoaded_only ..
    have hloaded {t : State} (hg : t.gpr = u.gpr) (hm : t.cpsr.m = s.cpsr.m) : loaded t := by
      obtain ⟨hregs, hsp, hkept⟩ := State.blockLoaded_leaves (by decide)
        (fun _ => notMem_regList_of_le (by decide)) (regList_nodup (by decide) regs) (Nat.le_add_right ..) hvals hlen
        (fun _ hr _ => hr) hg hm
      exact ⟨hregs, hsp rfl, hkept⟩
    refine ⟨fun hr hg => ?goesOn, fun v hr hv => ?branches⟩
    case goesOn =>
      rw [hr, if_neg Bool.false_ne_true] at hpop
      exact .of_rule hpop (State.advance_of_gpr honly hg) ⟨hloaded rfl rfl, rfl⟩
    case branches =>
      have hlast : words.getLastD 0#32 = v := getLastD_of_getElem? hlen ((hvals (n - 1) (by omega)).symm.trans hv)
      rw [hr, if_pos rfl, hlast] at hpop
      exact ⟨fun hver h => ⟨_, exec_fault_of_rule hpop (State.popPc_forbidden honly hver h)⟩,
        fun hver h => .of_rule hpop (State.popPc_exchange honly hver h) ⟨hloaded rfl rfl, rfl⟩,
        fun hver => .of_rule hpop (State.popPc_keepsThumb honly hver) ⟨hloaded rfl rfl, rfl⟩⟩
  case ldmia =>
    intro list n start a i
    refine ⟨fun h => .of_finish exec_tLdmia_eq (ruleFaults_forbid_bind.mpr (.inl (List.isEmpty_iff.mpr h))),
      fun hl => ?_⟩
    have hldm : exec i s = _ := exec_tLdmia_eq
    rw [bind_of_ok (forbid_of_not (List.isEmpty_eq_false_iff.mpr hl) _)] at hldm
    refine ⟨.of_load hldm, fun hok hg => ?_⟩
    obtain ⟨words, hwords, hlen, hvals⟩ := State.loadBlock_ok (p := false) (u := true) hok
    rw [hwords, bind_ok] at hldm
    set u := s.blockLoaded true (lowReg rn) (start + BitVec.ofNat 32 (4 * n)) list words
    have honly : u = { s with gpr := u.gpr } := State.blockLoaded_only ..
    have hmode : s.cpsr.m = u.cpsr.m := by rw [honly]
    have hpc := lowReg_ne_pc rn
    have hregs : s.LoadedFrom u a list :=
      State.loadedFrom_setRegs (regList_nodup (by decide) regs) (Nat.le_refl n) hvals hlen
    have hreg : ({ s with gpr := u.gpr, pc := s.next } : State).reg (lowReg rn) = u.reg (lowReg rn) :=
      State.reg_congr_of_ne rfl hmode hpc
    have hbase (hnot : lowReg rn ∉ list) : u.reg (lowReg rn) = start + BitVec.ofNat 32 (4 * n) :=
      State.reg_blockLoaded_base hpc rfl hnot
    have hkept : s.RegsKept u (lowReg rn :: list) := State.regsKept_blockLoaded (w := true) fun _ hr _ => hr
    exact .of_rule hldm (State.advance_of_gpr honly hg) ⟨hregs.congr rfl hmode,
      fun hnot => hreg.trans (hbase hnot), rfl, rfl, hkept.congr rfl, .of_mem rfl, rfl⟩

end Sys2Proof.Machine
end

section
/-! ## What User mode cannot change: the updates of the state (10_state.md R22, R32, R43; 20_memory.md R80) -/

namespace Sys2Proof.Machine

/-- The registers that the current mode does not see (R22). -/
def State.hidden (s : State) (i : Fin 30) : Option Word :=
  if ∃ r : Reg, i = physReg (bankOf s.cpsr.m) r then none else some (s.gpr.get i)

/-- What an instruction in User mode leaves as it was, memory apart: the parameters, the mode and the interrupt masks,
the SPSRs, FPEXC, the hidden registers. -/
def State.guarded (s : State) :
    Config × (BitVec 5 × Bool × Bool) × (Psr × Psr × Psr × Psr × Psr) × Word × (Fin 30 → Option Word) :=
  (s.cfg, (s.cpsr.m, s.cpsr.i, s.cpsr.f), (s.spsrFiq, s.spsrIrq, s.spsrSvc, s.spsrAbt, s.spsrUnd), s.fpexc, s.hidden)

theorem State.hidden_congr {s t : State} (hg : t.gpr = s.gpr) (hm : t.cpsr.m = s.cpsr.m) : t.hidden = s.hidden := by
  funext i
  rw [State.hidden, State.hidden, hg, hm]

/-- In User mode every register that no number names is hidden. -/
theorem State.get_of_hidden {s t : State} (h : t.hidden = s.hidden) {i : Fin 30}
    (hi : ∀ r : Reg, i ≠ physReg (bankOf s.cpsr.m) r) (hm : t.cpsr.m = s.cpsr.m) : t.gpr.get i = s.gpr.get i := by
  have hnot : ¬∃ r : Reg, i = physReg (bankOf s.cpsr.m) r := fun ⟨r, hr⟩ => hi r hr
  have hval := congrFun h i
  rw [State.hidden, State.hidden, hm, if_neg hnot, if_neg hnot] at hval
  exact Option.some.inj hval

@[simp] theorem State.hidden_setReg (s : State) (r : Reg) (v : Word) : (s.setReg r v).hidden = s.hidden := by
  funext i
  unfold State.hidden
  rw [State.setReg_cpsr]
  split
  · rfl
  · rename_i hi
    rw [(State.RegsKept.refl s [r]).setReg rfl (List.mem_singleton_self r) v i fun q _ h => hi ⟨q, h⟩]

@[simp] theorem State.hidden_setRegs (s : State) (rs : List Reg) (vs : List Word) :
    (s.setRegs rs vs).hidden = s.hidden := by
  induction rs generalizing s vs with
  | nil => rfl
  | cons r rs ih =>
    cases vs with
    | nil => rfl
    | cons v vs => rw [State.setRegs, ih, State.hidden_setReg]

@[simp] theorem State.hidden_setPc (s : State) (a : Word) : (s.setPc a).hidden = s.hidden := rfl
@[simp] theorem State.hidden_setThumb (s : State) (b : Bool) : (s.setThumb b).hidden = s.hidden := rfl
@[simp] theorem State.hidden_setNzcv (s : State) (f : Nzcv) : (s.setNzcv f).hidden = s.hidden := rfl
@[simp] theorem State.hidden_setQIf (s : State) (b : Bool) : (s.setQIf b).hidden = s.hidden := rfl
@[simp] theorem State.hidden_setAcc (s : State) (v : BitVec 40) : (s.setAcc v).hidden = s.hidden := rfl
@[simp] theorem State.hidden_drawn (s : State) (k : Nat) : (s.drawn k).hidden = s.hidden := rfl
@[simp] theorem State.hidden_nextInputs (s : State) : s.nextInputs.hidden = s.hidden := rfl
@[simp] theorem State.hidden_setSreg (s : State) (i : Nat) (v : Word) : (s.setSreg i v).hidden = s.hidden := rfl
@[simp] theorem State.hidden_setDreg (s : State) (i : Nat) (v : DWord) : (s.setDreg i v).hidden = s.hidden := rfl
@[simp] theorem State.hidden_cumulate (s : State) (e : FpExc) : (s.cumulate e).hidden = s.hidden := rfl
@[simp] theorem State.hidden_setFpFlags (s : State) (f : Nzcv) : (s.setFpFlags f).hidden = s.hidden := rfl
@[simp] theorem State.hidden_setFpscr (s : State) (v : Word) : (s.setFpscr v).hidden = s.hidden := rfl
@[simp] theorem State.hidden_coprocDone (s : State) (cp : BitVec 4) (c : CoprocCommand) :
    (s.coprocDone cp c).hidden = s.hidden := rfl
@[simp] theorem State.hidden_setNzcvIf (s : State) (b : Bool) (f : Nzcv) : (s.setNzcvIf b f).hidden = s.hidden :=
  State.hidden_congr (by simp) (by simp)
@[simp] theorem State.hidden_drawnIf (s : State) (b : Bool) (k : Nat) : (s.drawnIf b k).hidden = s.hidden :=
  State.hidden_congr (by simp) (by simp)
@[simp] theorem State.hidden_drawnForNan (s : State) (b : Bool) : (s.drawnForNan b).hidden = s.hidden :=
  State.hidden_congr (by simp) (by simp)
@[simp] theorem State.hidden_setFreg (s : State) (p : Precision) (i b : Nat) : (s.setFreg p i b).hidden = s.hidden :=
  State.hidden_congr (by simp) (by simp)
@[simp] theorem State.hidden_setSregs (s : State) (i : Nat) (vs : List Word) : (s.setSregs i vs).hidden = s.hidden :=
  State.hidden_congr (by simp) (by simp)
@[simp] theorem State.hidden_setDregs (s : State) (i : Nat) (vs : List Word) : (s.setDregs i vs).hidden = s.hidden :=
  State.hidden_congr (by simp) (by simp)
@[simp] theorem State.hidden_runElements (s : State) (p : Precision) (op : Nat → Nat → Nat → FpResult)
    (es : List Element) : (s.runElements p op es).hidden = s.hidden := State.hidden_congr (by simp) (by simp)
@[simp] theorem State.hidden_writeBack (s : State) (a : Address) (rn : Reg) : (s.writeBack a rn).hidden = s.hidden := by
  unfold State.writeBack
  split
  · exact s.hidden_setReg rn _
  · rfl
@[simp] theorem State.hidden_writeBase (s : State) (w : Bool) (rn : Reg) (v : Word) :
    (s.writeBase w rn v).hidden = s.hidden := by
  unfold State.writeBase
  split
  · exact s.hidden_setReg rn v
  · rfl
@[simp] theorem State.hidden_vfpWriteBack (s : State) (w up : Bool) (rn : Reg) (n : Nat) :
    (s.vfpWriteBack w up rn n).hidden = s.hidden := by
  unfold State.vfpWriteBack
  split
  · exact s.hidden_setReg rn _
  · rfl

@[simp] theorem Psr.withNzcv_m (p : Psr) (f : Nzcv) : (p.withNzcv f).m = p.m := rfl
@[simp] theorem Psr.withNzcv_i (p : Psr) (f : Nzcv) : (p.withNzcv f).i = p.i := rfl
@[simp] theorem Psr.withNzcv_f (p : Psr) (f : Nzcv) : (p.withNzcv f).f = p.f := rfl

/-- `t` keeps what `s` guards, and every byte that User mode may not write (R80). -/
structure State.Confined (s t : State) : Prop where
  guarded : t.guarded = s.guarded
  mem : ∀ a, s.UserProtected a → t.byte a = s.byte a

theorem State.UserProtected.congr {s t : State} (h : t.cfg = s.cfg) {a : Word} (ha : s.UserProtected a) :
    t.UserProtected a := by
  simpa only [State.UserProtected, State.allowed, h] using ha

theorem State.Confined.cfg {s t : State} (h : s.Confined t) : t.cfg = s.cfg := congrArg Prod.fst h.guarded

theorem State.Confined.trans {s t u : State} (h : s.Confined t) (h' : t.Confined u) : s.Confined u :=
  ⟨h'.guarded.trans h.guarded, fun a ha => (h'.mem a (ha.congr h.cfg)).trans (h.mem a ha)⟩

/-- An update of neither memory nor what is guarded. -/
theorem State.Confined.of_guarded {s t : State} (h : t.guarded = s.guarded ∧ t.mem = s.mem) : s.Confined t :=
  ⟨h.1, fun _ _ => State.byte_congr h.2 _⟩

theorem State.Confined.refl (s : State) : s.Confined s := .of_guarded ⟨rfl, rfl⟩

/-! ### Memory: User mode writes only where it may (R80) -/

/-- The bytes from an aligned address to the next one agree in the bits above the alignment. -/
theorem and_alignMask_of_lt {n : Nat} {a b : Word} (ha : a.toNat % 2 ^ n = 0) (h : (b - a).toNat < 2 ^ n) :
    b &&& (BitVec.allOnes 32 <<< n) = a := by
  have hsum : b.toNat = a.toNat + (b - a).toNat ∨ b.toNat + 2 ^ 32 = a.toNat + (b - a).toNat := by bv_omega
  refine BitVec.eq_of_getLsbD_eq fun i hi => ?_
  rw [BitVec.getLsbD_and, BitVec.getLsbD_shiftLeft, BitVec.getLsbD_allOnes]
  rcases Nat.lt_or_ge i n with hlow | hhigh
  · have hbit := Nat.testBit_mod_two_pow a.toNat n i
    rw [ha, Nat.zero_testBit, decide_eq_true hlow, Bool.true_and] at hbit
    rw [decide_eq_true hlow, BitVec.getLsbD, BitVec.getLsbD, ← hbit]
    simp
  · obtain ⟨j, rfl⟩ := Nat.exists_eq_add_of_le' hhigh
    have hb : b.toNat = a.toNat + (b - a).toNat := hsum.resolve_right fun hwrap => by
      obtain ⟨q, hq⟩ := Nat.dvd_of_mod_eq_zero ha
      have hpow : (2 : Nat) ^ 32 = 2 ^ n * 2 ^ (32 - n) := by rw [← pow_add]; congr 1; omega
      have hlt : 2 ^ n * q < 2 ^ n * 2 ^ (32 - n) := by rw [← hq, ← hpow]; exact a.isLt
      have hle : 2 ^ n * (q + 1) ≤ 2 ^ n * 2 ^ (32 - n) := Nat.mul_le_mul_left _ (Nat.lt_of_mul_lt_mul_left hlt)
      rw [Nat.mul_succ, ← hq, ← hpow] at hle
      omega
    have hdiv : b.toNat / 2 ^ n = a.toNat / 2 ^ n := by
      rw [hb, Nat.add_div_of_dvd_right (Nat.dvd_of_mod_eq_zero ha), Nat.div_eq_of_lt h, Nat.add_zero]
    simp [BitVec.getLsbD, Nat.testBit_add, hdiv]
    omega

theorem State.Confined.writeByte {s t : State} {a : Word} {v : Byte} {p : Bool} (hp : p = false)
    (h : s.writeByte a v p = .ok t) : s.Confined t := by
  obtain ⟨hallowed, rfl⟩ := State.writeByte_eq_ok h
  rw [hp] at hallowed
  refine ⟨rfl, fun b hb => State.byte_setByte_ne _ _ _ _ ?_⟩
  rintro rfl
  exact Bool.false_ne_true (hb.1.symm.trans hallowed)

/-- A byte of the halfword written lies in a halfword that User mode may write. -/
theorem State.Confined.writeHalf {s t : State} {a : Word} {v : Half} {p : Bool} (hp : p = false)
    (ha : a &&& 1#32 = 0#32) (h : s.writeHalf a v p = .ok t) : s.Confined t := by
  obtain ⟨hallowed, rfl⟩ := State.writeHalf_eq_ok h
  rw [hp] at hallowed
  refine ⟨by rw [State.setHalf_frame]; rfl, fun b hb => State.byte_setHalf_outside _ _ _ _ ?_⟩
  by_contra hin
  have hhalf : b &&& 0xFFFFFFFE#32 = a :=
    and_alignMask_of_lt (n := 1) ((aligned_iff (t := true)).mp ha) (Nat.not_le.mp hin)
  exact Bool.false_ne_true (hb.2.1.symm.trans (hhalf ▸ hallowed))

/-- A byte of the word written lies in a word that User mode may write. -/
theorem State.Confined.writeWord {s t : State} {a v : Word} {p : Bool} (hp : p = false) (ha : a &&& 3#32 = 0#32)
    (h : s.writeWord a v p = .ok t) : s.Confined t := by
  obtain ⟨hallowed, rfl⟩ := State.writeWord_eq_ok h
  rw [hp] at hallowed
  refine ⟨by rw [State.setWord_frame]; rfl, fun b hb => State.byte_setWord_outside _ _ _ _ ?_⟩
  by_contra hin
  have hword : b &&& 0xFFFFFFFC#32 = a :=
    and_alignMask_of_lt (n := 2) ((aligned_iff (t := false)).mp ha) (Nat.not_le.mp hin)
  exact Bool.false_ne_true (hb.2.2.symm.trans (hword ▸ hallowed))

/-- The next word is aligned too. -/
theorem aligned_nextWord {a : Word} (ha : a &&& 3#32 = 0#32) : (a + 4#32) &&& 3#32 = 0#32 :=
  Aligned.add (t := false) ha (by decide)

theorem aligned_wordAddress (a : Word) : wordAddress a &&& 3#32 = 0#32 := aligned_and (t := false) (by decide) a

/-- A double word's address is a word's. -/
theorem aligned_of_double {a : Word} (h : a &&& 7#32 = 0#32) : a &&& 3#32 = 0#32 := by
  rw [show 3#32 = 7#32 &&& 3#32 from rfl, ← BitVec.and_assoc, h, BitVec.zero_and]

theorem State.Confined.writeWords {s t : State} {vs : List Word} {a : Word} {p : Bool} (hp : p = false)
    (ha : a &&& 3#32 = 0#32) (h : s.writeWords p vs a = .ok t) : s.Confined t := by
  induction vs generalizing s a with
  | nil =>
    cases h
    exact .refl _
  | cons v vs ih =>
    obtain ⟨u, hu, h⟩ := bind_eq_ok h
    exact (State.Confined.writeWord hp ha hu).trans (ih (aligned_nextWord ha) h)

theorem State.Confined.storeBlock {s t : State} {p u : Bool} {base : Word} {vs : List Word}
    (hs : s.privileged = false) (h : s.storeBlock p u base vs = .ok t) : s.Confined t := by
  obtain ⟨_, -, h⟩ := bind_eq_ok h
  obtain ⟨_, -, h⟩ := bind_eq_ok h
  exact .writeWords hs (aligned_wordAddress _) h

theorem State.Confined.vfpStoreBlock {s t : State} {up : Bool} {rn : Reg} {n : Nat} {vs : List Word}
    (hs : s.privileged = false) (h : s.vfpStoreBlock up rn n vs = .ok t) : s.Confined t := by
  obtain ⟨_, ha, h⟩ := bind_eq_ok h
  obtain ⟨_, -, h⟩ := bind_eq_ok h
  exact .writeWords hs (State.checkAligned_eq_ok ha) h

end Sys2Proof.Machine
end

section
/-! ## What User mode cannot change: the shared operations of the instructions -/

namespace Sys2Proof.Machine

/-- In User mode, whatever next state a rule answers, the way there from `s` is confined. -/
structure RuleConfined (s : State) (r : Except Trap State) : Prop where
  confined : s.privileged = false → ∀ t, r = .ok t → s.Confined t

theorem RuleConfined.ok {s t : State} (h : t.guarded = s.guarded ∧ t.mem = s.mem) : RuleConfined s (.ok t) where
  confined := by
    rintro - _ ⟨⟩
    exact .of_guarded h

theorem RuleConfined.error {s : State} (e : Trap) : RuleConfined s (.error e) where
  confined := by
    intro _ _ h
    cases h

/-- In what follows the mode is User mode. -/
theorem RuleConfined.user {s : State} {r : Except Trap State} (h : s.privileged = false → RuleConfined s r) :
    RuleConfined s r where
  confined hs := (h hs).confined hs

/-- A part that answers `a`, and what follows it. -/
theorem RuleConfined.bind {α : Type} {s : State} {x : Except Trap α} {f : α → Except Trap State}
    (h : ∀ a, x = .ok a → RuleConfined s (f a)) : RuleConfined s (x >>= f) where
  confined hs t ht := by
    obtain ⟨a, ha, hf⟩ := bind_eq_ok ht
    exact (h a ha).confined hs t hf

/-- A check or a read whose answer does not matter for what User mode can change. -/
theorem RuleConfined.after {α : Type} {s : State} {x : Except Trap α} {f : α → Except Trap State}
    (h : ∀ a, RuleConfined s (f a)) : RuleConfined s (x >>= f) := .bind fun a _ => h a

theorem RuleConfined.ite {s : State} {c : Prop} [Decidable c] {q r : Except Trap State} (hq : RuleConfined s q)
    (hr : RuleConfined s r) : RuleConfined s (if c then q else r) := by
  split
  · exact hq
  · exact hr

theorem RuleConfined.advance {s t : State} (h : s.Confined t) : RuleConfined s t.advance where
  confined _ u hu := by
    obtain ⟨-, rfl⟩ := State.advance_eq_ok hu
    exact h.trans (.of_guarded ⟨rfl, rfl⟩)

/-- The end of an instruction that has written neither memory nor what is guarded. -/
theorem RuleConfined.done {s t : State} (h : t.guarded = s.guarded ∧ t.mem = s.mem) : RuleConfined s t.advance :=
  .advance (.of_guarded h)

/-- The end of an instruction that has written memory. -/
theorem RuleConfined.stored {s t u : State} (h : s.Confined t) (hu : u.guarded = t.guarded ∧ u.mem = t.mem) :
    RuleConfined s u.advance := .advance (h.trans (.of_guarded hu))

/-- User mode has no SPSR (R33). -/
theorem RuleConfined.spsr {s : State} {f : Fault} {b : Bool} {rest : Unit → Except Trap State} :
    RuleConfined s (forbid (b || !s.hasSpsr) f >>= rest) := by
  refine .user fun hs => .bind fun _ h => ?_
  have hnone : s.hasSpsr = false := by simp_all [State.hasSpsr, State.privileged]
  have hforbid := forbid_eq_ok h
  rw [hnone, Bool.not_false, Bool.or_true] at hforbid
  cases hforbid

/-! ### The pc -/

theorem RuleConfined.branchExchange {s t : State} (h : t.guarded = s.guarded ∧ t.mem = s.mem) {v : Word} :
    RuleConfined s (t.branchExchange v) := .ite (.ite (.ok h) (.error _)) (.ite (.error _) (.ok h))

theorem RuleConfined.writePc {s t : State} (h : t.guarded = s.guarded ∧ t.mem = s.mem) {v : Word} :
    RuleConfined s (t.writePc v) := .ite (.ite (.ok h) (.error _)) (.ok h)

theorem RuleConfined.loadPc {s t : State} (h : t.guarded = s.guarded ∧ t.mem = s.mem) {v : Word} :
    RuleConfined s (t.loadPc v) := .ite (.ite (.error _) (.ok h)) (.writePc h)

theorem RuleConfined.popPc {s t : State} (h : t.guarded = s.guarded ∧ t.mem = s.mem) {v : Word} :
    RuleConfined s (t.popPc v) := .ite (.ite (.error _) (.ok h)) (.ok h)

/-- The exception return is for modes with an SPSR (R614). -/
theorem RuleConfined.exceptionReturn {s : State} {v : Word} : RuleConfined s (s.exceptionReturn v) := by
  unfold State.exceptionReturn
  exact .spsr (b := false)

/-! ### Data processing, MSR and the VFP's system registers -/

theorem RuleConfined.writeResult {s : State} {b : Bool} {rd : Reg} {v : Word} {f : Nzcv} :
    RuleConfined s (s.writeResult b rd v f) :=
  .ite (.ite .exceptionReturn (.writePc ⟨rfl, rfl⟩)) (.done (by simp [State.guarded]))

/-- In User mode only the flags byte of the CPSR is written (R362). -/
theorem RuleConfined.writePsr {s : State} {r : Bool} {fields : BitVec 4} {v : Word} :
    RuleConfined s (s.writePsr r fields v) := by
  cases r with
  | true =>
    rw [State.writePsr_spsr]
    exact .spsr (b := false)
  | false =>
    rw [State.writePsr_cpsr]
    refine .user fun hs => .after fun _ => .after fun _ => .done ⟨?_, rfl⟩
    rw [hs, Bool.and_false]
    rfl

/-- FPEXC is written in privileged modes only (R543). -/
theorem RuleConfined.fmxr {s : State} {reg : BitVec 4} {rd : Reg} : RuleConfined s (do
    s.needVfpSystem (vfpSystem reg)
    forbid (isPc rd) .forbiddenPc
    (s.setVfpSystem (s.reg rd) (vfpSystem reg)).advance) := by
  refine .user fun hs => ?_
  cases vfpSystem reg with
  | fpsid | fpscr | other => exact .after fun _ => .after fun _ => .done ⟨rfl, rfl⟩
  | fpexc =>
    rw [State.needVfpSystem, hs, Bool.and_false, if_neg Bool.false_ne_true]
    exact .error _

theorem RuleConfined.vfpOperate {s : State} {p : Precision} {fd fn fm : Nat} {op : Nat → Nat → Nat → FpResult} :
    RuleConfined s (s.vfpOperate p fd fn fm op) := .after fun _ => .done (by simp [State.guarded])

/-! ### Transfers -/

theorem RuleConfined.loadWordTo {s : State} {a : Address} {rn rd : Reg} {p : Bool} :
    RuleConfined s (s.loadWordTo a rn rd p) :=
  .after fun _ => .after fun _ => .ite (.loadPc (by simp [State.guarded])) (.done (by simp [State.guarded]))

/-- The access is made as User, or in the mode of `s`. -/
theorem RuleConfined.storeWordFrom {s : State} {a : Address} {rn rd : Reg} {p : Bool}
    (hp : s.privileged = false → p = false) : RuleConfined s (s.storeWordFrom a rn rd p) :=
  .user fun hs => .after fun _ => .bind fun _ h =>
    .stored (.writeWord (hp hs) (aligned_wordAddress _) h) (by simp [State.guarded])

theorem RuleConfined.storeByteFrom {s : State} {a : Address} {rn rd : Reg} {p : Bool}
    (hp : s.privileged = false → p = false) : RuleConfined s (s.storeByteFrom a rn rd p) :=
  .user fun hs => .bind fun _ h => .stored (.writeByte (hp hs) h) (by simp [State.guarded])

theorem RuleConfined.storeHalfFrom {s : State} {a : Address} {rn rd : Reg} :
    RuleConfined s (s.storeHalfFrom a rn rd) :=
  .user fun hs => .bind fun _ ha => .bind fun _ h =>
    .stored (.writeHalf hs (State.checkAligned_eq_ok ha) h) (by simp [State.guarded])

/-- Two words one after the other from an aligned address. -/
theorem State.Confined.writePair {s t u : State} {a v w : Word} (hs : s.privileged = false) (ha : a &&& 3#32 = 0#32)
    (h : s.writeWord a v s.privileged = .ok t) (h' : t.writeWord (a + 4#32) w s.privileged = .ok u) : s.Confined u :=
  (State.Confined.writeWord hs ha h).trans (.writeWord hs (aligned_nextWord ha) h')

theorem RuleConfined.storeDoubleFrom {s : State} {a : Address} {rn rd : Reg} :
    RuleConfined s (s.storeDoubleFrom a rn rd) :=
  .user fun hs => .bind fun _ ha => .bind fun _ h => .bind fun _ h' =>
    .stored (.writePair hs (aligned_of_double (State.checkAligned_eq_ok ha)) h h') (by simp [State.guarded])

theorem RuleConfined.storeLowWord {s : State} {rd : LowReg} {a : Word} : RuleConfined s (s.storeLowWord rd a) :=
  .user fun hs => .bind fun _ ha => .bind fun _ h => .advance (.writeWord hs (State.checkAligned_eq_ok ha) h)

theorem RuleConfined.storeLowHalf {s : State} {rd : LowReg} {a : Word} : RuleConfined s (s.storeLowHalf rd a) :=
  .user fun hs => .bind fun _ ha => .bind fun _ h => .advance (.writeHalf hs (State.checkAligned_eq_ok ha) h)

theorem RuleConfined.storeLowByte {s : State} {rd : LowReg} {a : Word} : RuleConfined s (s.storeLowByte rd a) :=
  .user fun hs => .bind fun _ h => .advance (.writeByte hs h)

theorem RuleConfined.coprocStore {s : State} {two long : Bool} {cp crd : BitVec 4} {rn : Reg} {a : Address} :
    RuleConfined s (s.coprocStore two long cp crd rn a) :=
  .user fun hs => .after fun _ => .after fun _ => .bind fun _ ha => .after fun _ => .bind fun _ h =>
    .stored (.writeWords hs (State.checkAligned_eq_ok ha) h) (by simp [State.guarded])

/-- A block stored before the end of the instruction. -/
theorem RuleConfined.storeBlock {s : State} {p u : Bool} {base : Word} {vs : List Word}
    {f : State → Except Trap State} (hf : ∀ t, s.Confined t → RuleConfined s (f t)) :
    RuleConfined s (s.storeBlock p u base vs >>= f) :=
  .user fun hs => .bind fun t h => hf t (.storeBlock hs h)

theorem RuleConfined.storeLowBlock {s : State} {start : Word} {vs : List Word} {f : State → Except Trap State}
    (hf : ∀ t, s.Confined t → RuleConfined s (f t)) : RuleConfined s (s.storeLowBlock start vs >>= f) := by
  rw [State.storeLowBlock_eq]
  exact .storeBlock hf

theorem RuleConfined.vfpStoreBlock {s : State} {up : Bool} {rn : Reg} {n : Nat} {vs : List Word}
    {f : State → Except Trap State} (hf : ∀ t, s.Confined t → RuleConfined s (f t)) :
    RuleConfined s (s.vfpStoreBlock up rn n vs >>= f) :=
  .user fun hs => .bind fun t h => hf t (.vfpStoreBlock hs h)

/-! ### SWI and BKPT -/

theorem RuleConfined.softwareInterrupt {s : State} {b : Bool} : RuleConfined s (s.softwareInterrupt b) :=
  .ite (.ok ⟨rfl, rfl⟩) (.error _)

theorem RuleConfined.breakpoint {s : State} {imm : BitVec 16} : RuleConfined s (s.breakpoint imm) := by
  unfold State.breakpoint
  split
  · exact .error _
  · exact .error _

end Sys2Proof.Machine
end

section
/-! ## What User mode cannot change: the instructions and the step (60_exceptions.md R616, R620) -/

namespace Sys2Proof.Machine

/-- In User mode, whatever next state an instruction or a step answers took an exception, or the way there is
confined. -/
structure OutcomeConfined (s : State) (o : Host.Outcome State Fault Refusal) : Prop where
  confined : s.privileged = false → ∀ t, o = .next t → (∃ e, t = s.takeException e) ∨ s.Confined t

theorem OutcomeConfined.finish {s : State} {r : Except Trap State} (h : RuleConfined s r) :
    OutcomeConfined s (s.finish r) where
  confined hs t ht := by
    rcases State.finish_next ht with hr | ⟨e, -, rfl⟩
    · exact .inr (h.confined hs t hr)
    · exact .inl ⟨e, rfl⟩

theorem OutcomeConfined.fault (s : State) (f : Fault) : OutcomeConfined s (.fault f) where
  confined := by
    intro _ _ h
    cases h

theorem OutcomeConfined.exception (s : State) (e : Exc) : OutcomeConfined s (.next (s.takeException e)) where
  confined := by
    rintro - _ ⟨⟩
    exact .inl ⟨e, rfl⟩

theorem OutcomeConfined.always {s : State} {rule : State → Except Trap State} (h : RuleConfined s (rule s)) :
    OutcomeConfined s (s.always rule) := .finish h

theorem OutcomeConfined.ifPassed {s : State} {c : Cond} {rule : State → Except Trap State}
    (h : RuleConfined s (rule s)) : OutcomeConfined s (s.ifPassed c rule) := .finish (.ite h (.done ⟨rfl, rfl⟩))

theorem OutcomeConfined.vfpRule {s : State} {c : Cond} {rule : State → Except Trap State}
    (h : RuleConfined s (rule s)) : OutcomeConfined s (s.vfpRule c rule) := .ifPassed (.after fun _ => h)

/-- An ARM instruction in User mode is confined, or takes an exception. The cases are grouped by the end of the rule;
what comes before it are checks and reads, except where a store is named. -/
theorem exec_confined_of_arm {s : State} {i : Instr} (harm : i.inThumb = false) : OutcomeConfined s (exec i s) := by
  cases i
  -- ARM data processing
  case andRegReg | eorRegReg | orrRegReg | bicRegReg | movRegReg | mvnRegReg | addRegReg | subRegReg | rsbRegReg |
      adcRegReg | sbcRegReg | rscRegReg =>
    apply OutcomeConfined.ifPassed
    exact .after fun _ => .writeResult
  case andRegImm | eorRegImm | orrRegImm | bicRegImm | movRegImm | mvnRegImm | andImm | eorImm | orrImm | bicImm |
      movImm | mvnImm | addRegImm | subRegImm | rsbRegImm | adcRegImm | sbcRegImm | rscRegImm | addImm | subImm |
      rsbImm | adcImm | sbcImm | rscImm =>
    apply OutcomeConfined.ifPassed
    exact .writeResult
  -- Registers, flags, the accumulator and the VFP: what is guarded is not written
  case tstRegReg | teqRegReg | cmpRegReg | cmnRegReg | tstRegImm | teqRegImm | tstImm | teqImm | cmpRegImm |
      cmnRegImm | cmpImm | cmnImm | clz | smulXY | smulwY | mar | mra | mul | mla | umull | umlal | smull | smlal |
      smlalXY | smlaXY | smlawY | qadd | qsub | qdadd | qdsub | mia | miaph | miaXY | mrs | fmrx =>
    apply OutcomeConfined.ifPassed
    repeat refine .after fun _ => ?_
    exact .done (by simp [State.guarded])
  case fcmps | fcmpd | fcmpes | fcmped | fcmpzs | fcmpzd | fcmpezs | fcmpezd | fcvtds | fcvtsd | fsitos | fsitod |
      fuitos | fuitod | ftosis | ftosid | ftosizs | ftosizd | ftouis | ftouid | ftouizs | ftouizd | fmsr | fmdlr |
      fmdhr | fmrs | fmrdl | fmrdh | fmstat =>
    apply OutcomeConfined.vfpRule
    repeat refine .after fun _ => ?_
    exact .done (by simp [State.guarded])
  case fcpys | fcpyd | fabss | fabsd | fnegs | fnegd =>
    apply OutcomeConfined.vfpRule
    exact .vfpOperate
  case fadds | faddd | fsubs | fsubd | fmuls | fmuld | fnmuls | fnmuld | fdivs | fdivd | fsqrts | fsqrtd | fmacs |
      fmacd | fnmacs | fnmacd | fmscs | fmscd | fnmscs | fnmscd =>
    apply OutcomeConfined.vfpRule
    exact .after fun _ => .vfpOperate
  -- Loads and hints
  case ldrImm | ldrtImm | ldrReg | ldrtReg =>
    apply OutcomeConfined.ifPassed
    repeat with_reducible refine .after fun _ => ?_
    exact .loadWordTo
  case ldrbtImm | ldrbImm | ldrbReg | ldrbtReg | ldrhImm | ldrhReg | ldrshImm | ldrshReg | ldrsbImm | ldrsbReg |
      ldrdImm | ldrdReg =>
    apply OutcomeConfined.ifPassed
    repeat refine .after fun _ => ?_
    exact .done (by simp [State.guarded])
  case pldImm | pldReg =>
    apply OutcomeConfined.always
    repeat refine .after fun _ => ?_
    exact .done (by simp [State.guarded])
  case flds | fldd | fldmias | fldmdbs | fldmiad | fldmdbd | fldmiax | fldmdbx =>
    apply OutcomeConfined.vfpRule
    repeat refine .after fun _ => ?_
    exact .done (by simp [State.guarded])
  case ldm =>
    apply OutcomeConfined.ifPassed
    exact .after fun _ => .after fun _ => .after fun _ =>
      .ite (.loadPc (by simp [State.guarded])) (.done (by simp [State.guarded]))
  -- Stores
  case strImm | strReg =>
    apply OutcomeConfined.ifPassed
    repeat with_reducible refine .after fun _ => ?_
    exact .storeWordFrom id
  case strtImm | strtReg =>
    apply OutcomeConfined.ifPassed
    repeat with_reducible refine .after fun _ => ?_
    exact .storeWordFrom fun _ => rfl
  case strbImm | strbReg =>
    apply OutcomeConfined.ifPassed
    repeat with_reducible refine .after fun _ => ?_
    exact .storeByteFrom id
  case strbtImm | strbtReg =>
    apply OutcomeConfined.ifPassed
    repeat with_reducible refine .after fun _ => ?_
    exact .storeByteFrom fun _ => rfl
  case strhImm | strhReg =>
    apply OutcomeConfined.ifPassed
    repeat with_reducible refine .after fun _ => ?_
    exact .storeHalfFrom
  case strdImm | strdReg =>
    apply OutcomeConfined.ifPassed
    repeat with_reducible refine .after fun _ => ?_
    exact .storeDoubleFrom
  case swp =>
    apply OutcomeConfined.ifPassed
    exact .user fun hs => .after fun _ => .after fun _ => .after fun _ => .after fun _ => .bind fun _ h =>
      .stored (.writeWord hs (aligned_wordAddress _) h) (by simp [State.guarded])
  case swpb =>
    apply OutcomeConfined.ifPassed
    exact .user fun hs => .after fun _ => .after fun _ => .after fun _ => .bind fun _ h =>
      .stored (.writeByte hs h) (by simp [State.guarded])
  case stm =>
    apply OutcomeConfined.ifPassed
    exact .after fun _ => .after fun _ => .storeBlock fun _ h => .stored h (by simp [State.guarded])
  case fsts =>
    apply OutcomeConfined.vfpRule
    exact .user fun hs => .bind fun _ ha => .bind fun _ h =>
      .advance (.writeWord hs (State.checkAligned_eq_ok ha) h)
  case fstd =>
    apply OutcomeConfined.vfpRule
    exact .user fun hs => .bind fun _ ha => .bind fun _ h => .bind fun _ h' =>
      .advance (.writePair hs (State.checkAligned_eq_ok ha) h h')
  case fstmias | fstmdbs | fstmiad | fstmdbd | fstmiax | fstmdbx =>
    apply OutcomeConfined.vfpRule
    exact .after fun _ => .vfpStoreBlock fun _ h => .stored h (by simp [State.guarded])
  -- What needs a mode with an SPSR, or a privileged one
  case ldmUser | stmUser =>
    apply OutcomeConfined.ifPassed
    exact .after fun _ => .spsr
  case ldmReturn =>
    apply OutcomeConfined.ifPassed
    exact .after fun _ => .spsr (b := false)
  case msrReg =>
    apply OutcomeConfined.ifPassed
    exact .after fun _ => .writePsr
  case msrImm =>
    apply OutcomeConfined.ifPassed
    exact .writePsr
  case fmxr =>
    apply OutcomeConfined.ifPassed
    exact .fmxr
  -- Branches, SWI, BKPT and the instructions that are undefined
  case b =>
    apply OutcomeConfined.ifPassed
    exact .ok ⟨rfl, rfl⟩
  case bl =>
    apply OutcomeConfined.ifPassed
    exact .ok (by simp [State.guarded])
  case blxLabel =>
    rw [exec_blxLabel]
    exact .always (.ok (by simp [State.guarded]))
  case bx =>
    apply OutcomeConfined.ifPassed
    exact .branchExchange ⟨rfl, rfl⟩
  case blxReg =>
    apply OutcomeConfined.ifPassed
    exact .after fun _ => .branchExchange (by simp [State.guarded])
  case swi =>
    apply OutcomeConfined.ifPassed
    exact .softwareInterrupt
  case bkpt =>
    apply OutcomeConfined.ifPassed
    exact .after fun _ => .breakpoint
  case unallocatedUncond =>
    rw [exec_unallocatedUncond]
    exact .always (.error _)
  -- Coprocessors
  case cdp | mcr | mcrr | mrrc | ldcPre | ldcPost =>
    apply OutcomeConfined.ifPassed
    repeat refine .after fun _ => ?_
    exact .done (by simp [State.guarded])
  case cdp2 | mcr2 | ldc2Pre | ldc2Post =>
    apply OutcomeConfined.always
    repeat refine .after fun _ => ?_
    exact .done (by simp [State.guarded])
  case mrc =>
    apply OutcomeConfined.ifPassed
    exact .after fun _ => .done (by split <;> simp [State.guarded])
  case mrc2 =>
    apply OutcomeConfined.always
    exact .after fun _ => .done (by split <;> simp [State.guarded])
  case stcPre | stcPost =>
    apply OutcomeConfined.ifPassed
    exact .coprocStore
  case stc2Pre | stc2Post =>
    apply OutcomeConfined.always
    exact .coprocStore
  all_goals cases harm  -- a Thumb instruction

/-- A Thumb instruction in User mode is confined, or takes an exception. -/
theorem exec_confined_of_thumb {s : State} {i : Instr} (hthumb : i.inThumb = true) : OutcomeConfined s (exec i s) := by
  cases i
  case tAddReg3 | tSubReg3 | tAddImm3 | tSubImm3 | tAddImm8 | tSubImm8 | tAdc | tSbc | tNeg | tAnd | tOrr | tEor |
      tBic | tMvn | tMovImm8 | tAsrReg | tLslReg | tLsrReg | tRor | tAsrImm | tLslImm | tLsrImm | tAddSp | tSubSp |
      tAddPcImm | tAddSpImm | tCmpHigh | tCmpImm8 | tCmpLow | tCmn | tTst | tBlFirst =>
    apply OutcomeConfined.always
    repeat refine .after fun _ => ?_
    exact .done (by simp [State.guarded])
  case tAddHigh | tMovHigh =>
    apply OutcomeConfined.always
    exact .after fun _ => .ite (.ok ⟨rfl, rfl⟩) (.done (by simp [State.guarded]))
  case tMul =>
    apply OutcomeConfined.always
    exact .after fun _ => .done (by split <;> simp [State.guarded])
  case tLdrImm | tLdrReg | tLdrPc | tLdrSpRel | tLdrhImm | tLdrhReg | tLdrshReg | tLdrbImm | tLdrbReg | tLdrsbReg |
      tLdmia =>
    apply OutcomeConfined.always
    repeat refine .after fun _ => ?_
    exact .done (by simp [State.guarded])
  case tPop =>
    apply OutcomeConfined.always
    exact .after fun _ => .after fun _ =>
      .ite (.popPc (by simp [State.guarded])) (.done (by simp [State.guarded]))
  case tStrImm | tStrReg | tStrSpRel =>
    apply OutcomeConfined.always
    exact .storeLowWord
  case tStrhImm | tStrhReg =>
    apply OutcomeConfined.always
    exact .storeLowHalf
  case tStrbImm | tStrbReg =>
    apply OutcomeConfined.always
    exact .storeLowByte
  case tPush =>
    apply OutcomeConfined.always
    exact .after fun _ => .storeLowBlock fun _ h => .stored h (by simp [State.guarded])
  case tStmia =>
    apply OutcomeConfined.always
    exact .after fun _ => .after fun _ => .storeLowBlock fun _ h => .stored h (by simp [State.guarded])
  -- Branches, SWI, BKPT and the instructions that are undefined
  case tBCond =>
    apply OutcomeConfined.ifPassed
    exact .ok ⟨rfl, rfl⟩
  case tB =>
    rw [exec_tB]
    exact .always (.ok ⟨rfl, rfl⟩)
  case tBlSecond =>
    rw [exec_tBlSecond]
    exact .always (.ok (by simp [State.guarded]))
  case tBlxSecond =>
    rw [exec_tBlxSecond]
    exact .always (.ok (by simp [State.guarded]))
  case tBx =>
    apply OutcomeConfined.always
    exact .branchExchange ⟨rfl, rfl⟩
  case tBlxReg =>
    apply OutcomeConfined.always
    exact .after fun _ => .branchExchange (by simp [State.guarded])
  case tSwi =>
    apply OutcomeConfined.always
    exact .softwareInterrupt
  case tBkpt =>
    apply OutcomeConfined.always
    exact .breakpoint
  case tUnallocated =>
    rw [exec_tUnallocated]
    exact .always (.error _)
  all_goals cases hthumb  -- an ARM instruction

theorem exec_confined (s : State) (i : Instr) : OutcomeConfined s (exec i s) := by
  cases h : i.inThumb
  · exact exec_confined_of_arm h
  · exact exec_confined_of_thumb h

theorem State.runNext_confined (s : State) : OutcomeConfined s s.runNext := by
  unfold State.runNext
  cases s.fetch with
  | abort => exact .exception s .prefetchAbort
  | unwritten => exact .fault s .unwritten
  | skip => exact .finish (.done ⟨rfl, rfl⟩)
  | undefined => exact .exception s .undefined
  | unpredictable => exact .fault s .shouldBeBits
  | run i => exact exec_confined s i

/-- A step from User mode: a run that has ended stays, an input line's exception is taken, or the instruction runs. -/
theorem step_confined {s t : State} (hs : s.privileged = false) (h : step s = .next t) :
    (∃ e, t = s.nextInputs.takeException e) ∨ s.Confined t := by
  unfold step at h
  split at h
  · cases h
    exact .inr (.refl s)
  · split at h
    · cases h
      exact .inl ⟨_, rfl⟩
    · have hinputs : s.Confined s.nextInputs := .of_guarded ⟨rfl, rfl⟩
      exact (s.nextInputs.runNext_confined.confined hs t h).imp_right hinputs.trans

/-- Settles O9: what `State.Confined` keeps, field by field, in User mode. -/
theorem userModeIsConfined : Obligations.UserModeIsConfined := by
  intro s t hm h
  have hs : s.privileged = false := by rw [State.privileged, hm]; rfl
  refine (step_confined hs h).imp_right fun hc => ?_
  have hguarded := hc.guarded
  simp only [State.guarded, Prod.mk.injEq] at hguarded
  obtain ⟨-, ⟨hmode, hi, hf⟩, ⟨hfiq, hirq, hsvc, habt, hund⟩, hexc, hhidden⟩ := hguarded
  refine ⟨hmode.trans hm, hi, hf, hfiq, hirq, hsvc, habt, hund, hexc, fun i hnot => ?_, hc.mem⟩
  exact State.get_of_hidden hhidden (by rw [hm]; exact hnot) hmode

end Sys2Proof.Machine
end

section
/-! ## The parts of a step: the input lines, the fetch, the decoding (60_exceptions.md R605, R611 to R613, R620) -/

namespace Sys2Proof.Machine

section
variable {s : State} {w : Word} {h : Half}

/-! ### What is fetched -/

/-- Taking a step's input changes nothing that the fetch looks at. -/
theorem State.fetch_nextInputs (s : State) : s.nextInputs.fetch = s.fetch := rfl

theorem State.fetch_refused (hallowed : s.fetchAllowed = false) : s.fetch = .abort := by
  rw [State.fetch, hallowed, Bool.not_false, if_pos rfl]

theorem State.fetch_thumb (hallowed : s.fetchAllowed = true) (ht : s.cpsr.t = true) : s.fetch = s.fetchThumb := by
  rw [State.fetch, hallowed, Bool.not_true, if_neg Bool.false_ne_true, if_pos ht]

theorem State.fetch_arm (hallowed : s.fetchAllowed = true) (ht : s.cpsr.t = false) : s.fetch = s.fetchArm := by
  rw [State.fetch, hallowed, Bool.not_true, if_neg Bool.false_ne_true, ht, if_neg Bool.false_ne_true]

theorem State.fetchThumb_written (hh : s.half s.pc = some h) :
    s.fetchThumb = .ofDecoded (decodeThumb s.cfg.arch h) := by
  rw [State.fetchThumb, hh]

theorem State.fetchThumb_unwritten (hh : s.half s.pc = none) : s.fetchThumb = .unwritten := by
  rw [State.fetchThumb, hh]

theorem State.fetchArm_unwritten (hw : s.word s.pc = none) : s.fetchArm = .unwritten := by
  rw [State.fetchArm, hw]

/-- A condition field that names a condition skips the word where that fails (R101). -/
theorem State.skips_of {c : Cond} (hc : Cond.ofBits (w.extractLsb' 28 4) = some c) :
    s.skips w = !s.cpsr.passed c := by
  rw [State.skips, hc]

/-- The unconditional space is never skipped (R101). -/
theorem State.skips_eq_false (hc : ∀ c, Cond.ofBits (w.extractLsb' 28 4) = some c → s.cpsr.passed c = true) :
    s.skips w = false := by
  cases hbits : Cond.ofBits (w.extractLsb' 28 4) with
  | none => rw [State.skips, hbits]
  | some c => rw [State.skips_of hbits, hc c hbits, Bool.not_true]

theorem State.fetchArm_passed (hw : s.word s.pc = some w)
    (hc : ∀ c, Cond.ofBits (w.extractLsb' 28 4) = some c → s.cpsr.passed c = true) :
    s.fetchArm = .ofDecoded (decodeArm s.cfg.arch s.vfpEnabled w) := by
  simp only [State.fetchArm, hw, State.skips_eq_false hc, Bool.false_eq_true, if_false]

theorem State.fetchArm_skipped (hw : s.word s.pc = some w) {c : Cond}
    (hbits : Cond.ofBits (w.extractLsb' 28 4) = some c) (hc : s.cpsr.passed c = false) : s.fetchArm = .skip := by
  simp only [State.fetchArm, hw, State.skips_of hbits, hc, Bool.not_false, if_true]

/-! ### What the step makes of it -/

theorem step_of_exited (hexit : s.exited ≠ none) : step s = .next s := by
  rw [step, if_pos (Option.isSome_iff_ne_none.mpr hexit)]

theorem step_of_interrupted (hexit : s.exited = none) {e : Exc} (he : s.interrupted s.input.lines = some e) :
    step s = .next (s.nextInputs.takeException e) := by
  simp only [step, hexit, Option.isSome_none, Bool.false_eq_true, if_false, he]

theorem step_of_quiet (hexit : s.exited = none) (hquiet : s.interrupted s.input.lines = none) :
    step s = s.nextInputs.runNext := by
  simp only [step, hexit, Option.isSome_none, Bool.false_eq_true, if_false, hquiet]

theorem State.runNext_nextInputs_run {i : Instr} (hf : s.fetch = .run i) :
    s.nextInputs.runNext = exec i s.nextInputs := by
  rw [State.runNext, State.fetch_nextInputs, hf]

theorem State.runNext_nextInputs_skip (hf : s.fetch = .skip) (hg : s.CanGoOn) :
    s.nextInputs.runNext = .next (s.nextInputs.setPc s.next) := by
  rw [State.runNext, State.fetch_nextInputs, hf]
  exact congrArg s.nextInputs.finish (State.advance_of (t := s.nextInputs) rfl rfl hg)

theorem State.runNext_nextInputs_unwritten (hf : s.fetch = .unwritten) :
    s.nextInputs.runNext = .fault .unwritten := by
  rw [State.runNext, State.fetch_nextInputs, hf]

theorem State.runNext_nextInputs_abort (hf : s.fetch = .abort) :
    s.nextInputs.runNext = .next (s.nextInputs.takeException .prefetchAbort) := by
  rw [State.runNext, State.fetch_nextInputs, hf]

theorem State.runNext_nextInputs_undefined (hf : s.fetch = .undefined) :
    s.nextInputs.runNext = .next (s.nextInputs.takeException .undefined) := by
  rw [State.runNext, State.fetch_nextInputs, hf]

theorem State.runNext_nextInputs_unpredictable (hf : s.fetch = .unpredictable) :
    s.nextInputs.runNext = .fault .shouldBeBits := by
  rw [State.runNext, State.fetch_nextInputs, hf]

end

/-- Settles O1: in each state what is fetched is what the decoder reads there, and the step runs it. -/
theorem stepRunsDecodedInstruction : Obligations.StepRunsDecodedInstruction := by
  intro s i hexit hquiet hallowed
  rw [step_of_quiet hexit hquiet]
  refine ⟨fun ht h hh hd => ?thumb, fun ht w hw hd hc => ?arm, fun ht hg w hw c hbits hc => ?skip,
    fun hnone => ?unwritten⟩
  case thumb =>
    refine State.runNext_nextInputs_run ?_
    rw [State.fetch_thumb hallowed ht, State.fetchThumb_written hh, hd, Fetched.ofDecoded]
  case arm =>
    refine State.runNext_nextInputs_run ?_
    rw [State.fetch_arm hallowed ht, State.fetchArm_passed hw hc, hd, Fetched.ofDecoded]
  case skip =>
    exact State.runNext_nextInputs_skip ((State.fetch_arm hallowed ht).trans (State.fetchArm_skipped hw hbits hc)) hg
  case unwritten =>
    refine State.runNext_nextInputs_unwritten ?_
    cases ht : s.cpsr.t with
    | true =>
      rw [ht, if_pos rfl] at hnone
      rw [State.fetch_thumb hallowed ht, State.fetchThumb_unwritten hnone]
    | false =>
      rw [ht, if_neg Bool.false_ne_true] at hnone
      rw [State.fetch_arm hallowed ht, State.fetchArm_unwritten hnone]

/-! ### The order of the input lines (R612) -/

section
variable {s : State} {d : Decoded}

theorem State.interrupted_reset {l : Lines} (hr : l.reset = true) : s.interrupted l = some .reset := by
  rw [State.interrupted, if_pos hr]

theorem State.interrupted_fiq {l : Lines} (hr : l.reset = false) (hfiq : l.fiq = true) (hf : s.cpsr.f = false) :
    s.interrupted l = some .fiq := by
  rw [State.interrupted, hr, hfiq, hf]; rfl

/-- A line that is low, or that the CPSR masks. -/
theorem line_masked {line mask : Bool} (h : line = false ∨ mask = true) : (line && !mask) = false := by
  rcases h with h | h <;> rw [h]
  · exact Bool.false_and _
  · exact Bool.and_false _

theorem State.interrupted_irq {l : Lines} (hr : l.reset = false) (hfiq : l.fiq = false ∨ s.cpsr.f = true)
    (hirq : l.irq = true) (hi : s.cpsr.i = false) : s.interrupted l = some .irq := by
  rw [State.interrupted, hr, line_masked hfiq, hirq, hi]; rfl

theorem State.interrupted_none {l : Lines} (hr : l.reset = false) (hfiq : l.fiq = false ∨ s.cpsr.f = true)
    (hirq : l.irq = false ∨ s.cpsr.i = true) : s.interrupted l = none := by
  rw [State.interrupted, hr, line_masked hfiq, line_masked hirq]; rfl

/-- What is fetched where something is, in the words of the statement. -/
theorem State.fetch_of_decoded (hallowed : s.fetchAllowed = true)
    (hd : if s.cpsr.t then (s.half s.pc).map (decodeThumb s.cfg.arch) = some d
      else ∃ w, s.word s.pc = some w ∧ decodeArm s.cfg.arch s.vfpEnabled w = d ∧
        ∀ c, Cond.ofBits (w.extractLsb' 28 4) = some c → s.cpsr.passed c = true) : s.fetch = .ofDecoded d := by
  cases ht : s.cpsr.t with
  | true =>
    rw [ht, if_pos rfl, Option.map_eq_some_iff] at hd
    obtain ⟨h, hh, rfl⟩ := hd
    rw [State.fetch_thumb hallowed ht, State.fetchThumb_written hh]
  | false =>
    rw [ht, if_neg Bool.false_ne_true] at hd
    obtain ⟨w, hw, rfl, hc⟩ := hd
    rw [State.fetch_arm hallowed ht, State.fetchArm_passed hw hc]

end

/-- Settles O2: each clause names the first test of the step that does not pass. -/
theorem stepTakesExceptionsInOrder : Obligations.StepTakesExceptionsInOrder := by
  intro s
  refine ⟨step_of_exited, fun hexit hr => step_of_interrupted hexit (State.interrupted_reset hr),
    fun hexit hr hfiq hf => step_of_interrupted hexit (State.interrupted_fiq hr hfiq hf),
    fun hexit hr hfiq hirq hi => step_of_interrupted hexit (State.interrupted_irq hr hfiq hirq hi),
    fun hexit hr hfiq hirq => ?_⟩
  rw [step_of_quiet hexit (State.interrupted_none hr hfiq hirq)]
  refine ⟨fun hallowed => State.runNext_nextInputs_abort (State.fetch_refused hallowed), fun d hallowed hd => ?_⟩
  have hfetch := State.fetch_of_decoded hallowed hd
  refine ⟨?_, ?_⟩
  · rintro rfl
    exact State.runNext_nextInputs_undefined hfetch
  · rintro rfl
    exact State.runNext_nextInputs_unpredictable hfetch

end Sys2Proof.Machine
end

section
/-! ## Entering an exception (60_exceptions.md R601, R603) -/

namespace Sys2Proof.Machine

theorem State.spsrOf_setSpsrOf_self (s : State) {b : Bank} (p : Psr) (hb : b ≠ .usr) :
    (s.setSpsrOf b p).spsrOf b = p := by
  cases b
  case usr => exact absurd rfl hb
  all_goals rfl

/-- The SPSR of another bank than the one written; the User bank has none (R33). -/
theorem State.spsrOf_setSpsrOf_ne (s : State) {b c : Bank} (p : Psr) (hc : c ≠ .usr) (h : c ≠ b) :
    (s.setSpsrOf b p).spsrOf c = s.spsrOf c := by
  revert hc h
  cases b <;> cases c <;> simp [State.spsrOf, State.setSpsrOf]

/-- Every exception enters a mode with a bank of its own (R601). -/
theorem Exc.bank_ne_usr (e : Exc) : bankOf e.mode ≠ .usr := by cases e <;> decide

section
variable (s : State) (e : Exc) (ret : Word)

theorem State.setSpsrOf_gpr (b : Bank) (p : Psr) : (s.setSpsrOf b p).gpr = s.gpr := by cases b <;> rfl

theorem State.enter_gpr : (s.enter e ret).gpr = s.gpr.set (physReg (bankOf e.mode) 14#4) ret :=
  State.setSpsrOf_gpr ..

/-- Only the CPSR and the pc are written after the link and the SPSR. -/
theorem State.enter_spsrOf {b : Bank} (hb : b ≠ .usr) :
    (s.enter e ret).spsrOf b = ((s.setBankReg (bankOf e.mode) 14#4 ret).setSpsrOf (bankOf e.mode) s.cpsr).spsrOf b := by
  cases b
  case usr => exact absurd rfl hb
  all_goals rfl

theorem State.reg_enter_link : (s.enter e ret).reg 14#4 = ret := by
  show (s.enter e ret).gpr.get (physReg (bankOf e.mode) 14#4) = ret
  rw [State.enter_gpr, vector_get_set_self]

theorem State.spsr_enter : (s.enter e ret).spsr = s.cpsr := by
  show (s.enter e ret).spsrOf (bankOf e.mode) = s.cpsr
  rw [State.enter_spsrOf _ _ _ e.bank_ne_usr, State.spsrOf_setSpsrOf_self _ _ e.bank_ne_usr]

theorem State.get_enter_of_ne {i : Fin 30} (hi : i ≠ physReg (bankOf e.mode) 14#4) :
    (s.enter e ret).gpr.get i = s.gpr.get i := by
  rw [State.enter_gpr, vector_get_set_ne _ _ _ _ hi]

theorem State.spsrOf_enter_of_ne {b : Bank} (hb : b ≠ .usr) (h : b ≠ bankOf e.mode) :
    (s.enter e ret).spsrOf b = s.spsrOf b := by
  rw [State.enter_spsrOf _ _ _ hb, State.spsrOf_setSpsrOf_ne _ _ hb h]
  cases b <;> rfl

theorem State.enter_only : s.enter e ret = { s with
    gpr := (s.enter e ret).gpr, pc := (s.enter e ret).pc, cpsr := (s.enter e ret).cpsr
    spsrFiq := (s.enter e ret).spsrFiq, spsrIrq := (s.enter e ret).spsrIrq, spsrSvc := (s.enter e ret).spsrSvc
    spsrAbt := (s.enter e ret).spsrAbt, spsrUnd := (s.enter e ret).spsrUnd } := by
  rw [State.enter]
  cases bankOf e.mode <;> rfl

end

/-- Settles O5: the table of the statement is the model's own, and the rest holds of every entry. -/
theorem exceptionEntry : Obligations.ExceptionEntry := by
  intro s e mode offset ret masksFiq hmem
  have htable : s.takeException e = s.enter e ret ∧ mode = e.mode ∧ offset = e.offset ∧ masksFiq = e.masksFiq := by
    simp only [List.mem_cons, List.not_mem_nil, or_false, Prod.mk.injEq] at hmem
    rcases hmem with ⟨rfl, rfl, rfl, rfl, rfl⟩ | ⟨rfl, rfl, rfl, rfl, rfl⟩ | ⟨rfl, rfl, rfl, rfl, rfl⟩ |
      ⟨rfl, rfl, rfl, rfl, rfl⟩ | ⟨rfl, rfl, rfl, rfl, rfl⟩ | ⟨rfl, rfl, rfl, rfl, rfl⟩ <;>
      exact ⟨rfl, rfl, rfl, rfl⟩
  obtain ⟨htake, rfl, rfl, rfl⟩ := htable
  rw [htake]
  exact ⟨rfl, rfl, s.reg_enter_link e ret, s.spsr_enter e ret, fun i => s.get_enter_of_ne e ret,
    fun b => s.spsrOf_enter_of_ne e ret, s.enter_only e ret⟩

end Sys2Proof.Machine
end

section
/-! ## The Thumb data-processing instructions (47_thumb_data_processing.md R410 to R444) -/

namespace Sys2Proof.Machine

/-! ### The ends of the rules: each is the end of an ARM data-processing rule -/

section
variable {i : Instr} {s : State} {rd : LowReg}

/-- A result in a low register with its flags is one in an ARM register with S (R411, R425). -/
theorem writesReg_of_lowResult {v : Word} {f : Nzcv}
    (hi : exec i s = s.finish ((s.setReg (lowReg rd) v).setNzcv f).advance) (hg : s.CanGoOn) :
    WritesReg i s (lowReg rd) v f :=
  (writesReg_or_pcWrap (b := true) (hi.trans (by
    rw [State.writeResult, if_neg (lowReg_ne_pc rd)]
    rfl)) (lowReg_ne_pc rd)).1 hg

/-- A sum or difference is the one of the ARM operation (R411 to R416, R422, R423, R443). -/
theorem writesReg_of_lowSum (op : ArithOp) {a b : Word} {c : Bool}
    (hi : exec i s = s.finish (s.writeLowSum rd (op.alu a b c))) (hg : s.CanGoOn) :
    WritesReg i s (lowReg rd) (op.value a b c) (op.flags a b c) := by
  rw [← op.alu_value, ← op.alu_nzcv]
  exact writesReg_of_lowResult hi hg

/-- A logical result keeps V (R425, R429). -/
theorem writesReg_of_lowLogical {v : Word} {c : Bool} (hi : exec i s = s.finish (s.writeLowLogical rd v c))
    (hg : s.CanGoOn) : WritesReg i s (lowReg rd) v (resultFlags v c s.cpsr.v) := by
  rw [← logicalNzcv_eq]
  exact writesReg_of_lowResult hi hg

/-- A result that leaves the flags alone (R418 to R421). -/
theorem writesReg_of_plainRule {r : Reg} {v : Word} (hr : r ≠ 15#4)
    (hi : exec i s = s.finish (s.setReg r v).advance) (hg : s.CanGoOn) : WritesReg i s r v s.cpsr.nzcv :=
  writesReg_of_plain hr (by rw [hi, State.advance_setReg hg, State.finish_ok])

/-- A comparison or test, as in ARM state (R437 to R439, R444). -/
theorem writesFlags_of_compare (op : CompareOp) {a : Word} {b : Shifted} (hi : exec i s = s.finish (op.rule s a b))
    (hg : s.CanGoOn) : WritesFlags i s (op.flags a b s.cpsr.v) :=
  (writesFlags_or_pcWrap (hi.trans (by rw [op.rule_eq]))).1 hg

end

/-! ### MUL (R424) -/

section
variable {rm rd : LowReg} {s : State}

/-- MUL counts the two flags it draws as the long multiplies do (D25). -/
theorem exec_tMul_eq : exec (.tMul rm rd) s = s.finish (forbid (rm == rd) .sameRegister >>= fun _ =>
    (((s.setReg (lowReg rd) (s.low rd * s.low rm)).setNzcv (s.lowMulNzcv (s.low rd * s.low rm))).drawnIf
      true 2).advance) := by
  have hdraws (t : State) (ht : t.cfg = s.cfg) :
      (if s.cfg.arch.atLeast5 then t else t.drawn 2) = t.drawnIf true 2 := by
    rw [State.drawnIf, ht]
    cases s.cfg.arch.atLeast5 <;> rfl
  rw [← hdraws _ (by simp)]
  rfl

theorem State.lowMul_flags (v : Word) :
    s.LongMulFlags (((s.setReg (lowReg rd) v).setNzcv (s.lowMulNzcv v)).drawnIf true 2) true v.msb
      (decide (v = 0#32)) := by
  rw [State.LongMulFlags, if_pos rfl, State.drawnIf_cpsr, State.setNzcv_cpsr]
  refine ⟨rfl, beq_eq_decide _ _, fun hv => ?_⟩
  have h5 : s.cfg.arch.atLeast5 = true := by rw [Arch.atLeast5_eq, hv]; rfl
  simp [Psr.withNzcv, State.lowMulNzcv, h5]

theorem tMul_completes (hne : rm ≠ rd) (hg : s.CanGoOn) : Completes (.tMul rm rd) s fun t =>
    t.reg (lowReg rd) = s.low rd * s.low rm ∧
      s.LongMulFlags t true (s.low rd * s.low rm).msb (decide (s.low rd * s.low rm = 0#32)) ∧
      s.GoesOnDrawing t [lowReg rd] := by
  generalize hv : s.low rd * s.low rm = v
  have hpc := lowReg_ne_pc rd
  refine .of_rule (by rw [exec_tMul_eq, bind_of_ok (forbid_of_not (beq_false_of_ne hne) _), hv])
    (State.advance_drawnIf (by simp) (by simp [Psr.withNzcv]) hg true 2) ⟨?value, State.lowMul_flags v, ?frame⟩
  case value =>
    rw [State.reg_setPc _ _ _ hpc, State.drawnIf_frame]
    exact (State.reg_setNzcvIf _ true _ _).trans (State.reg_setReg_self _ _ _ hpc)
  case frame =>
    exact State.goesOnDrawing_of true 2
      (((State.RegsKept.refl s [lowReg rd]).setReg (r := lowReg rd) rfl (by simp) v).congr (by simp)) (by simp)
      (by simp) (by simp) (by simp)

end

/-- Settles O43: the additions and subtractions are those of ARM state on low registers. -/
theorem thumbArithmetic : Obligations.ThumbArithmetic := by
  refine fun rm rn rd imm3 imm8 s => ⟨fun h => ?twice, fun hg => ⟨?_, ?_, ?_, ?_, ?_, ?_, ?_, ?_, ?_, ?mul⟩⟩
  case twice => exact .of_finish exec_tMul_eq (ruleFaults_forbid_bind.mpr (.inl (beq_iff_eq.mpr h)))
  case mul => exact fun hne => tMul_completes hne hg
  · exact writesReg_of_lowSum .add (c := s.cpsr.c) rfl hg
  · exact writesReg_of_lowSum .sub (c := s.cpsr.c) rfl hg
  · exact writesReg_of_lowSum .add (c := s.cpsr.c) rfl hg
  · exact writesReg_of_lowSum .sub (c := s.cpsr.c) rfl hg
  · exact writesReg_of_lowSum .add (c := s.cpsr.c) rfl hg
  · exact writesReg_of_lowSum .sub (c := s.cpsr.c) rfl hg
  · exact writesReg_of_lowSum .adc rfl hg
  · exact writesReg_of_lowSum .sbc rfl hg
  · exact writesReg_of_lowSum .sub (c := s.cpsr.c) rfl hg

/-- Settles O44: every one of them ends in a logical result; a shift is an Operand2 of ARM state. -/
theorem thumbLogicAndShifts : Obligations.ThumbLogicAndShifts := fun _ rd _ _ s hg =>
  have logic {i : Instr} {v : Word} (hi : exec i s = s.finish (s.writeLowLogical rd v s.cpsr.c)) :
      WritesReg i s (lowReg rd) v (resultFlags v s.cpsr.c s.cpsr.v) := writesReg_of_lowLogical hi hg
  have shift {i : Instr} {o : Shifted} (hi : exec i s = s.finish (s.writeLowLogical rd o.value o.carry)) :
      WritesReg i s (lowReg rd) o.value (resultFlags o.value o.carry s.cpsr.v) := writesReg_of_lowLogical hi hg
  ⟨logic rfl, logic rfl, logic rfl, logic rfl, logic rfl, logic rfl, shift rfl, shift rfl, shift rfl, shift rfl,
    shift rfl, shift rfl, shift rfl⟩

/-! ### The high registers (R417, R441, R439) -/

section
variable {h1 h2 : Bool}

/-- The forms with two low registers are the forbidden ones (R417, R439, R441). -/
theorem lowRegisters_false (h : h1 = true ∨ h2 = true) : (!h1 && !h2) = false := by
  rcases h with rfl | rfl
  · rfl
  · exact Bool.and_false _

theorem Faults.of_lowRegisters {i : Instr} {s : State} {rule : State → Except Trap State}
    (hi : exec i s = s.always fun s => forbid (!h1 && !h2) .lowRegisters >>= fun _ => rule s) (hn1 : h1 = false)
    (hn2 : h2 = false) : Faults i s :=
  .of_finish hi (ruleFaults_forbid_bind.mpr (.inl (by rw [hn1, hn2]; rfl)))

theorem exec_of_highRegister {i : Instr} {s : State} {rule : State → Except Trap State}
    (hi : exec i s = s.always fun s => forbid (!h1 && !h2) .lowRegisters >>= fun _ => rule s)
    (h : h1 = true ∨ h2 = true) : exec i s = s.finish (rule s) := by
  rw [hi, State.always_eq, bind_of_ok (forbid_of_not (lowRegisters_false h) _)]

end

section
variable {i : Instr} {s : State} {d : Reg} {v : Word} (hi : exec i s = s.finish (s.writeHigh d v))
include hi

/-- A result in r15 is a branch within Thumb state (R28(d)). -/
theorem exec_writeHigh_pc (hd : d = 15#4) : exec i s = .next (s.setPc (v &&& 0xFFFFFFFE#32)) := by
  rw [hi, State.writeHigh, if_pos hd, State.finish_ok]

theorem writesReg_of_writeHigh (hd : d ≠ 15#4) (hg : s.CanGoOn) : WritesReg i s d v s.cpsr.nzcv :=
  writesReg_of_plainRule hd (by rw [hi, State.writeHigh, if_neg hd]) hg

end

/-- Settles O45: ADD and MOV with a high register share the test of their registers and their end. -/
theorem thumbHighRegisters : Obligations.ThumbHighRegisters := by
  refine fun h1 h2 rm rd imm7 imm8 s => ⟨fun hn1 hn2 => ⟨.of_lowRegisters (exec_tAddHigh ..) hn1 hn2,
    .of_lowRegisters (exec_tMovHigh ..) hn1 hn2⟩, fun h => ?high, fun hg => ?plain⟩
  case high =>
    have hadd := exec_of_highRegister (exec_tAddHigh h1 h2 rm rd s) h
    have hmov := exec_of_highRegister (exec_tMovHigh h1 h2 rm rd s) h
    exact ⟨fun hd => ⟨exec_writeHigh_pc hadd hd, exec_writeHigh_pc hmov hd⟩,
      fun hd hg => ⟨writesReg_of_writeHigh hadd hd hg, writesReg_of_writeHigh hmov hd hg⟩⟩
  case plain =>
    exact ⟨writesReg_of_plainRule (by decide) rfl hg, writesReg_of_plainRule (by decide) rfl hg,
      writesReg_of_plainRule (lowReg_ne_pc rd) rfl hg, writesReg_of_plainRule (lowReg_ne_pc rd) rfl hg⟩

/-- Settles O46: the comparisons and TST are those of ARM state, the carry of TST being the old one. -/
theorem thumbCompares : Obligations.ThumbCompares := by
  refine fun h1 h2 rm rd imm8 s => ⟨.of_lowRegisters (exec_tCmpHigh ..), fun hg => ⟨?_, ?_, ?_, ?_, fun h => ?_⟩⟩
  · exact writesFlags_of_compare .cmp (b := ⟨imm8.zeroExtend 32, s.cpsr.c⟩) rfl hg
  · exact writesFlags_of_compare .cmp (b := ⟨s.low rm, s.cpsr.c⟩) rfl hg
  · exact writesFlags_of_compare .cmn (b := ⟨s.low rm, s.cpsr.c⟩) rfl hg
  · exact writesFlags_of_compare .tst (b := ⟨s.low rm, s.cpsr.c⟩) rfl hg
  · exact writesFlags_of_compare .cmp (b := ⟨s.reg (bit1 h2 ++ rm), s.cpsr.c⟩)
      (exec_of_highRegister (exec_tCmpHigh h1 h2 rm rd s) h) hg

end Sys2Proof.Machine
end

section
/-! ## The VFP instructions as rules, and where they do not run (49_vfp.md R500, R504, R542) -/

namespace Sys2Proof.Machine

/-! ### The arithmetic instructions of one precision share a rule -/

section
variable {cond : Cond} {s : State}

theorem VfpOp.exec_single (op : VfpOp) (fn fd fm : SReg) : exec (op.single cond fn fd fm) s = s.vfpRule cond fun s =>
    s.vfpArith .single fd.toNat fn.toNat fm.toNat (op.result fpSingle s.fpMode) := by cases op <;> rfl

theorem VfpOp.exec_double (op : VfpOp) (fn fd fm : DReg) : exec (op.double cond fn fd fm) s = s.vfpRule cond fun s =>
    s.vfpArith .double fd.toNat fn.toNat fm.toNat (op.result fpDouble s.fpMode) := by cases op <;> rfl

/-- What an operation on one operand does, in the model's own terms (R510 to R512, R518). -/
def VfpUnary.operate (op : VfpUnary) (p : Precision) (fd fm : Nat) (s : State) : Except Trap State :=
  match op with
  | .cpy => s.vfpMove p fd fm id
  | .abs => s.vfpMove p fd fm p.format.clearSign
  | .neg => s.vfpMove p fd fm p.format.flipSign
  | .sqrt => s.vfpArith p fd fd fm fun _ _ m => p.format.sqrt s.fpMode m

theorem VfpUnary.exec_single (op : VfpUnary) (fd fm : SReg) :
    exec (op.single cond fd fm) s = s.vfpRule cond (op.operate .single fd.toNat fm.toNat) := by cases op <;> rfl

theorem VfpUnary.exec_double (op : VfpUnary) (fd fm : DReg) :
    exec (op.double cond fd fm) s = s.vfpRule cond (op.operate .double fd.toNat fm.toNat) := by cases op <;> rfl

end

/-! ### The multiple transfers of one kind share a rule -/

section
variable (f : VfpBlock) (cond : Cond) (rn : Reg) (sd : SReg) (dd : DReg) (c8 : BitVec 8) (c7 : BitVec 7) (s : State)

theorem VfpBlock.exec_fldms : exec (f.fldms cond rn sd c8) s = s.vfpRule cond fun s =>
    s.vfpLoadSingles f.up f.writeback rn sd.toNat c8.toNat := by cases f <;> rfl

theorem VfpBlock.exec_fldmd : exec (f.fldmd cond rn dd c7) s = s.vfpRule cond fun s =>
    s.vfpLoadDoubles f.up f.writeback rn dd.toNat c7.toNat := by cases f <;> rfl

theorem VfpBlock.exec_fldmx : exec (f.fldmx cond rn dd c7) s = s.vfpRule cond fun s =>
    s.vfpLoadUnknown f.up f.writeback rn dd.toNat c7.toNat := by cases f <;> rfl

theorem VfpBlock.exec_fstms : exec (f.fstms cond rn sd c8) s = s.vfpRule cond fun s =>
    s.vfpStoreSingles f.up f.writeback rn sd.toNat c8.toNat := by cases f <;> rfl

theorem VfpBlock.exec_fstmd : exec (f.fstmd cond rn dd c7) s = s.vfpRule cond fun s =>
    s.vfpStoreDoubles f.up f.writeback rn dd.toNat c7.toNat := by cases f <;> rfl

theorem VfpBlock.exec_fstmx : exec (f.fstmx cond rn dd c7) s = s.vfpRule cond fun s =>
    s.vfpStoreUnknown f.up f.writeback rn dd.toNat c7.toNat := by cases f <;> rfl

end

/-! ### The system registers (R146, R542) -/

theorem vfpSystem_other {reg : BitVec 4} (h0 : reg ≠ 0#4) (h1 : reg ≠ 1#4) (h8 : reg ≠ 8#4) :
    vfpSystem reg = .other := by
  rw [vfpSystem, if_neg h0, if_neg h1, if_neg h8]

/-- Only FPSID and FPEXC can be reached while the VFP is disabled. -/
theorem State.needVfpSystem_disabled {s : State} {reg : BitVec 4} (he : s.vfpEnabled = false) (h0 : reg ≠ 0#4)
    (h8 : reg ≠ 8#4) : s.needVfpSystem (vfpSystem reg) = .error (.exc .undefined) := by
  rw [vfpSystem, if_neg h0]
  split_ifs with h1
  · exact State.needVfp_undefined he
  · rw [State.needVfpSystem, State.needVfp_undefined he, bind_error]

/-- None can be reached where there is no VFP. -/
theorem State.needVfpSystem_absent {s : State} (hf : s.cfg.arch.fpu = .none) (r : VfpSystem) :
    s.needVfpSystem r = .error (.exc .undefined) := by
  have hfpu : s.cfg.arch.hasFpu = false := by rw [Arch.hasFpu_eq, hf]; rfl
  have he : s.vfpEnabled = false := by rw [State.vfpEnabled, hfpu, Bool.false_and]
  cases r with
  | fpsid => rw [State.needVfpSystem, hfpu]; rfl
  | fpscr => exact State.needVfp_undefined he
  | fpexc => rw [State.needVfpSystem, hfpu]; rfl
  | other => rw [State.needVfpSystem, State.needVfp_undefined he, bind_error]

section
variable {cond : Cond} {s : State} (hc : s.cpsr.passed cond = true)
include hc

theorem Takes.of_vfpDisabled {i : Instr} {rule : State → Except Trap State} (hi : exec i s = s.vfpRule cond rule)
    (he : s.vfpEnabled = false) : Takes i s .undefined := hi.trans (State.vfpRule_disabled hc he rule)

theorem exec_of_vfpRule {i : Instr} {rule : State → Except Trap State} (he : s.vfpEnabled = true)
    (hi : exec i s = s.vfpRule cond rule) : exec i s = s.finish (rule s) :=
  hi.trans (State.vfpRule_true hc he rule)

/-- The two transfers of a system register begin with the same test. -/
theorem takes_undefined_of_needVfpSystem {reg : BitVec 4}
    (h : s.needVfpSystem (vfpSystem reg) = .error (.exc .undefined)) (rd : Reg) :
    Takes (.fmrx cond reg rd) s .undefined ∧ Takes (.fmxr cond reg rd) s .undefined := by
  refine ⟨.of_rule ((exec_fmrx ..).trans (State.ifPassed_true hc _)) ?_,
    .of_rule ((exec_fmxr ..).trans (State.ifPassed_true hc _)) ?_⟩
  all_goals rw [h, bind_error]

theorem exec_of_vfpArith_trapping {i : Instr} {p : Precision} {fd fn fm : Nat} {op : State → Nat → Nat → Nat → FpResult}
    (hi : exec i s = s.vfpRule cond fun s => s.vfpArith p fd fn fm (op s)) (he : s.vfpEnabled = true)
    (ht : s.trapEnables ≠ 0#5) : exec i s = .refused .vfpTrapEnabled := by
  rw [hi, State.vfpRule_true hc he, State.vfpArith, State.refuseTraps_refused ht, bind_error]
  rfl

end

/-- Settles O60: every VFP instruction begins with the test for the VFP, the arithmetic ones then with that for a
trap. -/
theorem vfpDisabledOrTrapping : Obligations.VfpDisabledOrTrapping := by
  refine ⟨fun cond sn sd sm dn dd dm rn rd u off f count8 count7 reg s hc he => ?disabled,
    fun cond sn sd sm dn dd dm s hc he ht => ?trapping⟩
  case disabled =>
    have takes {i : Instr} {rule : State → Except Trap State} (hi : exec i s = s.vfpRule cond rule) :
        Takes i s .undefined := .of_vfpDisabled hc hi he
    refine ⟨fun op => ⟨takes (op.exec_single ..), takes (op.exec_double ..)⟩,
      fun op => ⟨takes (op.exec_single ..), takes (op.exec_double ..)⟩, ?listed,
      fun h0 h8 => takes_undefined_of_needVfpSystem hc (State.needVfpSystem_disabled he h0 h8) rd,
      fun hf => takes_undefined_of_needVfpSystem hc (State.needVfpSystem_absent hf _) rd⟩
    case listed =>
      simp only [List.forall_mem_cons, List.not_mem_nil, false_imp_iff, implies_true, and_true]
      exact ⟨takes (exec_fcmps ..), takes (exec_fcmpd ..), takes (exec_fcmpes ..), takes (exec_fcmped ..),
        takes (exec_fcmpzs ..), takes (exec_fcmpzd ..), takes (exec_fcmpezs ..), takes (exec_fcmpezd ..),
        takes (exec_fcvtds ..), takes (exec_fcvtsd ..), takes (exec_fuitos ..), takes (exec_fuitod ..),
        takes (exec_fsitos ..), takes (exec_fsitod ..), takes (exec_ftouis ..), takes (exec_ftouid ..),
        takes (exec_ftouizs ..), takes (exec_ftouizd ..), takes (exec_ftosis ..), takes (exec_ftosid ..),
        takes (exec_ftosizs ..), takes (exec_ftosizd ..), takes (exec_fmsr ..), takes (exec_fmrs ..),
        takes (exec_fmdlr ..), takes (exec_fmrdl ..), takes (exec_fmdhr ..), takes (exec_fmrdh ..),
        takes (exec_fmstat ..), takes (exec_flds ..), takes (exec_fldd ..), takes (exec_fsts ..),
        takes (exec_fstd ..), takes (f.exec_fldms ..), takes (f.exec_fldmd ..), takes (f.exec_fldmx ..),
        takes (f.exec_fstms ..), takes (f.exec_fstmd ..), takes (f.exec_fstmx ..)⟩
  case trapping =>
    exact ⟨fun op => ⟨exec_of_vfpArith_trapping hc (op.exec_single ..) he ht,
        exec_of_vfpArith_trapping hc (op.exec_double ..) he ht⟩,
      exec_of_vfpArith_trapping hc (exec_fsqrts ..) he ht, exec_of_vfpArith_trapping hc (exec_fsqrtd ..) he ht⟩

end Sys2Proof.Machine
end

section
/-! ## The VFP register transfers (49_vfp.md R536 to R544) -/

namespace Sys2Proof.Machine

/-! ### One half of a double register (R536, R537) -/

theorem State.setSreg_sreg (s : State) (i : Nat) : s.setSreg i (s.sreg i) = s := by
  have hset : s.vfp.set (Fin.ofNat 32 i) (s.vfp.get (Fin.ofNat 32 i)) = s.vfp := Vector.set_getElem_self _
  rw [State.setSreg, State.sreg, hset]

theorem State.extractLsb'_low_dreg (s : State) (i : Nat) : (s.dreg i).extractLsb' 0 32 = s.sreg (2 * i) :=
  BitVec.extractLsb'_append_eq_right

theorem State.extractLsb'_high_dreg (s : State) (i : Nat) : (s.dreg i).extractLsb' 32 32 = s.sreg (2 * i + 1) :=
  BitVec.extractLsb'_append_eq_left

theorem State.setDreg_append (s : State) (i : Nat) (v w : Word) :
    s.setDreg i (v ++ w) = (s.setSreg (2 * i) w).setSreg (2 * i + 1) v := by
  rw [State.setDreg, BitVec.extractLsb'_append_eq_right, BitVec.extractLsb'_append_eq_left]

theorem State.setDreg_keepingHigh {s : State} {i : Nat} (hi : i < 16) (v : Word) :
    s.setDreg i ((s.dreg i).extractLsb' 32 32 ++ v) = s.setSreg (2 * i) v := by
  rw [State.setDreg_append, State.extractLsb'_high_dreg,
    ← State.sreg_setSreg_ne s v (i := 2 * i) (j := 2 * i + 1) (by omega) (by omega) (by omega), State.setSreg_sreg]

theorem State.setDreg_keepingLow (s : State) (i : Nat) (v : Word) :
    s.setDreg i (v ++ (s.dreg i).extractLsb' 0 32) = s.setSreg (2 * i + 1) v := by
  rw [State.setDreg_append, State.extractLsb'_low_dreg, State.setSreg_sreg]

/-! ### Transfers to and from an ARM register -/

section
variable {i : Instr} {s t : State} {rd : Reg} {v : Word}

theorem Faults.of_vfpToArm (hi : exec i s = s.finish (s.vfpToArm rd v)) (h : rd = 15#4) : Faults i s :=
  .of_finish hi (ruleFaults_forbid_bind.mpr (.inl (by rw [h, isPc_pc])))

theorem writesReg_of_vfpToArm (hi : exec i s = s.finish (s.vfpToArm rd v)) (h : rd ≠ 15#4) (hg : s.CanGoOn) :
    WritesReg i s rd v s.cpsr.nzcv :=
  writesReg_of_plainRule h (hi.trans (by rw [State.vfpToArm, bind_of_ok (forbid_of_not (isPc_false h) _)])) hg

/-- The transfers from an ARM register write one VFP register or one system register, here `t`. -/
theorem Faults.of_fromArm (hi : exec i s = s.finish (forbid (isPc rd) .forbiddenPc >>= fun _ => t.advance))
    (h : rd = 15#4) : Faults i s :=
  .of_finish hi (ruleFaults_forbid_bind.mpr (.inl (by rw [h, isPc_pc])))

theorem exec_of_fromArm (hi : exec i s = s.finish (forbid (isPc rd) .forbiddenPc >>= fun _ => t.advance))
    (hp : t.pc = s.pc) (ht : t.cpsr = s.cpsr) (h : rd ≠ 15#4) (hg : s.CanGoOn) : exec i s = .next (t.setPc s.next) := by
  rw [hi, bind_of_ok (forbid_of_not (isPc_false h) _), State.advance_of hp (congrArg Psr.t ht) hg, State.finish_ok]

end

/-! ### The system registers -/

section
variable {cond : Cond} {s : State} {reg : BitVec 4} {rd : Reg}

theorem State.needVfpSystem_fpscr (he : s.vfpEnabled = true) : s.needVfpSystem (vfpSystem 1#4) = .ok () :=
  State.needVfp_ok he

theorem State.needVfpSystem_fpsid (hf : s.cfg.arch.fpu ≠ .none) : s.needVfpSystem (vfpSystem 0#4) = .ok () :=
  if_pos (by rw [Arch.hasFpu_eq, decide_eq_true hf])

theorem State.needVfpSystem_fpexc (hf : s.cfg.arch.fpu ≠ .none) (hp : s.privileged = true) :
    s.needVfpSystem (vfpSystem 8#4) = .ok () :=
  if_pos (by rw [Arch.hasFpu_eq, decide_eq_true hf, hp]; rfl)

/-- FPEXC is out of reach of User mode (R500, R542). -/
theorem State.needVfpSystem_fpexc_user (hp : s.privileged = false) :
    s.needVfpSystem (vfpSystem 8#4) = .error (.exc .undefined) :=
  if_neg (by rw [hp, Bool.and_false]; decide)

theorem State.needVfpSystem_other (he : s.vfpEnabled = true) (h0 : reg ≠ 0#4) (h1 : reg ≠ 1#4) (h8 : reg ≠ 8#4) :
    s.needVfpSystem (vfpSystem reg) = .error (.fault .vfpSystemRegister) := by
  rw [vfpSystem_other h0 h1 h8, State.needVfpSystem, bind_of_ok (State.needVfp_ok he)]
  rfl

variable (hc : s.cpsr.passed cond = true)
include hc

section
variable (h : s.needVfpSystem (vfpSystem reg) = .ok ())
include h

theorem exec_fmrx_of_need : exec (.fmrx cond reg rd) s =
    s.finish (s.vfpToArm rd (s.vfpSystemValue (vfpSystem reg))) := by
  rw [exec_fmrx, execFmrx, State.ifPassed_true hc, bind_of_ok h]
  rfl

theorem exec_fmxr_of_need : exec (.fmxr cond reg rd) s = s.finish (forbid (isPc rd) .forbiddenPc >>= fun _ =>
    (s.setVfpSystem (s.reg rd) (vfpSystem reg)).advance) := by
  rw [exec_fmxr, execFmxr, State.ifPassed_true hc, bind_of_ok h]

theorem faults_systemTransfers_pc (hr : rd = 15#4) : Faults (.fmrx cond reg rd) s ∧ Faults (.fmxr cond reg rd) s :=
  ⟨.of_vfpToArm (exec_fmrx_of_need hc h) hr, .of_fromArm (exec_fmxr_of_need hc h) hr⟩

end

theorem faults_otherSystemRegister (he : s.vfpEnabled = true) (h0 : reg ≠ 0#4) (h1 : reg ≠ 1#4) (h8 : reg ≠ 8#4) :
    Faults (.fmrx cond reg rd) s ∧ Faults (.fmxr cond reg rd) s := by
  refine ⟨⟨.vfpSystemRegister, exec_fault_of_rule ((exec_fmrx ..).trans (State.ifPassed_true hc _)) ?_⟩,
    ⟨.vfpSystemRegister, exec_fault_of_rule ((exec_fmxr ..).trans (State.ifPassed_true hc _)) ?_⟩⟩
  all_goals rw [State.needVfpSystem_other he h0 h1 h8, bind_error]

end

/-- Settles O57: each instruction is a transfer to or from an ARM register, after the test for what it needs. -/
theorem vfpRegisterTransfers : Obligations.VfpRegisterTransfers := by
  refine fun cond sn dn rd s hc => ⟨fun he hr => ?pc, fun he hg => ?enabled, fun hf => ⟨fun hr => ?idPc,
    fun hr hg => ?id, fun hp hr => ?excPc, fun hp hr hg => ?exc⟩, fun hp => ?user, fun reg h0 h1 h8 he => ?other⟩
  case pc =>
    have hrule := State.vfpRule_true hc he
    obtain ⟨hfmrx, hfmxr⟩ := faults_systemTransfers_pc hc (State.needVfpSystem_fpscr he) hr
    simp only [List.forall_mem_cons, List.not_mem_nil, false_imp_iff, implies_true, and_true]
    exact ⟨.of_fromArm ((exec_fmsr ..).trans (hrule _)) hr, .of_vfpToArm ((exec_fmrs ..).trans (hrule _)) hr,
      .of_fromArm ((exec_fmdlr ..).trans (hrule _)) hr, .of_vfpToArm ((exec_fmrdl ..).trans (hrule _)) hr,
      .of_fromArm ((exec_fmdhr ..).trans (hrule _)) hr, .of_vfpToArm ((exec_fmrdh ..).trans (hrule _)) hr, hfmrx, hfmxr⟩
  case enabled =>
    have hrule := State.vfpRule_true hc he
    have hneed := State.needVfpSystem_fpscr he
    refine ⟨(writesFlags_or_pcWrap ((exec_fmstat ..).trans (hrule _))).1 hg, fun hr => ⟨?fmsr, ?fmdlr, ?fmdhr,
      writesReg_of_vfpToArm ((exec_fmrs ..).trans (hrule _)) hr hg, ?fmrdl, ?fmrdh,
      writesReg_of_vfpToArm (exec_fmrx_of_need hc hneed) hr hg,
      exec_of_fromArm (exec_fmxr_of_need hc hneed) rfl rfl hr hg⟩⟩
    case fmsr => exact exec_of_fromArm ((exec_fmsr ..).trans (hrule _)) rfl rfl hr hg
    case fmdlr =>
      rw [State.setDreg_keepingHigh dn.isLt]
      exact exec_of_fromArm ((exec_fmdlr ..).trans (hrule _)) rfl rfl hr hg
    case fmdhr =>
      rw [State.setDreg_keepingLow]
      exact exec_of_fromArm ((exec_fmdhr ..).trans (hrule _)) rfl rfl hr hg
    case fmrdl =>
      rw [State.extractLsb'_low_dreg]
      exact writesReg_of_vfpToArm ((exec_fmrdl ..).trans (hrule _)) hr hg
    case fmrdh =>
      rw [State.extractLsb'_high_dreg]
      exact writesReg_of_vfpToArm ((exec_fmrdh ..).trans (hrule _)) hr hg
  case idPc => exact faults_systemTransfers_pc hc (State.needVfpSystem_fpsid hf) hr
  case id =>
    have hneed := State.needVfpSystem_fpsid hf
    exact ⟨writesReg_of_vfpToArm (exec_fmrx_of_need hc hneed) hr hg,
      exec_of_fromArm (exec_fmxr_of_need hc hneed) rfl rfl hr hg⟩
  case excPc => exact faults_systemTransfers_pc hc (State.needVfpSystem_fpexc hf hp) hr
  case exc =>
    have hneed := State.needVfpSystem_fpexc hf hp
    exact ⟨writesReg_of_vfpToArm (exec_fmrx_of_need hc hneed) hr hg,
      exec_of_fromArm (exec_fmxr_of_need hc hneed) rfl rfl hr hg⟩
  case user => exact takes_undefined_of_needVfpSystem hc (State.needVfpSystem_fpexc_user hp) rd
  case other => exact faults_otherSystemRegister hc he h0 h1 h8

end Sys2Proof.Machine
end

section
/-! ## The VFP arithmetic on scalars, and the conversions (49_vfp.md R503, R504, R510 to R531) -/

namespace Sys2Proof.Machine

/-! ### What the bit operations do to a pattern (R511, R512) -/

theorem Precision.format_width (p : Precision) : p.format.width = p.width := by cases p <;> rfl

theorem FpFormat.clearSign_eq (f : FpFormat) {b : Nat} (h : b < 2 ^ f.width) :
    f.clearSign b = b % 2 ^ (f.expBits + f.fracBits) := by
  have hneg := f.negative_iff h
  rw [f.width_pow] at h
  rw [FpFormat.clearSign]
  split_ifs with hn
  · have hle := hneg.mp hn
    rw [Nat.mod_eq_sub_mod hle, Nat.mod_eq_of_lt (by omega)]
  · have hlt := mt hneg.mpr hn
    rw [Nat.mod_eq_of_lt (by omega)]

theorem VfpUnary.result_abs (f : FpFormat) (m : FpMode) {b : Nat} (h : b < 2 ^ f.width) :
    VfpUnary.abs.result f m b = { bits := f.clearSign b, exc := 0#5 } := by
  rw [f.clearSign_eq h]
  rfl

theorem VfpUnary.result_neg (f : FpFormat) (m : FpMode) {b : Nat} (h : b < 2 ^ f.width) :
    VfpUnary.neg.result f m b = { bits := f.flipSign b, exc := 0#5 } := by
  rw [f.flipSign_eq h, FpFormat.otherSign, FpFormat.width, Nat.add_assoc, Nat.add_comm 1]
  rfl

/-! ### The instructions as operations on elements -/

/-- Operations that agree on patterns of the precision do the same to the registers. -/
theorem State.runElements_congr {p : Precision} {op op' : Nat → Nat → Nat → FpResult}
    (h : ∀ d n m, m < 2 ^ p.width → op d n m = op' d n m) (es : List Element) (s : State) :
    s.runElements p op es = s.runElements p op' es := by
  induction es generalizing s with
  | nil => rfl
  | cons e es ih => rw [State.runElements, State.runElements, h _ _ _ (s.freg_lt p e.m), ih]

theorem State.vfpOperate_congr {p : Precision} {op op' : Nat → Nat → Nat → FpResult}
    (h : ∀ d n m, m < 2 ^ p.width → op d n m = op' d n m) (s : State) (fd fn fm : Nat) :
    s.vfpOperate p fd fn fm op = s.vfpOperate p fd fn fm op' := by
  simp only [State.vfpOperate, State.runElements_congr h]

theorem State.vfpArith_eq {s : State} (h : s.trapEnables = 0#5) (p : Precision) (fd fn fm : Nat)
    (op : Nat → Nat → Nat → FpResult) : s.vfpArith p fd fn fm op = s.vfpOperate p fd fn fm op :=
  bind_of_ok (State.refuseTraps_ok h) _

theorem VfpUnary.operate_eq (op : VfpUnary) (p : Precision) (fd fm : Nat) {s : State}
    (h : op.arithmetic = true → s.trapEnables = 0#5) :
    op.operate p fd fm s = s.vfpOperate p fd fd fm fun _ _ m => op.result p.format s.fpMode m := by
  cases op with
  | cpy => rfl
  | abs => exact State.vfpOperate_congr (fun _ _ _ hm => (result_abs _ _ (p.format_width ▸ hm)).symm) s fd fd fm
  | neg => exact State.vfpOperate_congr (fun _ _ _ hm => (result_neg _ _ (p.format_width ▸ hm)).symm) s fd fd fm
  | sqrt => exact State.vfpArith_eq (h rfl) p fd fd fm _

section
variable {cond : Cond} {s : State} (hc : s.cpsr.passed cond = true) (he : s.vfpEnabled = true)
include hc he

theorem VfpOp.exec_single_of_enabled (op : VfpOp) (ht : s.trapEnables = 0#5) (fn fd fm : SReg) :
    exec (op.single cond fn fd fm) s =
      s.finish (s.vfpOperate .single fd.toNat fn.toNat fm.toNat (op.result fpSingle s.fpMode)) := by
  rw [op.exec_single, State.vfpRule_true hc he, State.vfpArith_eq ht]

theorem VfpOp.exec_double_of_enabled (op : VfpOp) (ht : s.trapEnables = 0#5) (fn fd fm : DReg) :
    exec (op.double cond fn fd fm) s =
      s.finish (s.vfpOperate .double fd.toNat fn.toNat fm.toNat (op.result fpDouble s.fpMode)) := by
  rw [op.exec_double, State.vfpRule_true hc he, State.vfpArith_eq ht]

theorem VfpUnary.exec_single_of_enabled (op : VfpUnary) (ht : op.arithmetic = true → s.trapEnables = 0#5)
    (fd fm : SReg) : exec (op.single cond fd fm) s =
      s.finish (s.vfpOperate .single fd.toNat fd.toNat fm.toNat fun _ _ m => op.result fpSingle s.fpMode m) := by
  rw [op.exec_single, State.vfpRule_true hc he, op.operate_eq .single _ _ ht]
  rfl

theorem VfpUnary.exec_double_of_enabled (op : VfpUnary) (ht : op.arithmetic = true → s.trapEnables = 0#5)
    (fd fm : DReg) : exec (op.double cond fd fm) s =
      s.finish (s.vfpOperate .double fd.toNat fd.toNat fm.toNat fun _ _ m => op.result fpDouble s.fpMode m) := by
  rw [op.exec_double, State.vfpRule_true hc he, op.operate_eq .double _ _ ht]
  rfl

end

/-! ### One register written, with its exceptions -/

section
variable {i : Instr} {s : State} {d b : Nat} {e : FpExc}

theorem writesSingle_of_setFreg (hd : d < 32)
    (hi : exec i s = .next (((s.setFreg .single d b).cumulate e).setPc s.next)) :
    WritesSingle i s d (BitVec.ofNat 32 b) e := by
  obtain ⟨hv, hexc, hkept, honly⟩ := s.wroteFreg .single b e hd
  exact ⟨_, hi, BitVec.eq_of_toNat_eq (hv.trans (BitVec.toNat_ofNat ..).symm), hexc,
    fun j hj hn => BitVec.eq_of_toNat_eq (hkept j hj hn), honly⟩

theorem writesDouble_of_setFreg (hd : d < 16)
    (hi : exec i s = .next (((s.setFreg .double d b).cumulate e).setPc s.next)) :
    WritesDouble i s d (BitVec.ofNat 64 b) e := by
  obtain ⟨hv, hexc, hkept, honly⟩ := s.wroteFreg .double b e hd
  exact ⟨_, hi, BitVec.eq_of_toNat_eq (hv.trans (BitVec.toNat_ofNat ..).symm), hexc,
    fun j hj hn => BitVec.eq_of_toNat_eq (hkept j hj hn), honly⟩

end

section
variable {i : Instr} {s : State} {fd fn fm : Nat} {op : Nat → Nat → Nat → FpResult}

theorem writesSingle_of_scalar (hi : exec i s = s.finish (s.vfpOperate .single fd fn fm op)) (hd : fd < 32)
    (hs : s.scalar .single fd) (hg : s.CanGoOn) :
    let r := op (s.sreg fd).toNat (s.sreg fn).toNat (s.sreg fm).toNat
    WritesSingle i s fd (BitVec.ofNat 32 r.bits) r.exc :=
  writesSingle_of_setFreg hd (by rw [hi, State.vfpOperate_scalar hs hg, State.finish_ok]; rfl)

theorem writesDouble_of_scalar (hi : exec i s = s.finish (s.vfpOperate .double fd fn fm op)) (hd : fd < 16)
    (hs : s.scalar .double fd) (hg : s.CanGoOn) :
    let r := op (s.dreg fd).toNat (s.dreg fn).toNat (s.dreg fm).toNat
    WritesDouble i s fd (BitVec.ofNat 64 r.bits) r.exc :=
  writesDouble_of_setFreg hd (by rw [hi, State.vfpOperate_scalar hs hg, State.finish_ok]; rfl)

end

/-- Settles O52: a scalar operation has one element, which is Fd, Fn and Fm. -/
theorem vfpScalarArithmetic : Obligations.VfpScalarArithmetic := fun _ _ hc he hg =>
  ⟨fun ht op =>
    ⟨fun fn fd fm hs => writesSingle_of_scalar (op.exec_single_of_enabled hc he ht fn fd fm) fd.isLt hs hg,
      fun fn fd fm hs => writesDouble_of_scalar (op.exec_double_of_enabled hc he ht fn fd fm) fd.isLt hs hg⟩,
    fun op ht =>
    ⟨fun fd fm hs => writesSingle_of_scalar (op.exec_single_of_enabled hc he ht fd fm) fd.isLt hs hg,
      fun fd fm hs => writesDouble_of_scalar (op.exec_double_of_enabled hc he ht fd fm) fd.isLt hs hg⟩⟩

end Sys2Proof.Machine
end

section
/-! ## What a pattern is, and how an operand is read (49_vfp.md R501, R504, R505) -/

namespace Sys2Proof.Machine

section
variable {f : FpFormat} {b : Nat} {s : Bool} {frac mant : Nat} {exp : Int}

/-! ### The three kinds -/

theorem FpFormat.unpack_of_isNan (h : f.isNan b = true) : f.unpack b = .nan (f.negative b) (f.fraction b) := by
  obtain ⟨he, hf⟩ := Bool.and_eq_true_iff.mp h
  rw [FpFormat.unpack]
  simp only [if_pos (beq_iff_eq.mp he), if_neg (bne_iff_ne.mp hf)]

theorem FpFormat.isNan_of_nan (h : f.unpack b = .nan s frac) : f.isNan b = true := by
  simp only [FpFormat.unpack] at h
  split_ifs at h with he hf h0
  rw [FpFormat.isNan, beq_iff_eq.mpr he, bne_iff_ne.mpr hf]
  rfl

theorem FpFormat.isNan_of_inf (h : f.unpack b = .inf s) : f.isNan b = false := by
  cases hn : f.isNan b with
  | false => rfl
  | true => rw [f.unpack_of_isNan hn] at h; cases h

theorem FpFormat.unpack_eq_inf_iff :
    f.unpack b = .inf s ↔ f.biased b = f.expMax ∧ f.fraction b = 0 ∧ f.negative b = s := by
  simp only [FpFormat.unpack]
  split_ifs with he hf h0
  · simp [he, hf]
  · simp [hf]
  · simp [he]
  · simp [he]

/-- A pattern that is no NaN is an infinity or finite. -/
theorem FpFormat.unpack_of_not_isNan (h : f.isNan b = false) :
    f.unpack b = .inf (f.negative b) ∨ ∃ mant exp, f.unpack b = .fin (f.negative b) mant exp := by
  simp only [FpFormat.unpack]
  split_ifs with he hf h0
  · exact .inl rfl
  · rw [FpFormat.isNan, beq_iff_eq.mpr he, bne_iff_ne.mpr hf] at h
    cases h
  · exact .inr ⟨_, _, rfl⟩
  · exact .inr ⟨_, _, rfl⟩

theorem FpFormat.signalling_of_not_isNan (h : f.isNan b = false) : f.signalling b = false := by
  rw [FpFormat.signalling, h, Bool.false_and]

theorem FpFormat.isNan_of_signalling (h : f.signalling b = true) : f.isNan b = true :=
  (Bool.and_eq_true_iff.mp h).1

/-! ### Operands -/

theorem FpFormat.denormal_iff : f.denormal b = true ↔ f.biased b = 0 ∧ f.fraction b ≠ 0 := by
  rw [FpFormat.denormal, Bool.and_eq_true, beq_iff_eq, bne_iff_ne]

theorem FpFormat.operand_of_not_denormal (h : f.denormal b = false) (m : FpMode) :
    f.operand m b = b ∧ f.operandExc m b = 0#5 := by
  rw [FpFormat.operand, FpFormat.operandExc, h, Bool.and_false]
  exact ⟨rfl, rfl⟩

variable (he : 0 < f.expBits)
include he

theorem FpFormat.expMax_pos : 0 < f.expMax :=
  Nat.sub_pos_of_lt (Nat.one_lt_two_pow he.ne')

theorem FpFormat.denormal_of_expMax (h : f.biased b = f.expMax) : f.denormal b = false := by
  rw [FpFormat.denormal, h, beq_false_of_ne (f.expMax_pos he).ne', Bool.false_and]

theorem FpFormat.isNan_zero : f.isNan 0 = false := by
  rw [FpFormat.isNan, show f.biased 0 = 0 by rw [FpFormat.biased, Nat.zero_div, Nat.zero_mod],
    beq_false_of_ne (f.expMax_pos he).ne, Bool.false_and]

/-- Only a denormalized number is read as another pattern, and that is +0: NaNs and infinities stay. -/
theorem FpFormat.operand_of_isNan (h : f.isNan b = true) (m : FpMode) :
    f.operand m b = b ∧ f.operandExc m b = 0#5 :=
  f.operand_of_not_denormal (f.denormal_of_expMax he (beq_iff_eq.mp (Bool.and_eq_true_iff.mp h).1)) m

theorem FpFormat.operand_of_inf (h : f.unpack b = .inf s) (m : FpMode) :
    f.operand m b = b ∧ f.operandExc m b = 0#5 :=
  f.operand_of_not_denormal (f.denormal_of_expMax he (f.unpack_eq_inf_iff.mp h).1) m

theorem FpFormat.isNan_operand (m : FpMode) (b : Nat) : f.isNan (f.operand m b) = f.isNan b := by
  cases hn : f.isNan b with
  | true => rw [(f.operand_of_isNan he hn m).1, hn]
  | false =>
    rw [FpFormat.operand]
    split_ifs with hd
    · exact f.isNan_zero he
    · exact hn

theorem FpFormat.signalling_operand (m : FpMode) (b : Nat) : f.signalling (f.operand m b) = f.signalling b := by
  cases hn : f.isNan b with
  | true => rw [(f.operand_of_isNan he hn m).1]
  | false =>
    rw [f.signalling_of_not_isNan hn, f.signalling_of_not_isNan ((f.isNan_operand he m b).trans hn)]

end

end Sys2Proof.Machine
end

section
/-! ## The VFP conversions (49_vfp.md R526 to R531) -/

namespace Sys2Proof.Machine

section
variable {i : Instr} {s : State} {d : Nat} {r : FpResult}

theorem exec_vfpConvert_refused {p : Precision} (hi : exec i s = s.finish (s.vfpConvert p d r))
    (ht : s.trapEnables &&& r.exc ≠ 0#5) : exec i s = .refused .vfpTrapEnabled := by
  rw [hi, State.vfpConvert, State.refuseTrapped_refused ht, bind_error]
  rfl

theorem ConvertsToSingle.of_vfpConvert (hi : exec i s = s.finish (s.vfpConvert .single d r)) (hd : d < 32) :
    ConvertsToSingle i s d (BitVec.ofNat 32 r.bits) r.exc :=
  ⟨exec_vfpConvert_refused hi,
    fun ht hg => writesSingle_of_setFreg hd (by rw [hi, State.vfpConvert_ok ht hg, State.finish_ok])⟩

theorem ConvertsToDouble.of_vfpConvert (hi : exec i s = s.finish (s.vfpConvert .double d r)) (hd : d < 16) :
    ConvertsToDouble i s d (BitVec.ofNat 64 r.bits) r.exc :=
  ⟨exec_vfpConvert_refused hi,
    fun ht hg => writesDouble_of_setFreg hd (by rw [hi, State.vfpConvert_ok ht hg, State.finish_ok])⟩

/-- An integer result is the word of that integer (R530, R531). -/
theorem ConvertsToSingle.of_intResult {v : Int × FpExc}
    (hi : exec i s = s.finish (s.vfpConvert .single d (intResult v))) (hd : d < 32) :
    ConvertsToSingle i s d (BitVec.ofInt 32 v.1) v.2 := by
  have h := ConvertsToSingle.of_vfpConvert hi hd
  rwa [intResult, BitVec.ofNat_toNat, BitVec.setWidth_eq] at h

end

/-! ### FCVTSD: of a NaN the lower fraction bits are drawn (R527, notes/assumptions/12) -/

section
variable {m : FpMode} {y : Nat}

/-- What is drawn counts for a NaN alone. -/
theorem doubleToSingle_payload (h : fpDouble.isNan y = false) (payload : Nat) :
    doubleToSingle m payload y = doubleToSingle m 0 y := by
  have hop := (fpDouble.isNan_operand (by decide) m y).trans h
  rcases fpDouble.unpack_of_not_isNan hop with hu | ⟨mant, exp, hu⟩
  · simp only [doubleToSingle, hu]
  · simp only [doubleToSingle, hu]

theorem doubleToSingle_of_isNan (h : fpDouble.isNan y = true) (payload : Nat) : doubleToSingle m payload y =
    { bits := fpSingle.defaultNan + fpSingle.signBits (fpDouble.negative y) + payload % fpSingle.quietBit
      exc := if fpDouble.signalling y then excIOC else 0#5 } := by
  simp only [doubleToSingle, (fpDouble.operand_of_isNan (by decide) h m).1, fpDouble.unpack_of_isNan h]

/-- The sign, the exponent and the top fraction bit of a quiet single-precision NaN with `k` in its other fraction
bits. -/
theorem quietNan_fields (x : Bool) {k : Nat} (hk : k < fpSingle.quietBit) :
    (BitVec.ofNat 32 (fpSingle.defaultNan + fpSingle.signBits x + k)).getLsbD 31 = x ∧
      (BitVec.ofNat 32 (fpSingle.defaultNan + fpSingle.signBits x + k)).extractLsb' 22 9 = 0x1FF#9 := by
  have hk' : k < 2 ^ 22 := hk
  have hnan : fpSingle.defaultNan = 511 * 2 ^ 22 := rfl
  have hsign : fpSingle.signBits x = x.toNat * 2 ^ 31 := by cases x <;> rfl
  have hx := x.toNat_lt
  rw [hnan, hsign]
  have hmod : (511 * 2 ^ 22 + x.toNat * 2 ^ 31 + k) % 2 ^ 32 = 511 * 2 ^ 22 + x.toNat * 2 ^ 31 + k :=
    Nat.mod_eq_of_lt (by omega)
  constructor
  · rw [BitVec.getLsbD, BitVec.toNat_ofNat, hmod, Nat.testBit_eq_decide_div_mod_eq,
      show (511 * 2 ^ 22 + x.toNat * 2 ^ 31 + k) / 2 ^ 31 % 2 = x.toNat by omega]
    cases x <;> rfl
  · apply BitVec.eq_of_toNat_eq
    rw [BitVec.extractLsb'_toNat, BitVec.toNat_ofNat, hmod, Nat.shiftRight_eq_div_pow, BitVec.toNat_ofNat]
    omega

end

section
variable {cond : Cond} {sn : SReg} {dm : DReg} {s : State} (hc : s.cpsr.passed cond = true) (he : s.vfpEnabled = true)
include hc he

/-- What FCVTSD delivers and where it counts its draw. -/
theorem exec_fcvtsd_eq : exec (.fcvtsd cond sn dm) s =
    s.finish ((s.drawnForNan (fpDouble.isNan (s.dreg dm.toNat).toNat)).vfpConvert .single sn.toNat
      (doubleToSingle s.fpMode (Config.freeWord s.draws).toNat (s.dreg dm.toNat).toNat)) :=
  (exec_fcvtsd ..).trans (State.vfpRule_true hc he _)

theorem fcvtsd_of_not_isNan (hn : fpDouble.isNan (s.dreg dm.toNat).toNat = false) :
    let r := doubleToSingle s.fpMode 0 (s.dreg dm.toNat).toNat
    ConvertsToSingle (.fcvtsd cond sn dm) s sn.toNat (BitVec.ofNat 32 r.bits) r.exc :=
  .of_vfpConvert ((exec_fcvtsd_eq hc he).trans (by rw [hn, doubleToSingle_payload hn]; rfl)) sn.isLt

variable (hn : fpDouble.isNan (s.dreg dm.toNat).toNat = true)
include hn

theorem exec_fcvtsd_of_isNan : exec (.fcvtsd cond sn dm) s = s.finish ((s.drawn 1).vfpConvert .single sn.toNat
    { bits := fpSingle.defaultNan + fpSingle.signBits (fpDouble.negative (s.dreg dm.toNat).toNat) +
        (Config.freeWord s.draws).toNat % fpSingle.quietBit
      exc := if fpDouble.signalling (s.dreg dm.toNat).toNat then excIOC else 0#5 }) := by
  rw [exec_fcvtsd_eq hc he, doubleToSingle_of_isNan hn, hn]
  rfl

theorem fcvtsd_completes_of_isNan (hg : s.CanGoOn)
    (ht : s.trapEnables.getLsbD 0 = false ∨ fpDouble.signalling (s.dreg dm.toNat).toNat = false) :
    Completes (.fcvtsd cond sn dm) s fun t =>
      (t.sreg sn.toNat).getLsbD 31 = fpDouble.negative (s.dreg dm.toNat).toNat ∧
        (t.sreg sn.toNat).extractLsb' 22 9 = 0x1FF#9 ∧
        t.fpscr = s.fpscr ||| (if fpDouble.signalling (s.dreg dm.toNat).toNat then 1#32 else 0#32) ∧
        (∀ j < 32, j ≠ sn.toNat → t.sreg j = s.sreg j) ∧
        t = { s with vfp := t.vfp, fpscr := t.fpscr, pc := s.next, draws := t.draws } := by
  have hexec := exec_fcvtsd_of_isNan (sn := sn) hc he hn
  generalize (s.dreg dm.toNat).toNat = y at *
  have htrap : s.trapEnables &&& (if fpDouble.signalling y then excIOC else 0#5) = 0#5 := by
    cases hs : fpDouble.signalling y with
    | false => exact BitVec.and_zero
    | true =>
      rw [hs] at ht
      have h0 : s.trapEnables.getLsbD 0 = false := ht.resolve_right nofun
      revert h0
      generalize s.trapEnables = w
      revert w
      decide
  have hfields := quietNan_fields (fpDouble.negative y)
    (Nat.mod_lt (Config.freeWord s.draws).toNat (show 0 < fpSingle.quietBit by decide))
  obtain ⟨hv, hexc, hkept, honly⟩ := (s.drawn 1).wroteFreg .single
    (fpSingle.defaultNan + fpSingle.signBits (fpDouble.negative y) +
      (Config.freeWord s.draws).toNat % fpSingle.quietBit) (if fpDouble.signalling y then excIOC else 0#5) sn.isLt
  have hword := BitVec.eq_of_toNat_eq (hv.trans (BitVec.toNat_ofNat ..).symm)
  refine .of_rule hexec (State.vfpConvert_ok htrap hg) ⟨?sign, ?quiet, ?fpscr,
    fun j hj hne => BitVec.eq_of_toNat_eq (hkept j hj hne), ?frame⟩
  case sign => exact (congrArg (·.getLsbD 31) hword).trans hfields.1
  case quiet => exact (congrArg (·.extractLsb' 22 9) hword).trans hfields.2
  case fpscr =>
    refine hexc.trans (congrArg (s.fpscr ||| ·) ?_)
    cases fpDouble.signalling y <;> rfl
  case frame =>
    rw [honly]
    rfl

theorem exec_fcvtsd_trapping (hs : fpDouble.signalling (s.dreg dm.toNat).toNat = true)
    (ht : s.trapEnables.getLsbD 0 = true) : exec (.fcvtsd cond sn dm) s = .refused .vfpTrapEnabled := by
  rw [exec_fcvtsd_of_isNan hc he hn, if_pos hs, State.vfpConvert, State.refuseTrapped_refused, bind_error]
  · rfl
  · show s.trapEnables &&& excIOC ≠ 0#5
    revert ht
    generalize s.trapEnables = w
    revert w
    decide

end

/-- Settles O55: every conversion ends as `vfpConvert` does; FCVTSD of a NaN draws first. -/
theorem vfpConversions : Obligations.VfpConversions := by
  intro cond sn sm dn dm s hc he
  have rule {i : Instr} {r : State → Except Trap State} (hi : exec i s = s.vfpRule cond r) :
      exec i s = s.finish (r s) := exec_of_vfpRule hc he hi
  exact ⟨.of_vfpConvert (rule (exec_fcvtds ..)) dn.isLt, fcvtsd_of_not_isNan hc he, fcvtsd_completes_of_isNan hc he,
    fun hs => exec_fcvtsd_trapping hc he (fpDouble.isNan_of_signalling hs) hs,
    .of_vfpConvert (rule (exec_fsitos ..)) sn.isLt, .of_vfpConvert (rule (exec_fuitos ..)) sn.isLt,
    .of_vfpConvert (rule (exec_fsitod ..)) dn.isLt, .of_vfpConvert (rule (exec_fuitod ..)) dn.isLt,
    .of_intResult (rule (exec_ftosis ..)) sn.isLt, .of_intResult (rule (exec_ftosizs ..)) sn.isLt,
    .of_intResult (rule (exec_ftouis ..)) sn.isLt, .of_intResult (rule (exec_ftouizs ..)) sn.isLt,
    .of_intResult (rule (exec_ftosid ..)) sn.isLt, .of_intResult (rule (exec_ftosizd ..)) sn.isLt,
    .of_intResult (rule (exec_ftouid ..)) sn.isLt, .of_intResult (rule (exec_ftouizd ..)) sn.isLt⟩

end Sys2Proof.Machine
end

section
/-! ## The VFP comparisons (49_vfp.md R506, R524, R525) -/

namespace Sys2Proof.Machine

/-! ### The order of two finite values is that of their significands at the lower exponent -/

section
variable {x y : Bool} {ma mb : Nat} {ea eb : Int}

/-- A significand brought to the lower of two exponents, as the model's comparison does. -/
abbrev alignedMant (negative : Bool) (mant : Nat) (exp e : Int) : Int := signed negative (mant * 2 ^ (exp - e).toNat)

theorem finValue_aligned {e : Int} (h : e ≤ ea) : finValue x ma ea = (alignedMant x ma ea e : ℚ) * (2 : ℚ) ^ e := by
  apply Rat.cast_injective (α := ℝ)
  rw [signed_zpow x ma h]
  push_cast
  rfl

theorem finValue_lt_iff :
    finValue x ma ea < finValue y mb eb ↔ alignedMant x ma ea (min ea eb) < alignedMant y mb eb (min ea eb) := by
  have hpow : (0 : ℚ) < (2 : ℚ) ^ (min ea eb) := zpow_pos two_pos _
  rw [finValue_aligned (min_le_left ea eb), finValue_aligned (min_le_right ea eb), mul_lt_mul_iff_left₀ hpow,
    Int.cast_lt]

theorem finValue_eq_iff :
    finValue x ma ea = finValue y mb eb ↔ alignedMant x ma ea (min ea eb) = alignedMant y mb eb (min ea eb) := by
  have hpow : (2 : ℚ) ^ (min ea eb) ≠ 0 := (zpow_pos two_pos _).ne'
  rw [finValue_aligned (min_le_left ea eb), finValue_aligned (min_le_right ea eb), mul_left_inj' hpow, Int.cast_inj]

theorem compareFp_fin : compareFp (.fin x ma ea) (.fin y mb eb) =
    ((Fp.fin x ma ea).order (.fin y mb eb)).flags := by
  simp only [compareFp, Fp.order, finValue_lt_iff, finValue_eq_iff]
  split_ifs with hlt heq
  · rw [decide_eq_true hlt, decide_eq_false hlt.ne]
    rfl
  · rw [decide_eq_false hlt, decide_eq_true heq]
    rfl
  · rw [decide_eq_false hlt, decide_eq_false heq]
    rfl

end

/-- The flags of the model's comparison are those of the order as numbers (R506). -/
theorem compareFp_eq_order (a b : Fp) : compareFp a b = (a.order b).flags := by
  cases a with
  | nan => rfl
  | inf x =>
    cases b with
    | nan => rfl
    | inf y => cases x <;> cases y <;> rfl
    | fin => cases x <;> rfl
  | fin =>
    cases b with
    | nan => rfl
    | inf y => cases y <;> rfl
    | fin => exact compareFp_fin

/-! ### FPSCR after a comparison: the flags in its top four bits, the exceptions in its low five -/

section
variable (s : State) (f : Nzcv) (e : FpExc)

theorem exc_getLsbD_of_ge {j : Nat} (h : 5 ≤ j) : (e.zeroExtend 32).getLsbD j = false := by
  rw [BitVec.getLsbD_setWidth, BitVec.getLsbD_of_ge e j h, Bool.and_false]

theorem State.getLsbD_setFpFlags (j : Nat) : (s.setFpFlags f).fpscr.getLsbD j =
    if j < 28 then s.fpscr.getLsbD j else (bit4 f.n f.z f.c f.v).getLsbD (j - 28) := by
  refine (BitVec.getLsbD_append (x := bit4 f.n f.z f.c f.v) (y := s.fpscr.extractLsb' 0 28)).trans ?_
  split_ifs with h
  · rw [BitVec.getLsbD_extractLsb', decide_eq_true h, Bool.true_and, Nat.zero_add]
  · rfl

theorem State.fpFlags_setPc (a : Word) : (s.setPc a).fpFlags = s.fpFlags := by
  simp only [State.fpFlags, State.setPc_fpscr]

theorem State.fpFlags_cumulate_setFpFlags : ((s.setFpFlags f).cumulate e).fpFlags = f := by
  have hbit (k : Nat) : ((s.setFpFlags f).cumulate e).fpscr.getLsbD (28 + k) = (bit4 f.n f.z f.c f.v).getLsbD k := by
    rw [State.cumulate_fpscr, BitVec.getLsbD_or, exc_getLsbD_of_ge e (by omega), Bool.or_false,
      State.getLsbD_setFpFlags, if_neg (by omega), Nat.add_sub_cancel_left]
  rw [State.fpFlags, show 31 = 28 + 3 from rfl, show 30 = 28 + 2 from rfl, show 29 = 28 + 1 from rfl,
    show 28 = 28 + 0 from rfl, hbit, hbit, hbit, hbit, bit4_getLsbD_3, bit4_getLsbD_2, bit4_getLsbD_1, bit4_getLsbD_0]

theorem State.fpscr_cumulate_setFpFlags : ((s.setFpFlags f).cumulate e).fpscr &&& 0x0FFFFFFF#32 =
    (s.fpscr &&& 0x0FFFFFFF#32) ||| e.zeroExtend 32 := by
  have hmask : ∀ j < 32, (0x0FFFFFFF#32).getLsbD j = decide (j < 28) := by decide
  refine BitVec.eq_of_getLsbD_eq fun j hj => ?_
  rw [State.cumulate_fpscr, BitVec.getLsbD_and, BitVec.getLsbD_or, BitVec.getLsbD_or, BitVec.getLsbD_and, hmask j hj]
  by_cases h : j < 28
  · rw [State.getLsbD_setFpFlags, if_pos h, decide_eq_true h, Bool.and_true, Bool.and_true]
  · rw [exc_getLsbD_of_ge e (by omega), decide_eq_false h, Bool.and_false, Bool.and_false, Bool.or_false]

end

section
variable {i : Instr} {s : State} {c : FpComparison} (hi : exec i s = s.finish (s.vfpCompare c))
include hi

theorem exec_vfpCompare_refused (ht : s.trapEnables &&& c.exc ≠ 0#5) : exec i s = .refused .vfpTrapEnabled := by
  rw [hi, State.vfpCompare, State.refuseTrapped_refused ht, bind_error]
  rfl

theorem vfpCompare_completes (ht : s.trapEnables &&& c.exc = 0#5) (hg : s.CanGoOn) : Completes i s fun t =>
    t.fpFlags = c.flags ∧ t.fpscr &&& 0x0FFFFFFF#32 = (s.fpscr &&& 0x0FFFFFFF#32) ||| c.exc.zeroExtend 32 ∧
      t = { s with fpscr := t.fpscr, pc := s.next } := by
  refine .of_rule hi (State.vfpCompare_ok ht hg) ⟨?flags, ?others, rfl⟩
  case flags => rw [State.fpFlags_setPc, State.fpFlags_cumulate_setFpFlags]
  case others => rw [State.setPc_fpscr, State.fpscr_cumulate_setFpFlags]

end

theorem ComparesTo.of_vfpCompare {i : Instr} {s : State} {f : FpFormat} {quietToo : Bool} {a b : Nat}
    (hi : exec i s = s.finish (s.vfpCompare (f.compare s.fpMode quietToo a b))) : ComparesTo i s f quietToo a b := by
  refine ⟨exec_vfpCompare_refused hi, fun ht hg => ?_⟩
  rw [← compareFp_eq_order]
  exact vfpCompare_completes hi ht hg

/-- Settles O54: every comparison ends as `vfpCompare` does, and its flags are those of the order as numbers. -/
theorem vfpCompares : Obligations.VfpCompares := by
  intro cond s hc he
  have rule {i : Instr} {r : State → Except Trap State} (hi : exec i s = s.vfpRule cond r) :
      exec i s = s.finish (r s) := exec_of_vfpRule hc he hi
  exact ⟨fun fd fm => ⟨.of_vfpCompare (rule (exec_fcmps ..)), .of_vfpCompare (rule (exec_fcmpes ..)),
      .of_vfpCompare (rule (exec_fcmpzs ..)), .of_vfpCompare (rule (exec_fcmpezs ..))⟩,
    fun fd fm => ⟨.of_vfpCompare (rule (exec_fcmpd ..)), .of_vfpCompare (rule (exec_fcmped ..)),
      .of_vfpCompare (rule (exec_fcmpzd ..)), .of_vfpCompare (rule (exec_fcmpezd ..))⟩⟩

end Sys2Proof.Machine
end

section
/-! ## The VFP arithmetic on vectors (49_vfp.md R502, R503) -/

namespace Sys2Proof.Machine

/-! ### The registers of a vector -/

section
variable {p : Precision} {s : State} {fd x st len : Nat} {scalarOperand : Bool}

theorem State.vecStride_eq_some (h : s.vecStride = some st) : st = 1 ∨ st = 2 := by
  rw [State.vecStride] at h
  split_ifs at h with h1 h2
  · exact .inl (Option.some.inj h).symm
  · exact .inr (Option.some.inj h).symm

theorem Precision.vecAt_lt (hx : x < 4 * p.bankSize) (k : Nat) : p.vecAt x st k < 4 * p.bankSize := by
  cases p
  all_goals
    simp only [Precision.bankSize, Precision.vecAt] at hx ⊢
    omega

theorem Precision.operandAt_lt (hx : x < 4 * p.bankSize) (k : Nat) :
    p.operandAt scalarOperand x st k < 4 * p.bankSize := by
  rw [Precision.operandAt]
  split_ifs
  · exact hx
  · exact p.vecAt_lt hx k

/-- A vector that fits its bank uses no register twice. -/
theorem Precision.vecAt_ne (hst : st = 1 ∨ st = 2) (hfit : len * st ≤ p.bankSize) {j k : Nat} (hjk : j < k)
    (hk : k < len) : p.vecAt fd st j ≠ p.vecAt fd st k := by
  rcases hst with rfl | rfl
  all_goals
    cases p
    all_goals
      simp only [Precision.bankSize, Precision.vecAt] at hfit ⊢
      omega

/-! ### The operands of the model as lists -/

/-- The registers of an operand, in order. -/
def Precision.operands (p : Precision) (scalarOperand : Bool) (x st len : Nat) : List Nat :=
  (List.range len).map (p.operandAt scalarOperand x st)

theorem Precision.vec_eq_operands : p.vec x st len = p.operands false x st len := rfl

theorem Precision.replicate_eq_operands : List.replicate len x = p.operands true x st len := by
  rw [Precision.operands, show p.operandAt true x st = fun _ => x from rfl, List.map_const', List.length_range]

theorem Precision.operands_of_firstBank : (if p.firstBank x then List.replicate len x else p.vec x st len) =
    p.operands (p.firstBank x) x st len := by
  split_ifs with h
  · rw [h]
    exact p.replicate_eq_operands
  · rw [Bool.eq_false_iff.mpr h]
    rfl

theorem Precision.getD_operands {k : Nat} (hk : k < len) (y : Nat) :
    (p.operands scalarOperand x st len).getD k y = p.operandAt scalarOperand x st k := by
  rw [Precision.operands, List.getD_eq_getElem _ _ (by rwa [List.length_map, List.length_range]), List.getElem_map,
    List.getElem_range]

/-- Two vectors clash where the statement says so: they are not the same and share a register. -/
theorem Precision.vecClash_iff :
    vecClash (p.vec fd st len) (p.operands scalarOperand x st len) = false ↔ p.noClash scalarOperand fd x st len := by
  have hsame : p.vec fd st len = p.operands scalarOperand x st len ↔
      ∀ k < len, p.operandAt scalarOperand x st k = p.vecAt fd st k := by
    rw [Precision.vec, Precision.operands, List.map_inj_left]
    exact forall_congr' fun k => by rw [List.mem_range, eq_comm]
  have hshare : (p.vec fd st len).any (p.operands scalarOperand x st len).contains = false ↔
      ∀ j < len, ∀ k < len, p.operandAt scalarOperand x st j ≠ p.vecAt fd st k := by
    simp only [Precision.vec, Precision.operands, List.any_eq_false, List.contains_iff_mem, List.mem_map,
      List.mem_range]
    exact ⟨fun h j hj k hk heq => h _ ⟨k, hk, rfl⟩ ⟨j, hj, heq⟩,
      fun h _ ⟨k, hk, hd⟩ ⟨j, hj, heq⟩ => h j hj k hk (heq.trans hd.symm)⟩
  rw [vecClash, Bool.and_eq_false_iff, bne_eq_false_iff_eq, hsame, hshare, Precision.noClash, or_comm]

end

/-! ### The elements of an operation that is not scalar -/

/-- Element `k` of a vector operation; Fm is a scalar where it is in the first bank (R503). -/
def Precision.elementAt (p : Precision) (fd fn fm st k : Nat) : Element :=
  { d := p.vecAt fd st k, n := p.vecAt fn st k, m := p.operandAt (p.firstBank fm) fm st k }

section
variable {s : State} {p : Precision} {fd fn fm st : Nat}

theorem State.elements_vector (hlen : 1 < s.vecLen) (hd : p.firstBank fd = false) : s.elements p fd fn fm =
    match s.vecStride with
    | none => stop .vfpVector
    | some st => forbid (!p.vecLegal s.vecLen st) .vfpVector >>= fun _ =>
      forbid (vecClash (p.vec fd st s.vecLen) (p.vec fn st s.vecLen) ||
        vecClash (p.vec fd st s.vecLen) (p.operands (p.firstBank fm) fm st s.vecLen)) .vfpVector >>= fun _ =>
      .ok ((List.range s.vecLen).map (p.elementAt fd fn fm st)) := by
  rw [State.elements]
  simp only [hd, decide_eq_false hlen.ne', Bool.or_self, Bool.false_eq_true, if_false, p.operands_of_firstBank]
  cases s.vecStride with
  | none => rfl
  | some st =>
    have helements : ((List.range s.vecLen).map fun k => Element.mk ((p.vec fd st s.vecLen).getD k fd)
        ((p.vec fn st s.vecLen).getD k fn) ((p.operands (p.firstBank fm) fm st s.vecLen).getD k fm)) =
        (List.range s.vecLen).map (p.elementAt fd fn fm st) := by
      refine List.map_congr_left fun k hk => ?_
      have hk' := List.mem_range.mp hk
      rw [p.vec_eq_operands, p.vec_eq_operands, p.getD_operands hk', p.getD_operands hk', p.getD_operands hk']
      rfl
    simp only [helements]
    rfl

/-- A length or stride without a meaning (R502). -/
theorem State.elements_illegal (hlen : 1 < s.vecLen) (hd : p.firstBank fd = false)
    (h : s.vecStride = none ∨ ∃ st, s.vecStride = some st ∧ p.bankSize < s.vecLen * st) :
    s.elements p fd fn fm = .error (.fault .vfpVector) := by
  rw [State.elements_vector hlen hd]
  rcases h with h | ⟨st, h, hfit⟩
  · rw [h]
    rfl
  · have hillegal : (!p.vecLegal s.vecLen st) = true := by
      rw [Precision.vecLegal, decide_eq_false (Nat.not_le_of_lt hfit), Bool.not_false]
    rw [h]
    simp only [hillegal]
    rfl

theorem State.VectorsOk.elements_eq (h : s.VectorsOk p fd st) : s.elements p fd fn fm =
    forbid (vecClash (p.vec fd st s.vecLen) (p.vec fn st s.vecLen) ||
      vecClash (p.vec fd st s.vecLen) (p.operands (p.firstBank fm) fm st s.vecLen)) .vfpVector >>= fun _ =>
    .ok ((List.range s.vecLen).map (p.elementAt fd fn fm st)) := by
  obtain ⟨hlen, hd, hst, hfit⟩ := h
  have hlegal : (!p.vecLegal s.vecLen st) = false := by rw [Precision.vecLegal, decide_eq_true hfit, Bool.not_true]
  rw [State.elements_vector hlen hd, hst]
  simp only [hlegal]
  rfl

theorem Precision.clash_eq_false_iff {len : Nat} : (vecClash (p.vec fd st len) (p.vec fn st len) ||
      vecClash (p.vec fd st len) (p.operands (p.firstBank fm) fm st len)) = false ↔
    p.noClash false fd fn st len ∧ p.noClash (p.firstBank fm) fd fm st len := by
  rw [Bool.or_eq_false_iff, p.vec_eq_operands (x := fn), p.vecClash_iff, p.vecClash_iff]

end

/-! ### Elements one after the other: independent ones read the old registers -/

/-- The registers of an element lie in the register file. -/
def Element.InFile (p : Precision) (e : Element) : Prop :=
  e.d < 4 * p.bankSize ∧ e.n < 4 * p.bankSize ∧ e.m < 4 * p.bankSize

/-- Writing the result of `e` changes no register that the later `e'` uses. -/
def Element.Spares (e e' : Element) : Prop := e'.d ≠ e.d ∧ e'.n ≠ e.d ∧ e'.m ≠ e.d

/-- The result of an element on the registers of a state. -/
def State.elementResult (s : State) (p : Precision) (op : Nat → Nat → Nat → FpResult) (e : Element) : FpResult :=
  op (s.freg p e.d) (s.freg p e.n) (s.freg p e.m)

/-- What the elements `es` make of `s` when each reads the registers of `s` (R503). -/
structure State.RanElements (s t : State) (p : Precision) (op : Nat → Nat → Nat → FpResult) (es : List Element) :
    Prop where
  written : ∀ e ∈ es, t.freg p e.d = (s.elementResult p op e).bits % 2 ^ p.width
  kept : ∀ j < 4 * p.bankSize, (∀ e ∈ es, j ≠ e.d) → t.freg p j = s.freg p j
  exceptions : ∀ b < 32, t.fpscr.getLsbD b = true ↔
    s.fpscr.getLsbD b = true ∨ ∃ e ∈ es, (s.elementResult p op e).exc.getLsbD b = true
  others : t = { s with vfp := t.vfp, fpscr := t.fpscr }

section
variable {p : Precision} {op : Nat → Nat → Nat → FpResult}

/-- One element. -/
def State.ranElement (s : State) (p : Precision) (op : Nat → Nat → Nat → FpResult) (e : Element) : State :=
  (s.setFreg p e.d (s.elementResult p op e).bits).cumulate (s.elementResult p op e).exc

theorem State.runElements_cons (s : State) (e : Element) (es : List Element) :
    s.runElements p op (e :: es) = (s.ranElement p op e).runElements p op es := rfl

theorem State.ranElement_frame (s : State) (e : Element) : s.ranElement p op e =
    { s with vfp := (s.ranElement p op e).vfp, fpscr := (s.ranElement p op e).fpscr } := by
  rw [State.ranElement, State.setFreg_frame]
  rfl

variable {s : State} {e e' : Element}

theorem State.freg_ranElement_self (h : e.InFile p) :
    (s.ranElement p op e).freg p e.d = (s.elementResult p op e).bits % 2 ^ p.width :=
  s.freg_setFreg_self p _ h.1

theorem State.freg_ranElement_ne (h : e.InFile p) {j : Nat} (hj : j < 4 * p.bankSize) (hn : j ≠ e.d) :
    (s.ranElement p op e).freg p j = s.freg p j := s.freg_setFreg_ne p _ h.1 hj hn

theorem State.getLsbD_fpscr_ranElement {b : Nat} (hb : b < 32) : (s.ranElement p op e).fpscr.getLsbD b = true ↔
    s.fpscr.getLsbD b = true ∨ (s.elementResult p op e).exc.getLsbD b = true := by
  rw [State.ranElement, State.cumulate_fpscr, State.setFreg_fpscr, BitVec.getLsbD_or, BitVec.getLsbD_setWidth,
    decide_eq_true hb, Bool.true_and, Bool.or_eq_true]

/-- A later element that is spared has the result it would have had at the start. -/
theorem State.elementResult_ranElement (h : e.InFile p) (h' : e'.InFile p) (hs : e.Spares e') :
    (s.ranElement p op e).elementResult p op e' = s.elementResult p op e' := by
  obtain ⟨hd, hn, hm⟩ := h'
  obtain ⟨hnd, hnn, hnm⟩ := hs
  rw [State.elementResult, State.freg_ranElement_ne h hd hnd, State.freg_ranElement_ne h hn hnn,
    State.freg_ranElement_ne h hm hnm, State.elementResult]

theorem State.ranElements_runElements {es : List Element} (hfile : ∀ e ∈ es, e.InFile p)
    (hspares : es.Pairwise Element.Spares) : s.RanElements (s.runElements p op es) p op es := by
  induction es generalizing s with
  | nil => exact ⟨by simp, fun _ _ _ => rfl, by simp [State.runElements], rfl⟩
  | cons e es ih =>
    obtain ⟨he, hes⟩ := List.forall_mem_cons.mp hfile
    obtain ⟨hspared, hspares⟩ := List.pairwise_cons.mp hspares
    obtain ⟨hwritten, hkept, hexc, hothers⟩ := ih (s := s.ranElement p op e) hes hspares
    have hresult : ∀ e' ∈ es, (s.ranElement p op e).elementResult p op e' = s.elementResult p op e' :=
      fun e' he' => State.elementResult_ranElement he (hes e' he') (hspared e' he')
    rw [State.runElements_cons]
    refine ⟨List.forall_mem_cons.mpr ⟨?first, fun e' he' => ?rest⟩, fun j hj hn => ?kept, fun b hb => ?exc, ?others⟩
    case first => rw [hkept _ he.1 fun e' he' => (hspared e' he').1.symm, State.freg_ranElement_self he]
    case rest => rw [hwritten e' he', hresult e' he']
    case kept =>
      obtain ⟨hne, hnes⟩ := List.forall_mem_cons.mp hn
      rw [hkept j hj hnes, State.freg_ranElement_ne he hj hne]
    case exc =>
      have hlater : (∃ e' ∈ es, ((s.ranElement p op e).elementResult p op e').exc.getLsbD b = true) ↔
          ∃ e' ∈ es, (s.elementResult p op e').exc.getLsbD b = true :=
        exists_congr fun e' => and_congr_right fun he' => by rw [hresult e' he']
      rw [hexc b hb, State.getLsbD_fpscr_ranElement hb, hlater, List.exists_mem_cons_iff, or_assoc]
    case others =>
      rw [hothers, State.ranElement_frame]

end

/-! ### The elements of a vector operation are independent -/

section
variable {s : State} {p : Precision} {fd fn fm st len : Nat} (hd : fd < 4 * p.bankSize)
include hd

theorem Precision.elementAt_inFile (hn : fn < 4 * p.bankSize) (hm : fm < 4 * p.bankSize) (k : Nat) :
    (p.elementAt fd fn fm st k).InFile p :=
  ⟨p.vecAt_lt hd k, p.vecAt_lt hn k, p.operandAt_lt hm k⟩

omit hd in
/-- An operand that does not clash is spared by the elements before it. -/
theorem Precision.operandAt_ne_of_noClash {x : Nat} {scalarOperand : Bool} (hst : st = 1 ∨ st = 2)
    (hfit : len * st ≤ p.bankSize) (h : p.noClash scalarOperand fd x st len) {j k : Nat} (hjk : j < k) (hk : k < len) :
    p.operandAt scalarOperand x st k ≠ p.vecAt fd st j := by
  rcases h with h | h
  · exact h k hk j (hjk.trans hk)
  · rw [h k hk]
    exact (p.vecAt_ne hst hfit hjk hk).symm

omit hd in
theorem Precision.elements_pairwise (hst : st = 1 ∨ st = 2) (hfit : len * st ≤ p.bankSize)
    (hn : p.noClash false fd fn st len) (hm : p.noClash (p.firstBank fm) fd fm st len) :
    ((List.range len).map (p.elementAt fd fn fm st)).Pairwise Element.Spares := by
  refine List.pairwise_map.mpr (List.pairwise_lt_range.imp_of_mem fun _ hk hjk => ?_)
  have hk' := List.mem_range.mp hk
  exact ⟨(p.vecAt_ne hst hfit hjk hk').symm, p.operandAt_ne_of_noClash hst hfit hn hjk hk',
    p.operandAt_ne_of_noClash hst hfit hm hjk hk'⟩

end

/-- The end of a vector operation, in the terms of the statement. -/
theorem State.RanElements.completes {i : Instr} {s t : State} {p : Precision} {op : Nat → Nat → Nat → FpResult}
    {fd fn fm st : Nat}
    (h : s.RanElements t p op ((List.range s.vecLen).map (p.elementAt fd fn fm st)))
    (hi : exec i s = s.finish t.advance) (hg : s.CanGoOn) :
    let r (k : Nat) : FpResult := s.elementResult p op (p.elementAt fd fn fm st k)
    Completes i s fun t =>
      (∀ k < s.vecLen, t.freg p (p.vecAt fd st k) = (r k).bits % 2 ^ p.width) ∧
      (∀ j < 4 * p.bankSize, (∀ k < s.vecLen, j ≠ p.vecAt fd st k) → t.freg p j = s.freg p j) ∧
      (∀ b < 32, t.fpscr.getLsbD b = true ↔
        s.fpscr.getLsbD b = true ∨ ∃ k < s.vecLen, (r k).exc.getLsbD b = true) ∧
      s.VfpOnly t := by
  obtain ⟨hwritten, hkept, hexc, hothers⟩ := h
  simp only [List.mem_map, List.mem_range, exists_exists_and_eq_and] at hexc
  have hpc : t.pc = s.pc := by rw [hothers]
  have ht : t.cpsr.t = s.cpsr.t := by rw [hothers]
  refine .of_rule hi (State.advance_of hpc ht hg) ⟨fun k hk => ?written, fun j hj hne => ?kept, hexc, ?others⟩
  case written =>
    exact (State.freg_congr p (State.setPc_vfp ..) _).trans (hwritten _ (List.mem_map_of_mem (List.mem_range.mpr hk)))
  case kept =>
    exact (State.freg_congr p (State.setPc_vfp ..) j).trans
      (hkept j hj (List.forall_mem_map.mpr fun k hk => hne k (List.mem_range.mp hk)))
  case others =>
    rw [State.VfpOnly, State.setPc, hothers]

/-- What an operation does when it is not scalar. -/
theorem VectorDoes.of_vfpOperate {i : Instr} {s : State} {p : Precision} {fd fn fm : Nat}
    {op : Nat → Nat → Nat → FpResult} (hi : exec i s = s.finish (s.vfpOperate p fd fn fm op))
    (hd : fd < 4 * p.bankSize) (hn : fn < 4 * p.bankSize) (hm : fm < 4 * p.bankSize) :
    VectorDoes p i s fd fn fm op := by
  refine ⟨fun hlen hbank h => ?illegal, fun st hok => ⟨fun h => ?clash, fun hcn hcm hg => ?runs⟩⟩
  case illegal =>
    exact ⟨_, exec_fault_of_rule hi (by rw [State.vfpOperate, State.elements_illegal hlen hbank h, bind_error])⟩
  case clash =>
    have hclash := Bool.eq_true_of_not_eq_false (mt p.clash_eq_false_iff.mp h)
    exact ⟨_, exec_fault_of_rule hi (by rw [State.vfpOperate, hok.elements_eq, forbid_of hclash]; rfl)⟩
  case runs =>
    have helements := hok.elements_eq (fn := fn) (fm := fm)
    rw [bind_of_ok (forbid_of_not (p.clash_eq_false_iff.mpr ⟨hcn, hcm⟩) _)] at helements
    obtain ⟨-, -, hst, hfit⟩ := hok
    have hran := State.ranElements_runElements (s := s) (op := op)
      (List.forall_mem_map.mpr fun k _ => p.elementAt_inFile (st := st) hd hn hm k)
      (p.elements_pairwise (State.vecStride_eq_some hst) hfit hcn hcm)
    exact hran.completes (hi.trans (by rw [State.vfpOperate, helements, bind_ok])) hg

/-- Settles O53: an operation that is not scalar is one on independent elements, or faults. -/
theorem vfpVectorArithmetic : Obligations.VfpVectorArithmetic := fun _ sn sd sm dn dd dm _ hc he =>
  ⟨fun ht op => ⟨.of_vfpOperate (op.exec_single_of_enabled hc he ht sn sd sm) sd.isLt sn.isLt sm.isLt,
      .of_vfpOperate (op.exec_double_of_enabled hc he ht dn dd dm) dd.isLt dn.isLt dm.isLt⟩,
    fun op ht => ⟨.of_vfpOperate (op.exec_single_of_enabled hc he ht sd sm) sd.isLt sd.isLt sm.isLt,
      .of_vfpOperate (op.exec_double_of_enabled hc he ht dd dm) dd.isLt dd.isLt dm.isLt⟩⟩

end Sys2Proof.Machine
end

section
/-! ## The VFP single transfers (49_vfp.md R532, R533) -/

namespace Sys2Proof.Machine

/-! ### The alignment test comes first -/

section
variable {i : Instr} {s : State} {a : Word} {rule : Except Trap State}
  (hi : exec i s = s.finish (s.checkAligned a 3#32 >>= fun _ => rule))
include hi

theorem stops_of_misaligned (ha : a &&& 3#32 ≠ 0#32) :
    (s.cfg.alignCheck = true → Takes i s .dataAbort) ∧ (s.cfg.alignCheck = false → exec i s = .fault .misaligned) :=
  ⟨fun hc => .of_rule hi (by rw [State.checkAligned_abort ha hc, bind_error]),
    fun hc => exec_fault_of_rule hi (by rw [State.checkAligned_fault ha hc, bind_error])⟩

theorem exec_of_aligned (ha : a &&& 3#32 = 0#32) : exec i s = s.finish rule := by
  rw [hi, bind_of_ok (State.checkAligned_ok ha)]

end

/-! ### Loads write one register and raise nothing -/

theorem State.cumulate_none (s : State) : s.cumulate 0#5 = s := by
  rw [State.cumulate, show (0#5).zeroExtend 32 = 0#32 from rfl, BitVec.or_zero]

section
variable {i : Instr} {s : State} {d : Nat}

theorem writesSingle_of_setSreg {v : Word} (hi : exec i s = s.finish (s.setSreg d v).advance) (hd : d < 32)
    (hg : s.CanGoOn) : WritesSingle i s d v 0#5 := by
  have h := writesSingle_of_setFreg (b := v.toNat) (e := 0#5) hd (by
    rw [hi, State.advance_of (s := s) (t := s.setSreg d v) rfl rfl hg, State.finish_ok, State.cumulate_none,
      State.setFreg, BitVec.ofNat_toNat, BitVec.setWidth_eq])
  rwa [BitVec.ofNat_toNat, BitVec.setWidth_eq] at h

theorem writesDouble_of_setDreg {v : DWord} (hi : exec i s = s.finish (s.setDreg d v).advance) (hd : d < 16)
    (hg : s.CanGoOn) : WritesDouble i s d v 0#5 := by
  have h := writesDouble_of_setFreg (b := v.toNat) (e := 0#5) hd (by
    rw [hi, State.advance_of (s := s) (t := s.setDreg d v) rfl rfl hg, State.finish_ok, State.cumulate_none,
      State.setFreg, BitVec.ofNat_toNat, BitVec.setWidth_eq])
  rwa [BitVec.ofNat_toNat, BitVec.setWidth_eq] at h

end

/-! ### A double word as its two words (R532) -/

section
variable {s : State} {a : Word}

theorem State.doubleAt_of_words {v w : Word} (hv : s.word a = some v) (hw : s.word (a + 4#32) = some w) :
    s.doubleAt a = some (s.joinWords v w) := by
  rw [State.doubleAt, hv, hw]
  rfl

theorem State.doubleAt_eq_some {d : DWord} (h : s.doubleAt a = some d) :
    ∃ v w, s.word a = some v ∧ s.word (a + 4#32) = some w ∧ d = s.joinWords v w := by
  cases hv : s.word a with
  | none => rw [State.doubleAt, hv] at h; cases h
  | some v =>
    cases hw : s.word (a + 4#32) with
    | none => rw [State.doubleAt, hv, hw] at h; cases h
    | some w => exact ⟨v, w, rfl, rfl, (Option.some.inj (h.symm.trans (State.doubleAt_of_words hv hw)))⟩

theorem State.doubleAt_eq_none (h : s.doubleAt a = none) : s.word a = none ∨ s.word (a + 4#32) = none := by
  cases hv : s.word a with
  | none => exact .inl rfl
  | some v =>
    cases hw : s.word (a + 4#32) with
    | none => exact .inr rfl
    | some w => rw [State.doubleAt_of_words hv hw] at h; cases h

theorem State.joinWords_dreg (s : State) (i : Nat) : s.joinWords (s.firstWord i) (s.secondWord i) = s.dreg i := by
  rw [State.joinWords, State.firstWord, State.secondWord]
  cases s.cfg.bigEndian <;> rfl

theorem State.joinWords_congr {s t : State} (h : t.cfg = s.cfg) (v w : Word) : t.joinWords v w = s.joinWords v w := by
  rw [State.joinWords, h, State.joinWords]

/-- Writing the word at `a + 4`, which is mod 2^32, leaves the word at `a`. -/
theorem State.word_setWord_above (s : State) (a v : Word) : (s.setWord (a + 4#32) v).word a = s.word a := by
  have hbyte (k : Word) (hk : k.toNat < 4) : (s.setWord (a + 4#32) v).byte (a + k) = s.byte (a + k) :=
    State.byte_setWord_outside _ _ _ _ (by bv_omega)
  have h0 := hbyte 0#32 (by decide)
  rw [BitVec.add_zero] at h0
  rw [State.word, State.word, h0, hbyte 1#32 (by decide), hbyte 2#32 (by decide), hbyte 3#32 (by decide),
    State.setWord_cfg]

end

/-! ### The end of a store without writeback -/

/-- `u` is the state after the write; what holds of its memory holds at the end. -/
theorem Completes.of_storeOnly {i : Instr} {s u : State} {lo : Word} {n : Nat} {holds : State → Prop}
    (hi : exec i s = s.finish u.advance) (hu : u = { s with mem := u.mem }) (ho : s.MemKeptOutside u lo n)
    (hh : ∀ t : State, t.mem = u.mem → t.cfg = u.cfg → holds t) (hg : s.CanGoOn) :
    Completes i s fun t => holds t ∧ s.GoesOnStoring t [] lo n :=
  (Completes.of_store (a := { addr := lo, target := lo, writeback := false }) (rn := 15#4) hi hu ho nofun hg).mono
    fun t ⟨hmem, hcfg, _, hgoes⟩ => ⟨hh t hmem hcfg, hgoes⟩

/-! ### The four instructions after the alignment test -/

section
variable {cond : Cond} {u : Bool} {rn : Reg} {sd : SReg} {dd : DReg} {offset8 : BitVec 8} {s : State}
  (hc : s.cpsr.passed cond = true) (he : s.vfpEnabled = true)
include hc he

theorem exec_flds_eq : exec (.flds cond u rn sd offset8) s =
    s.finish (s.checkAligned (s.vfpAddress u rn offset8) 3#32 >>= fun _ =>
      s.readWord (s.vfpAddress u rn offset8) s.privileged >>= fun v => (s.setSreg sd.toNat v).advance) :=
  (exec_flds ..).trans (State.vfpRule_true hc he _)

theorem exec_fldd_eq : exec (.fldd cond u rn dd offset8) s =
    s.finish (s.checkAligned (s.vfpAddress u rn offset8) 3#32 >>= fun _ =>
      s.readPair s.privileged (s.vfpAddress u rn offset8) >>= fun p =>
        (s.setDreg dd.toNat (s.joinWords p.1 p.2)).advance) :=
  (exec_fldd ..).trans (State.vfpRule_true hc he _)

theorem exec_fsts_eq : exec (.fsts cond u rn sd offset8) s =
    s.finish (s.checkAligned (s.vfpAddress u rn offset8) 3#32 >>= fun _ =>
      s.writeWord (s.vfpAddress u rn offset8) (s.sreg sd.toNat) s.privileged >>= fun t => t.advance) :=
  (exec_fsts ..).trans (State.vfpRule_true hc he _)

theorem exec_fstd_eq : exec (.fstd cond u rn dd offset8) s =
    s.finish (s.checkAligned (s.vfpAddress u rn offset8) 3#32 >>= fun _ =>
      s.writeWord (s.vfpAddress u rn offset8) (s.firstWord dd.toNat) s.privileged >>= fun t =>
        t.writeWord (s.vfpAddress u rn offset8 + 4#32) (s.secondWord dd.toNat) s.privileged >>= fun t => t.advance) :=
  (exec_fstd ..).trans (State.vfpRule_true hc he _)

end

section
variable {s : State} {a v w : Word} {p : Bool}

/-- Two words written one after the other: a refusal of either is a Data Abort. -/
theorem State.writePair_abort (h : s.allowed a 4 .write p = false ∨ s.allowed (a + 4#32) 4 .write p = false)
    (rest : State → Except Trap State) : (s.writeWord a v p >>= fun t => t.writeWord (a + 4#32) w p >>= rest) =
      .error (.exc .dataAbort) := by
  cases h0 : s.allowed a 4 .write p with
  | false => rw [State.writeWord_abort h0, bind_error]
  | true =>
    have h1 : (s.setWord a v).allowed (a + 4#32) 4 .write p = false := by
      simpa [State.allowed, h0] using h.resolve_left (by rw [h0]; decide)
    rw [State.writeWord_ok h0, bind_ok, State.writeWord_abort h1, bind_error]

theorem State.writePair_ok (h0 : s.allowed a 4 .write p = true) (h1 : s.allowed (a + 4#32) 4 .write p = true)
    (rest : State → Except Trap State) : (s.writeWord a v p >>= fun t => t.writeWord (a + 4#32) w p >>= rest) =
      rest ((s.setWord a v).setWord (a + 4#32) w) := by
  have h1' : (s.setWord a v).allowed (a + 4#32) 4 .write p = true := by simpa [State.allowed] using h1
  rw [State.writeWord_ok h0, bind_ok, State.writeWord_ok h1', bind_ok]

theorem State.memKept_setPair : s.MemKeptOutside ((s.setWord a v).setWord (a + 4#32) w) a 8 := fun b hb => by
  rw [State.memKept_setWord _ _ _ b (by bv_omega), State.memKept_setWord _ _ _ b (by bv_omega)]

end

/-- Settles O58: each instruction is the test of alignment, then one or two words. -/
theorem vfpLoadsAndStores : Obligations.VfpLoadsAndStores := by
  intro cond u rn sd dd offset8 s hc he off a
  have hflds := exec_flds_eq (u := u) (rn := rn) (sd := sd) (offset8 := offset8) hc he
  have hfldd := exec_fldd_eq (u := u) (rn := rn) (dd := dd) (offset8 := offset8) hc he
  have hfsts := exec_fsts_eq (u := u) (rn := rn) (sd := sd) (offset8 := offset8) hc he
  have hfstd := exec_fstd_eq (u := u) (rn := rn) (dd := dd) (offset8 := offset8) hc he
  rw [show s.vfpAddress u rn offset8 = a from rfl] at hflds hfldd hfsts hfstd
  clear_value a
  refine ⟨fun ha => ?misaligned, fun ha => ?aligned⟩
  case misaligned =>
    simp only [List.forall_mem_cons, List.not_mem_nil, false_imp_iff, implies_true, and_true]
    exact ⟨stops_of_misaligned hflds ha, stops_of_misaligned hfldd ha, stops_of_misaligned hfsts ha,
      stops_of_misaligned hfstd ha⟩
  case aligned =>
    replace hflds := exec_of_aligned hflds ha
    replace hfldd := exec_of_aligned hfldd ha
    replace hfsts := exec_of_aligned hfsts ha
    replace hfstd := exec_of_aligned hfstd ha
    refine ⟨fun h => .of_rule hflds (by rw [State.readWord_abort h, bind_error]),
      fun h => .of_rule hfldd (by rw [State.readPair_abort h, bind_error]),
      fun h => .of_rule hfsts (by rw [State.writeWord_abort h, bind_error]),
      fun h => .of_rule hfstd (State.writePair_abort h _),
      fun h hv => exec_fault_of_rule hflds (by rw [State.readWord_unwritten h hv, bind_error]),
      fun h0 h1 hv => exec_fault_of_rule hfldd (by
        rw [State.readPair_unwritten h0 h1 (State.doubleAt_eq_none hv), bind_error]),
      fun hg => ⟨fun h v hv => ?flds, fun h0 h1 d hd => ?fldd, fun h => ?fsts, fun h0 h1 => ?fstd⟩⟩
    case flds => exact writesSingle_of_setSreg (by rw [hflds, State.readWord_ok h hv, bind_ok]) sd.isLt hg
    case fldd =>
      obtain ⟨v, w, hv, hw, rfl⟩ := State.doubleAt_eq_some hd
      exact writesDouble_of_setDreg (by rw [hfldd, State.readPair_ok h0 h1 hv hw, bind_ok]) dd.isLt hg
    case fsts =>
      rw [State.writeWord_ok h, bind_ok] at hfsts
      exact .of_storeOnly hfsts (State.setWord_frame ..) (State.memKept_setWord _ _ _)
        (fun t hmem hcfg => (State.word_congr hmem hcfg a).trans (State.word_setWord ..)) hg
    case fstd =>
      rw [State.writePair_ok h0 h1] at hfstd
      refine .of_storeOnly hfstd (by rw [State.setWord_frame, State.setWord_frame]) State.memKept_setPair
        (fun t hmem hcfg => ?_) hg
      have hsecond := (State.word_congr hmem hcfg (a + 4#32)).trans (State.word_setWord ..)
      have hfirst := (State.word_congr hmem hcfg a).trans ((State.word_setWord_above ..).trans (State.word_setWord ..))
      have hcfg' : t.cfg = s.cfg := by rw [hcfg, State.setWord_cfg, State.setWord_cfg]
      rw [State.doubleAt_of_words hfirst hsecond, State.joinWords_congr hcfg', State.joinWords_dreg]

end Sys2Proof.Machine
end

section
/-! ## The VFP multiple transfers (49_vfp.md R534, R535, R560) -/

namespace Sys2Proof.Machine

/-! ### Consecutive registers take the words of a list -/

theorem State.sreg_setSregs_kept (s : State) {i : Nat} {vs : List Word} (h : i + vs.length ≤ 32) {j : Nat} (hj : j < 32)
    (ho : j < i ∨ i + vs.length ≤ j) : (s.setSregs i vs).sreg j = s.sreg j := by
  induction vs generalizing s i with
  | nil => rfl
  | cons v vs ih =>
    rw [List.length_cons] at h ho
    rw [State.setSregs, ih _ (by omega) (by omega), State.sreg_setSreg_ne _ _ (by omega) hj (by omega)]

theorem State.sreg_setSregs (s : State) {i : Nat} {vs : List Word} (h : i + vs.length ≤ 32) {j : Nat} {v : Word}
    (hv : vs[j]? = some v) : (s.setSregs i vs).sreg (i + j) = v := by
  induction vs generalizing s i j with
  | nil => cases hv
  | cons w vs ih =>
    rw [List.length_cons] at h
    rw [State.setSregs]
    cases j with
    | zero =>
      have hkept := State.sreg_setSregs_kept (s.setSreg i w) (i := i + 1) (vs := vs) (by omega) (j := i) (by omega)
        (.inl (Nat.lt_succ_self i))
      exact hkept.trans ((State.sreg_setSreg_self ..).trans (Option.some.inj hv))
    | succ j =>
      rw [← Nat.add_assoc, Nat.add_right_comm]
      exact ih _ (by omega) hv

theorem State.dreg_setDregs_kept (s : State) {i : Nat} {vs : List Word} (h : i + vs.length / 2 ≤ 16) {j : Nat}
    (hj : j < 16) (ho : j < i ∨ i + vs.length / 2 ≤ j) : (s.setDregs i vs).dreg j = s.dreg j := by
  fun_induction State.setDregs s i vs with
  | case1 => rfl
  | case2 => rfl
  | case3 s i w0 w1 ws ih =>
    rw [List.length_cons, List.length_cons] at h ho
    rw [ih (by omega) (by omega), State.dreg_setDreg_ne _ _ (by omega) hj (by omega)]

theorem State.dreg_setDregs (s : State) {i : Nat} {vs : List Word} (h : i + vs.length / 2 ≤ 16) {j : Nat} {v w : Word}
    (hv : vs[2 * j]? = some v) (hw : vs[2 * j + 1]? = some w) :
    (s.setDregs i vs).dreg (i + j) = s.joinWords v w := by
  fun_induction State.setDregs s i vs generalizing j with
  | case1 => cases hv
  | case2 => cases hw
  | case3 s i w0 w1 ws ih =>
    rw [List.length_cons, List.length_cons] at h
    cases j with
    | zero =>
      have hkept := State.dreg_setDregs_kept (s.setDreg i (s.joinWords w0 w1)) (i := i + 1) (vs := ws) (by omega)
        (j := i) (by omega) (.inl (Nat.lt_succ_self i))
      rw [← Option.some.inj hv, ← Option.some.inj hw]
      exact hkept.trans (State.dreg_setDreg_self _ _ (by omega))
    | succ j =>
      rw [← Nat.add_assoc, Nat.add_right_comm]
      exact ih (by omega) hv hw

/-! ### The words of consecutive registers -/

theorem State.length_sregWords (s : State) (i n : Nat) : (s.sregWords i n).length = n := by
  induction n generalizing i with
  | zero => rfl
  | succ n ih => rw [State.sregWords, List.length_cons, ih]

theorem State.getElem?_sregWords (s : State) {i n j : Nat} (h : j < n) :
    (s.sregWords i n)[j]? = some (s.sreg (i + j)) := by
  induction n generalizing i j with
  | zero => cases h
  | succ n ih =>
    cases j with
    | zero => rfl
    | succ j =>
      rw [← Nat.add_assoc, Nat.add_right_comm]
      exact ih (by omega)

theorem State.length_dregWords (s : State) (i n : Nat) : (s.dregWords i n).length = 2 * n := by
  induction n generalizing i with
  | zero => rfl
  | succ n ih => rw [State.dregWords, List.length_cons, List.length_cons, ih, Nat.mul_succ]

theorem State.getElem?_dregWords (s : State) {i n j : Nat} (h : j < n) :
    (s.dregWords i n)[2 * j]? = some (s.firstWord (i + j)) ∧
      (s.dregWords i n)[2 * j + 1]? = some (s.secondWord (i + j)) := by
  induction n generalizing i j with
  | zero => cases h
  | succ n ih =>
    cases j with
    | zero => exact ⟨rfl, rfl⟩
    | succ j =>
      rw [← Nat.add_assoc, Nat.add_right_comm]
      exact ih (by omega)

/-! ### The tests, in their order: the list, the base, alignment, the top of memory -/

/-- The address form of a multiple transfer that counts `words` words (R534). -/
def VfpBlock.address (f : VfpBlock) (s : State) (rn : Reg) (words : Nat) : Address :=
  { addr := f.start (s.reg rn) words, target := f.final (s.reg rn) words, writeback := f.writeback }

/-- What the multiple transfers of `k` registers test before the access to `n` words at `a`. -/
def State.checkVfpBlock (s : State) (f : VfpBlock) (rn : Reg) (first k size : Nat) (a : Word) (n : Nat) :
    Except Trap Unit :=
  checkVfpList f.writeback rn first k size >>= fun _ => s.checkAligned a 3#32 >>= fun _ => checkTransfer a n

section
variable {s t : State} {f : VfpBlock} {rn : Reg} {first k size words n : Nat} {a : Word}

theorem VfpBlock.vfpStart_eq (base : Word) : vfpStart f.up base words = f.start base words := by cases f <;> rfl

/-- The base that is written back is that of the address form. -/
theorem VfpBlock.vfpWriteBack_eq (h : t.reg rn = s.reg rn) :
    t.vfpWriteBack f.writeback f.up rn words = t.writeBack (f.address s rn words) rn := by
  rw [State.vfpWriteBack, State.writeBack, VfpBlock.address, h]
  cases f <;> rfl

theorem VfpBlock.mem_written (h : f.writeback = true) : rn ∈ if f.writeback then [rn] else [] := by
  rw [if_pos h]
  exact List.mem_singleton_self rn

theorem checkVfpList_fault {w : Bool} (h : (k = 0 ∨ size < first + k) ∨ (w = true ∧ rn = 15#4)) :
    ∃ e, checkVfpList w rn first k size = .error (.fault e) := by
  by_cases hlist : k = 0 ∨ size < first + k
  · exact ⟨.vfpList, by rw [checkVfpList, forbid_of (by simpa using hlist), bind_error]⟩
  · obtain ⟨hw, hr⟩ := h.resolve_left hlist
    refine ⟨.forbiddenPc, ?_⟩
    rw [checkVfpList, bind_of_ok (forbid_of_not (by simpa using hlist) _), hw, hr]
    rfl

theorem checkVfpList_ok {w : Bool} (h : ¬(k = 0 ∨ size < first + k)) (hb : w = true → rn ≠ 15#4) :
    checkVfpList w rn first k size = .ok () := by
  rw [checkVfpList, bind_of_ok (forbid_of_not (by simpa using h) _)]
  refine forbid_of_not ?_ _
  cases w with
  | false => rfl
  | true => exact isPc_false (hb rfl)

theorem State.checkVfpBlock_eq (h : ¬(k = 0 ∨ size < first + k)) (hb : f.writeback = true → rn ≠ 15#4) :
    s.checkVfpBlock f rn first k size a n = s.checkAligned a 3#32 >>= fun _ => checkTransfer a n :=
  bind_of_ok (checkVfpList_ok h hb) _

end

section
variable {i : Instr} {s : State} {f : VfpBlock} {rn : Reg} {first k size words n : Nat}
  {kind : Access} {access : Except Trap State}

/-- Where a transfer that begins with these tests stops. -/
theorem VfpBlockStops.of_rule
    (hi : exec i s = s.finish (s.checkVfpBlock f rn first k size (f.start (s.reg rn) words) n >>= fun _ => access))
    (habort : ¬s.BlockAllowed (f.start (s.reg rn) words) n kind → access = .error (.exc .dataAbort))
    (hunwritten : kind = .read → s.BlockAllowed (f.start (s.reg rn) words) n kind →
      ¬s.BlockWritten (f.start (s.reg rn) words) n → access = .error (.fault .unwritten)) :
    VfpBlockStops i s f rn (k = 0 ∨ size < first + k) words n kind := by
  refine ⟨fun h => ?list, fun hl hb => ?tests⟩
  case list =>
    obtain ⟨e, he⟩ := checkVfpList_fault h
    exact ⟨e, exec_fault_of_rule hi (by rw [State.checkVfpBlock, he]; rfl)⟩
  case tests =>
    rw [State.checkVfpBlock_eq hl hb, bind_assoc] at hi
    have haligned (ha : f.start (s.reg rn) words &&& 3#32 = 0#32) (hf : FitsBelowTop (f.start (s.reg rn) words) n) :
        exec i s = s.finish access := by
      rw [exec_of_aligned hi ha, bind_of_ok (checkTransfer_ok hf)]
    refine ⟨fun ha => (stops_of_misaligned hi ha).1, fun ha => (stops_of_misaligned hi ha).2,
      fun ha hf => exec_fault_of_rule (exec_of_aligned hi ha) ?_, fun ha hf hp => .of_rule (haligned ha hf) (habort hp),
      fun hk ha hf hp hw => exec_fault_of_rule (haligned ha hf) (hunwritten hk hp hw)⟩
    rw [checkTransfer_fault hf, bind_error]

/-- Where nothing stops it, the access is what counts. -/
theorem exec_of_vfpBlock {a : Word}
    (hi : exec i s = s.finish (s.checkVfpBlock f rn first k size a n >>= fun _ => access))
    (hl : ¬(k = 0 ∨ size < first + k)) (hb : f.writeback = true → rn ≠ 15#4) (ha : a &&& 3#32 = 0#32)
    (hf : FitsBelowTop a n) : exec i s = s.finish access := by
  rw [State.checkVfpBlock_eq hl hb, bind_assoc] at hi
  rw [exec_of_aligned hi ha, bind_of_ok (checkTransfer_ok hf)]

/-! ### Loads: the words go to VFP registers by `put` -/

/-- The words that a load of a block finds. -/
def State.BlockHolds (s : State) (a : Word) (vs : List Word) (n : Nat) : Prop :=
  vs.length = n ∧ ∀ j < n, ∃ v, vs[j]? = some v ∧ s.word (a + BitVec.ofNat 32 (4 * j)) = some v

theorem VfpBlockLoads.of_rule {loaded : Word → State → Prop} {put : State → List Word → State}
    (hi : exec i s = s.finish (s.checkVfpBlock f rn first k size (f.start (s.reg rn) words) n >>= fun _ =>
      s.readWords s.privileged n (f.start (s.reg rn) words) >>= fun vs =>
        (put (s.writeBack (f.address s rn words) rn) vs).advance))
    (hput : ∀ u vs, put u vs = { u with vfp := (put u vs).vfp })
    (hloaded : ∀ a u vs t, ¬(k = 0 ∨ size < first + k) → s.BlockHolds a vs n → u.vfp = s.vfp → u.cfg = s.cfg →
      t.vfp = (put u vs).vfp → loaded a t) :
    VfpBlockLoads i s f rn (k = 0 ∨ size < first + k) words n loaded := by
  refine ⟨.of_rule hi (fun hp => by rw [State.readWords_abort hp, bind_error])
    (fun _ hp hw => by rw [State.readWords_unwritten hp hw, bind_error]), fun hl hb ha hf hp hw hg => ?_⟩
  obtain ⟨vs, hvs, hlen, hwords⟩ := State.readWords_ok hp hw
  have hrun := exec_of_vfpBlock hi hl hb ha hf
  rw [hvs, bind_ok] at hrun
  generalize hu : s.writeBack (f.address s rn words) rn = u at hrun
  have hframe : u = { s with gpr := u.gpr } := by rw [← hu, State.writeBack_only]
  have hadvance : (put u vs).advance = .ok ((put u vs).setPc s.next) :=
    State.advance_of (by rw [hput, hframe]) (by rw [hput, hframe]) hg
  refine .of_rule hrun hadvance
    ⟨hloaded _ u vs _ hl ⟨hlen, hwords⟩ (by rw [hframe]) (by rw [hframe]) rfl, fun hwb => ?base, ?regs, ?frame⟩
  case base =>
    have hgpr : ((put u vs).setPc s.next).gpr = u.gpr := by rw [State.setPc_gpr, hput]
    have hmode : ((put u vs).setPc s.next).cpsr.m = u.cpsr.m := by rw [State.setPc_cpsr, hput]
    rw [State.reg_congr_of_ne hgpr hmode (hb hwb), ← hu]
    exact State.reg_writeBack_base (a := f.address s rn words) hwb (hb hwb)
  case regs =>
    refine State.RegsKept.congr (t := u) ?_ (by rw [State.setPc_gpr, hput])
    rw [← hu]
    exact (State.RegsKept.refl s _).writeBack rfl VfpBlock.mem_written
  case frame =>
    rw [State.setPc, hput, hframe]

/-! ### Stores: the words are written, some of them drawn -/

theorem VfpBlockStores.of_rule {stored : Word → State → Prop} {vs : List Word} {drawn : Nat} (hn : vs.length = n)
    (hi : exec i s = s.finish (s.checkVfpBlock f rn first k size (f.start (s.reg rn) words) n >>= fun _ =>
      s.writeWords s.privileged vs (f.start (s.reg rn) words) >>= fun t =>
        ((t.drawn drawn).writeBack (f.address s rn words) rn).advance))
    (hstored : ∀ a t, t.WordsAt a vs → t.cfg = s.cfg → stored a t) :
    VfpBlockStores i s f rn (k = 0 ∨ size < first + k) words n drawn stored := by
  subst hn
  refine ⟨.of_rule hi (fun hp => by rw [State.writeWords_abort hp, bind_error]) nofun, fun hl hb ha hf hp hg => ?_⟩
  have hrun := exec_of_vfpBlock hi hl hb ha hf
  rw [State.writeWords_ok hp, bind_ok] at hrun
  have hwords := s.wordsAt_setWords vs _ hf
  have hkept := s.memKept_setWords hf
  generalize f.start (s.reg rn) words = a at *
  generalize ht : s.setWords vs a = t at *
  have htframe : t = { s with mem := t.mem } := by rw [← ht, State.setWords_frame]
  generalize hu : (t.drawn drawn).writeBack (f.address s rn words) rn = u at hrun
  have hframe : u = { s with gpr := u.gpr, mem := t.mem, draws := s.draws + drawn } := by
    rw [← hu, State.writeBack_only, State.drawn, htframe]
  have hadvance : u.advance = .ok (u.setPc s.next) := State.advance_of (by rw [hframe]) (by rw [hframe]) hg
  have hmem : (u.setPc s.next).mem = t.mem := by rw [State.setPc_mem, hframe]
  have hcfg : (u.setPc s.next).cfg = t.cfg := by rw [State.setPc_cfg, hframe, htframe]
  refine .of_rule hrun hadvance ⟨hstored a _ (fun j v hv => ?words) (by rw [hcfg, htframe]), fun hwb => ?base, ?regs,
    fun b hb => ?bytes, ?frame⟩
  case words => rw [State.word_congr hmem hcfg, hwords j v hv]
  case base =>
    rw [State.reg_setPc _ _ _ (hb hwb), ← hu, State.reg_writeBack_base hwb (hb hwb)]
    rfl
  case regs =>
    refine State.RegsKept.congr (t := u) ?_ (State.setPc_gpr ..)
    rw [← hu]
    exact (State.RegsKept.of_gpr _ (by rw [State.drawn, htframe])).writeBack (by rw [State.drawn, htframe])
      VfpBlock.mem_written
  case bytes => rw [State.byte_congr hmem, hkept b hb]
  case frame =>
    rw [State.setPc, hframe]

end

/-! ### The six instructions -/

section
variable {cond : Cond} {f : VfpBlock} {rn : Reg} {sd : SReg} {dd : DReg} {c8 : BitVec 8} {c7 : BitVec 7} {s : State}

/-- The rules of the model, the tests put together and the base written back by its address form. -/
theorem State.vfpLoad_eq {words n first k size : Nat} (put : State → List Word → State) :
    (checkVfpList f.writeback rn first k size >>= fun _ => s.vfpLoadBlock f.up rn words n >>= fun vs =>
        (put (s.vfpWriteBack f.writeback f.up rn words) vs).advance) =
      s.checkVfpBlock f rn first k size (f.start (s.reg rn) words) n >>= fun _ =>
        s.readWords s.privileged n (f.start (s.reg rn) words) >>= fun vs =>
          (put (s.writeBack (f.address s rn words) rn) vs).advance := by
  simp only [State.vfpLoadBlock, State.checkVfpBlock, bind_assoc, f.vfpStart_eq, f.vfpWriteBack_eq (t := s) rfl]

theorem State.reg_setWords_drawn (vs : List Word) (a : Word) (k : Nat) (r : Reg) :
    ((s.setWords vs a).drawn k).reg r = s.reg r :=
  (State.reg_congr rfl rfl rfl rfl r).trans (State.reg_setWords s vs a r)

theorem State.vfpStore_eq {words n first k size drawn : Nat} {vs : List Word} (hn : vs.length = n) :
    (checkVfpList f.writeback rn first k size >>= fun _ => s.vfpStoreBlock f.up rn words vs >>= fun t =>
        ((t.drawn drawn).vfpWriteBack f.writeback f.up rn words).advance) =
      s.checkVfpBlock f rn first k size (f.start (s.reg rn) words) n >>= fun _ =>
        s.writeWords s.privileged vs (f.start (s.reg rn) words) >>= fun t =>
          ((t.drawn drawn).writeBack (f.address s rn words) rn).advance := by
  simp only [State.vfpStoreBlock, State.checkVfpBlock, bind_assoc, f.vfpStart_eq, hn]
  congr 1; funext _
  congr 1; funext _
  congr 1; funext _
  cases hw : s.writeWords s.privileged vs (f.start (s.reg rn) words) with
  | error e => rfl
  | ok t =>
    rw [bind_ok, bind_ok, f.vfpWriteBack_eq (s := s)]
    rw [State.writeWords_eq_ok hw, State.reg_setWords_drawn]

/-! ### What the loads leave in the registers, the stores in memory -/

/-- Two words of a block are a double word at twice the index. -/
theorem double_offset (a : Word) (j : Nat) : a + BitVec.ofNat 32 (8 * j) = a + BitVec.ofNat 32 (4 * (2 * j)) ∧
    a + BitVec.ofNat 32 (8 * j) + 4#32 = a + BitVec.ofNat 32 (4 * (2 * j + 1)) := by
  have h8 : 8 * j = 4 * (2 * j) := by omega
  refine ⟨by rw [h8], ?_⟩
  rw [h8, BitVec.add_assoc, ← BitVec.ofNat_add, Nat.mul_add]

theorem State.BlockHolds.double {a : Word} {vs : List Word} {n j : Nat} (h : s.BlockHolds a vs n) (hj : 2 * j + 1 < n) :
    ∃ v w, vs[2 * j]? = some v ∧ vs[2 * j + 1]? = some w ∧
      s.doubleAt (a + BitVec.ofNat 32 (8 * j)) = some (s.joinWords v w) := by
  obtain ⟨v, hv, hwordV⟩ := h.2 (2 * j) (by omega)
  obtain ⟨w, hw, hwordW⟩ := h.2 (2 * j + 1) hj
  obtain ⟨h0, h1⟩ := double_offset a j
  exact ⟨v, w, hv, hw, State.doubleAt_of_words (by rw [h0, hwordV]) (by rw [h1, hwordW])⟩

theorem loadedSingles_of_setSregs {first n : Nat} {a : Word} {u t : State} {vs : List Word}
    (hl : ¬(n = 0 ∨ 32 < first + n)) (h : s.BlockHolds a vs n) (hvfp : u.vfp = s.vfp)
    (ht : t.vfp = (u.setSregs first vs).vfp) :
    (∀ j < n, s.word (a + BitVec.ofNat 32 (4 * j)) = some (t.sreg (first + j))) ∧
      ∀ j < 32, j < first ∨ first + n ≤ j → t.sreg j = s.sreg j := by
  obtain ⟨hlen, hwords⟩ := h
  have hfit : first + vs.length ≤ 32 := by omega
  refine ⟨fun j hj => ?loaded, fun j hj ho => ?kept⟩
  case loaded =>
    obtain ⟨v, hv, hword⟩ := hwords j hj
    rw [hword, State.sreg_congr ht, State.sreg_setSregs u hfit hv]
  case kept => rw [State.sreg_congr ht, State.sreg_setSregs_kept u hfit hj (by omega), State.sreg_congr hvfp]

theorem loadedDoubles_of_setDregs {first k n : Nat} {a : Word} {u t : State} {vs : List Word}
    (hl : ¬(k = 0 ∨ 16 < first + k)) (hn : n / 2 = k) (h : s.BlockHolds a vs n) (hvfp : u.vfp = s.vfp)
    (hcfg : u.cfg = s.cfg) (ht : t.vfp = (u.setDregs first vs).vfp) :
    (∀ j < k, s.doubleAt (a + BitVec.ofNat 32 (8 * j)) = some (t.dreg (first + j))) ∧
      ∀ j < 16, j < first ∨ first + k ≤ j → t.dreg j = s.dreg j := by
  have hlen := h.1
  have hfit : first + vs.length / 2 ≤ 16 := by omega
  refine ⟨fun j hj => ?loaded, fun j hj ho => ?kept⟩
  case loaded =>
    obtain ⟨v, w, hv, hw, hdouble⟩ := h.double (j := j) (by omega)
    rw [hdouble, State.dreg_congr ht, State.dreg_setDregs u hfit hv hw, State.joinWords_congr hcfg]
  case kept => rw [State.dreg_congr ht, State.dreg_setDregs_kept u hfit hj (by omega), State.dreg_congr hvfp]

theorem storedSingles_of_wordsAt {first n : Nat} {a : Word} {t : State} (h : t.WordsAt a (s.sregWords first n)) :
    ∀ j < n, t.word (a + BitVec.ofNat 32 (4 * j)) = some (s.sreg (first + j)) :=
  fun j hj => h j _ (s.getElem?_sregWords hj)

/-- An extra word may follow the double words (R560). -/
theorem storedDoubles_of_wordsAt {first k : Nat} {a : Word} {t : State} {extra : List Word}
    (h : t.WordsAt a (s.dregWords first k ++ extra)) (hcfg : t.cfg = s.cfg) :
    ∀ j < k, t.doubleAt (a + BitVec.ofNat 32 (8 * j)) = some (s.dreg (first + j)) := by
  intro j hj
  obtain ⟨hfirst, hsecond⟩ := s.getElem?_dregWords (i := first) hj
  obtain ⟨h0, h1⟩ := double_offset a j
  have hlen := s.length_dregWords first k
  have hv := h (2 * j) _ ((List.getElem?_append_left (by omega)).trans hfirst)
  have hw := h (2 * j + 1) _ ((List.getElem?_append_left (by omega)).trans hsecond)
  rw [State.doubleAt_of_words (by rw [h0, hv]) (by rw [h1, hw]), State.joinWords_congr hcfg, State.joinWords_dreg]

end

/-- Settles O59: the twelve forms are six rules, each the shared tests and an access to a block of words. -/
theorem vfpBlockTransfers : Obligations.VfpBlockTransfers := by
  intro f cond rn sd dd count8 count7 s hc he
  have rule {i : Instr} {r : State → Except Trap State} (hi : exec i s = s.vfpRule cond r) :
      exec i s = s.finish (r s) := exec_of_vfpRule hc he hi
  have hextra : s.extraWords ≤ 1 := by
    rw [State.extraWords]
    split_ifs <;> decide
  refine ⟨?fldms, ?fldmd, ?fldmx, ?fstms, ?fstmd, ?fstmx⟩
  case fldms =>
    exact .of_rule (put := fun u => u.setSregs sd.toNat) ((rule (f.exec_fldms ..)).trans
        (congrArg s.finish (State.vfpLoad_eq fun u => u.setSregs sd.toNat)))
      (fun u vs => State.setSregs_only u _ vs) fun _ _ _ _ hl h hvfp _ ht => loadedSingles_of_setSregs hl h hvfp ht
  case fldmd =>
    have hhalf : 2 * count7.toNat / 2 = count7.toNat := by omega
    exact .of_rule (put := fun u => u.setDregs dd.toNat) ((rule (f.exec_fldmd ..)).trans
        (congrArg s.finish (State.vfpLoad_eq fun u => u.setDregs dd.toNat)))
      (fun u vs => State.setDregs_only u _ vs)
      fun _ _ _ _ hl h hvfp hcfg ht => loadedDoubles_of_setDregs hl hhalf h hvfp hcfg ht
  case fldmx =>
    have hhalf : (2 * count7.toNat + s.extraWords) / 2 = count7.toNat := by omega
    exact .of_rule (put := fun u => u.setDregs dd.toNat) ((rule (f.exec_fldmx ..)).trans
        (congrArg s.finish (State.vfpLoad_eq fun u => u.setDregs dd.toNat)))
      (fun u vs => State.setDregs_only u _ vs)
      fun _ _ _ _ hl h hvfp hcfg ht => loadedDoubles_of_setDregs hl hhalf h hvfp hcfg ht
  case fstms =>
    have hn := s.length_sregWords sd.toNat count8.toNat
    exact .of_rule hn ((rule (f.exec_fstms ..)).trans (congrArg s.finish (State.vfpStore_eq (drawn := 0) hn)))
      fun _ _ h _ => storedSingles_of_wordsAt h
  case fstmd =>
    have hn := s.length_dregWords dd.toNat count7.toNat
    refine .of_rule hn ((rule (f.exec_fstmd ..)).trans (congrArg s.finish (State.vfpStore_eq (drawn := 0) hn)))
      fun _ _ h hcfg => storedDoubles_of_wordsAt (extra := []) ?_ hcfg
    rwa [List.append_nil]
  case fstmx =>
    have hn : (s.dregWords dd.toNat count7.toNat ++ List.replicate s.extraWords (Config.freeWord s.draws)).length =
        2 * count7.toNat + s.extraWords := by
      rw [List.length_append, s.length_dregWords, List.length_replicate]
    exact .of_rule hn
      ((rule (f.exec_fstmx ..)).trans (congrArg s.finish (State.vfpStore_eq (drawn := s.extraWords) hn)))
      fun _ _ h hcfg => storedDoubles_of_wordsAt h hcfg

end Sys2Proof.Machine
end

section
/-! ## Rounding and the conversions as numbers (49_vfp.md R504, R505, R526 to R531) -/

namespace Sys2Proof.Machine

/-! ### Rounding at a quantum -/

/-- Rounding means the same in the rational and in the real numbers. -/
theorem RoundedTo.of_real {r : Rounding} {x : ℚ} {v : Int} (h : RoundedTo r (x : ℝ) v) : RoundedTo r x v := by
  cases r with
  | nearest =>
    have hcast : |(v : ℝ) - x| = ((|(v : ℚ) - x| : ℚ) : ℝ) := by push_cast; rfl
    obtain ⟨hnear, heven⟩ : |(v : ℝ) - x| ≤ 1 / 2 ∧ (|(v : ℝ) - x| = 1 / 2 → v % 2 = 0) := h
    rw [hcast] at hnear heven
    generalize hdist : |(v : ℚ) - x| = d at hnear heven
    have hnear' : d ≤ 1 / 2 := by
      apply (Rat.cast_le (K := ℝ)).mp
      push_cast
      exact hnear
    refine ⟨hdist ▸ hnear', fun htie => heven ?_⟩
    rw [← hdist, htie]
    push_cast
    rfl
  | plusInfinity =>
    obtain ⟨hle, hlt⟩ := h
    exact ⟨by exact_mod_cast hle, by exact_mod_cast hlt⟩
  | minusInfinity =>
    obtain ⟨hle, hlt⟩ := h
    exact ⟨by exact_mod_cast hle, by exact_mod_cast hlt⟩
  | zero =>
    obtain ⟨hle, hlt, hsign⟩ := h
    exact ⟨by exact_mod_cast hle, by exact_mod_cast hlt, by exact_mod_cast hsign⟩

/-- An integer is rounded to itself. -/
theorem RoundedTo.eq_of_int {r : Rounding} {n v : Int} (h : RoundedTo r (n : ℝ) v) : v = n := by
  cases r with
  | nearest =>
    have hnear : |(v : ℝ) - n| ≤ 1 / 2 := h.1
    have hlt : |v - n| < 1 := by
      have : |((v - n : Int) : ℝ)| < 1 := by push_cast; linarith
      exact_mod_cast this
    exact sub_eq_zero.mp (Int.abs_lt_one_iff.mp hlt)
  | plusInfinity =>
    obtain ⟨hle, hlt⟩ : (n : ℝ) ≤ v ∧ (v : ℝ) < n + 1 := h
    have hle' : n ≤ v := by exact_mod_cast hle
    have hlt' : v < n + 1 := by exact_mod_cast hlt
    omega
  | minusInfinity =>
    obtain ⟨hle, hlt⟩ : (v : ℝ) ≤ n ∧ (n : ℝ) < v + 1 := h
    have hle' : v ≤ n := by exact_mod_cast hle
    have hlt' : n < v + 1 := by exact_mod_cast hlt
    omega
  | zero =>
    obtain ⟨hle, hlt, hsign⟩ : |(v : ℝ)| ≤ |(n : ℝ)| ∧ |(n : ℝ)| < |(v : ℝ)| + 1 ∧ 0 ≤ (v : ℝ) * n := h
    have hle' : |v| ≤ |n| := by exact_mod_cast hle
    have hlt' : |n| < |v| + 1 := by exact_mod_cast hlt
    have hsign' : 0 ≤ v * n := by exact_mod_cast hsign
    have habs : |v| = |n| := by omega
    rcases abs_eq_abs.mp habs with heq | heq
    · exact heq
    · have hzero : v * n ≤ 0 := by rw [heq, neg_mul]; exact neg_nonpos.mpr (mul_self_nonneg n)
      have hmul : v * n = 0 := le_antisymm hzero hsign'
      rcases mul_eq_zero.mp hmul with h0 | h0 <;> omega

/-- What is exact is not rounded up. -/
theorem RoundsUp.of_zero {r : Rounding} {negative : Bool} {sig : Nat} {up : Bool}
    (h : RoundsUp r negative sig (0 : ℝ) up) : up = false := by
  cases r with
  | nearest => exact h.2.1 (by norm_num)
  | plusInfinity => exact h.1 rfl
  | minusInfinity => exact h.1 rfl
  | zero => exact h

/-- A magnitude with a sign is exact where its fraction is 0. -/
theorem signed_eq_iff {r : Rounding} {negative : Bool} {sig : Nat} {t : ℝ} {up : Bool} (h1 : t < 1)
    (h : RoundsUp r negative sig t up) :
    (if negative then -((sig : ℝ) + t) else sig + t) = (signed negative (if up then sig + 1 else sig) : Int) ↔
      t = 0 := by
  have hmag : (sig : ℝ) + t = ((if up then sig + 1 else sig : ℕ) : ℝ) ↔ t = 0 := by
    constructor
    · intro heq
      cases up with
      | false => simpa using heq
      | true =>
        push_cast at heq
        simp only [if_true] at heq
        linarith
    · rintro rfl
      rw [h.of_zero]
      simp
  cases negative with
  | false => simpa [signed] using hmag
  | true =>
    rw [← hmag, if_pos rfl, signed, if_pos rfl, Int.cast_neg, Int.cast_natCast, neg_inj]

/-- What rounding at a quantum delivers: the multiple that the mode asks for, inexact where it differs (R504). -/
theorem roundQuantum_spec (r : Rounding) (negative : Bool) (mant : Nat) (exp q : Int) :
    RoundedTo r (finValue negative mant (exp - q) : ℝ) (signed negative (roundQuantum r negative mant exp q).1) ∧
      ((roundQuantum r negative mant exp q).2 = true ↔
        ((finValue negative mant (exp - q) : ℚ) : ℝ) ≠ signed negative (roundQuantum r negative mant exp q).1) := by
  obtain ⟨sig, t, up, h0, h1, hmag, hup, hsig, hexact⟩ :=
    roundQuantum_of_stands r negative (mag := mant * (2 : ℝ) ^ exp) (mant := mant) (exp := exp) (q := q) (.inl rfl)
  have hx : ((finValue negative mant (exp - q) : ℚ) : ℝ) = if negative then -((sig : ℝ) + t) else sig + t := by
    rw [finValue_real, zpow_sub₀ two_ne_zero, ← hmag]
    cases negative with
    | false => simp [signed]; ring
    | true => simp [signed]; ring
  rw [hx, hsig]
  exact ⟨roundedTo_of_up h0 h1 hup, hexact.trans (signed_eq_iff h1 hup).not.symm⟩

/-! ### Rounding a number given by sign, significand and exponent -/

theorem abs_finValue (s : Bool) (mant : Nat) (exp : Int) :
    |((finValue s mant exp : ℚ) : ℝ)| = mant * (2 : ℝ) ^ exp := by
  have hpow : (0 : ℝ) < (2 : ℝ) ^ exp := zpow_pos two_pos _
  rw [finValue_real, abs_mul, abs_of_pos hpow]
  cases s <;> simp [signed]

theorem finValue_eq_zero_iff {s : Bool} {mant : Nat} {exp : Int} :
    ((finValue s mant exp : ℚ) : ℝ) = 0 ↔ mant = 0 := by
  rw [← abs_eq_zero, abs_finValue, mul_eq_zero, Nat.cast_eq_zero]
  exact or_iff_left (zpow_pos two_pos _).ne'

theorem finValue_neg_iff {s : Bool} {mant : Nat} {exp : Int} (h : mant ≠ 0) :
    s = true ↔ ((finValue s mant exp : ℚ) : ℝ) < 0 := by
  have hmant : (0 : ℝ) < mant := Nat.cast_pos.mpr (Nat.pos_of_ne_zero h)
  have hpow : (0 : ℝ) < (2 : ℝ) ^ exp := zpow_pos two_pos _
  rw [finValue_real]
  cases s with
  | false => simpa [signed] using (mul_pos hmant hpow).le
  | true => simpa [signed] using mul_pos hmant hpow

section
variable {f : FpFormat} (hf : 2 ≤ f.expBits) (m : FpMode)
include hf

theorem FpFormat.round_delivers_finValue (s : Bool) {mant : Nat} (exp : Int) (h : mant ≠ 0) :
    f.Delivers m (finValue s mant exp : ℚ) (f.round m s mant exp) :=
  f.round_delivers hf m h (finValue_neg_iff h) (.inl (abs_finValue s mant exp)) (.inl (abs_finValue s mant exp))

/-- A number given by sign, significand and exponent, or a zero of the sign given (R504, R505). -/
theorem FpFormat.yields_finValue (s z : Bool) (mant : Nat) (exp : Int) (e : FpExc) :
    f.Yields m (finValue s mant exp : ℚ) z e ((if mant = 0 then f.zero z else f.round m s mant exp).also e) := by
  refine ⟨fun h => ?zero, fun h => ?rounded⟩
  case zero =>
    rw [if_pos (finValue_eq_zero_iff.mp h), FpResult.also, FpFormat.zero, BitVec.zero_or]
  case rounded =>
    have hmant := mt finValue_eq_zero_iff.mpr h
    rw [if_neg hmant]
    exact ⟨_, f.round_delivers_finValue hf m s exp hmant, rfl⟩

/-- A signed integer times a power of two. -/
theorem FpFormat.yields_signed (v : Int) (exp : Int) (z : Bool) (e : FpExc) :
    f.Yields m (v * (2 : ℝ) ^ exp) z e
      ((if v = 0 then f.zero z else f.round m (decide (v < 0)) v.natAbs exp).also e) := by
  have hv : ((finValue (decide (v < 0)) v.natAbs exp : ℚ) : ℝ) = v * (2 : ℝ) ^ exp := by
    rw [finValue_real]
    congr 2
    rw [signed]
    split_ifs with h <;> simp at h <;> omega
  have hyields := f.yields_finValue hf m (decide (v < 0)) z v.natAbs exp e
  rw [hv] at hyields
  simpa only [Int.natAbs_eq_zero] using hyields

end

end Sys2Proof.Machine
end

section
/-! ## The conversions as numbers (49_vfp.md R526 to R531) -/

namespace Sys2Proof.Machine

/-! ### To an integer (R530, R531) -/

section
variable {f : FpFormat} (hf : 0 < f.expBits) (m : FpMode) (r : Rounding) (lo hi : Int) {b : Nat}
include hf

theorem FpFormat.toInt_of_isNan (h : f.isNan b = true) : f.toInt m r lo hi b = (0, excIOC) := by
  rw [FpFormat.toInt, (f.operand_of_isNan hf h m).1, f.unpack_of_isNan h]

theorem FpFormat.toInt_of_inf {s : Bool} (h : f.unpack b = .inf s) :
    f.toInt m r lo hi b = (if s then lo else hi, excIOC) := by
  rw [FpFormat.toInt, (f.operand_of_inf hf h m).1, h]

omit hf in
theorem FpFormat.toInt_of_readsAs {s : Bool} {x : ℝ} (h : f.ReadsAs m b s x) : ∃ v : ℤ, RoundedTo r x v ∧
    (hi < v → f.toInt m r lo hi b = (hi, excIOC)) ∧ (v ≤ hi → v < lo → f.toInt m r lo hi b = (lo, excIOC)) ∧
    (lo ≤ v → v ≤ hi → x = v → f.toInt m r lo hi b = (v, f.operandExc m b)) ∧
    (lo ≤ v → v ≤ hi → x ≠ v → f.toInt m r lo hi b = (v, excIXC ||| f.operandExc m b)) := by
  obtain ⟨mant, exp, hu, rfl⟩ := h
  obtain ⟨hround, hexact⟩ := roundQuantum_spec r s mant exp 0
  rw [sub_zero] at hround hexact
  have hint : f.toInt m r lo hi b =
      if hi < signed s (roundQuantum r s mant exp 0).1 then (hi, excIOC)
      else if signed s (roundQuantum r s mant exp 0).1 < lo then (lo, excIOC)
      else (signed s (roundQuantum r s mant exp 0).1,
        (if (roundQuantum r s mant exp 0).2 then excIXC else 0#5) ||| f.operandExc m b) := by
    rw [FpFormat.toInt, hu]
  refine ⟨_, hround, fun h => ?_, fun h1 h2 => ?_, fun h1 h2 h => ?_, fun h1 h2 h => ?_⟩
  · rw [hint, if_pos h]
  · rw [hint, if_neg (not_lt.mpr h1), if_pos h2]
  · rw [hint, if_neg (not_lt.mpr h2), if_neg (not_lt.mpr h1), if_neg (fun hinexact => hexact.mp hinexact h),
      BitVec.zero_or]
  · rw [hint, if_neg (not_lt.mpr h2), if_neg (not_lt.mpr h1), if_pos (hexact.mpr h)]

end

/-! ### From an integer (R528, R529) -/

theorem FpFormat.ofInt_yields {f : FpFormat} (hf : 2 ≤ f.expBits) (m : FpMode) (v : Int) :
    f.Yields m v false 0#5 (f.ofInt m v) := by
  have h := f.yields_signed hf m v 0 false 0#5
  rw [zpow_zero, mul_one] at h
  rwa [FpResult.also, BitVec.or_zero] at h

/-! ### To single precision (R527) -/

theorem doubleToSingle_yields {m : FpMode} {payload b : Nat} {s : Bool} {x : ℝ} (h : fpDouble.ReadsAs m b s x) :
    fpSingle.Yields m x s (fpDouble.operandExc m b) (doubleToSingle m payload b) := by
  obtain ⟨mant, exp, hu, rfl⟩ := h
  have hyields := fpSingle.yields_finValue (by decide) m s s mant exp (fpDouble.operandExc m b)
  rwa [doubleToSingle, hu]

theorem doubleToSingle_of_inf {m : FpMode} {payload b : Nat} {s : Bool} (h : fpDouble.unpack b = .inf s) :
    doubleToSingle m payload b = { bits := fpSingle.infBits + fpSingle.signBits s, exc := 0#5 } := by
  rw [doubleToSingle, (fpDouble.operand_of_inf (by decide) h m).1, h]
  rfl

/-! ### To double precision: exact (R526) -/

/-- A finite single-precision number is a significand below 2^24 with an exponent from -149 to 104. -/
theorem fpSingle_fin_bounds {b : Nat} {s : Bool} {mant : Nat} {exp : Int} (h : fpSingle.unpack b = .fin s mant exp) :
    mant < 2 ^ 24 ∧ -149 ≤ exp ∧ exp ≤ 104 := by
  refine ⟨fpSingle.mant_lt h, ?_⟩
  have hbiased : fpSingle.biased b < 256 := Nat.mod_lt _ (by decide)
  have hmax : fpSingle.expMax = 255 := rfl
  have hmin : fpSingle.expMin - fpSingle.fracBits = -149 := rfl
  simp only [FpFormat.unpack, hmax, hmin] at h
  split_ifs at h with h1 h2 h3
  · obtain ⟨-, -, rfl⟩ := Fp.fin.inj h
    omega
  · obtain ⟨-, -, rfl⟩ := Fp.fin.inj h
    omega

theorem zpow_le_finValue {s : Bool} {mant : Nat} {exp : Int} (h : mant ≠ 0) :
    (2 : ℝ) ^ exp ≤ |((finValue s mant exp : ℚ) : ℝ)| := by
  have hmant : (1 : ℝ) ≤ mant := Nat.one_le_cast.mpr (Nat.pos_of_ne_zero h)
  rw [abs_finValue]
  exact le_mul_of_one_le_left (zpow_pos two_pos _).le hmant

theorem finValue_lt_zpow {s : Bool} {mant n : Nat} {exp : Int} (h : mant < 2 ^ n) :
    |((finValue s mant exp : ℚ) : ℝ)| < (2 : ℝ) ^ (n + exp) := by
  have hmant : (mant : ℝ) < 2 ^ n := by exact_mod_cast h
  rw [abs_finValue, zpow_add₀ two_ne_zero, zpow_natCast]
  exact mul_lt_mul_of_pos_right hmant (zpow_pos two_pos _)

/-- What a format delivers for a number that it has: that number, without exceptions. -/
theorem FpFormat.Delivers.exact {f : FpFormat} {m : FpMode} {s : Bool} {mant : Nat} {exp : Int} {r : FpResult}
    (h : f.Delivers m (finValue s mant exp : ℚ) r) (hmant : mant ≠ 0) (hlt : mant < 2 ^ (f.fracBits + 1))
    (hmin : f.expMin ≤ exp) (hmax : |((finValue s mant exp : ℚ) : ℝ)| ≤ f.largest) :
    r.bits < 2 ^ f.width ∧ r.exc = 0#5 ∧ ∃ mant' exp', f.unpack r.bits = .fin s mant' exp' ∧
      finValue s mant' exp' = finValue s mant exp := by
  have hlow := zpow_le_finValue (s := s) (exp := exp) hmant
  have hhigh := finValue_lt_zpow (s := s) (exp := exp) hlt
  have hnottiny : ¬|((finValue s mant exp : ℚ) : ℝ)| < (2 : ℝ) ^ f.expMin :=
    not_lt.mpr ((zpow_le_zpow_right₀ one_le_two hmin).trans hlow)
  obtain ⟨negative, e, v, hneg, he, -, hround, -, hfinite⟩ := h.2 fun ⟨_, htiny⟩ => hnottiny htiny
  have hsign : negative = s := by
    rw [Bool.eq_iff_iff, hneg, ← finValue_neg_iff hmant]
  have hexp : e < ((f.fracBits + 1 : ℕ) : ℤ) + exp :=
    (zpow_lt_zpow_iff_right₀ one_lt_two).mp (he.trans_lt hhigh)
  have hq : max e f.expMin - f.fracBits ≤ exp := by
    push_cast at hexp
    omega
  generalize max e f.expMin - f.fracBits = q at *
  have hpow : (0 : ℝ) < (2 : ℝ) ^ q := zpow_pos two_pos _
  have hvalue := signed_zpow s mant hq
  have hv : v = signed s (mant * 2 ^ (exp - q).toNat) := by
    rw [hvalue, mul_div_cancel_right₀ _ hpow.ne'] at hround
    exact hround.eq_of_int
  have hy : (v : ℝ) * (2 : ℝ) ^ q = ((finValue s mant exp : ℚ) : ℝ) := by rw [hvalue, hv]
  obtain ⟨⟨mant', exp', hu, hx⟩, hbits, hexc, -⟩ := hfinite (by rw [hy]; exact hmax)
  refine ⟨hbits, hexc hy, mant', exp', hsign ▸ hu, ?_⟩
  rw [hy, hsign] at hx
  exact_mod_cast hx

/-- The largest double-precision number is beyond every single-precision one. -/
theorem finValue_le_fpDouble_largest {s : Bool} {mant : Nat} {exp : Int} (hmant : mant < 2 ^ 24) (hexp : exp ≤ 104) :
    |((finValue s mant exp : ℚ) : ℝ)| ≤ fpDouble.largest := by
  have hlargest : ((fpDouble.largest : ℚ) : ℝ) = (2 ^ 53 - 1) * (2 : ℝ) ^ (971 : ℤ) := by
    rw [FpFormat.largest]
    push_cast
    rfl
  have hone : (1 : ℝ) ≤ 2 ^ 53 - 1 := by norm_num
  calc |((finValue s mant exp : ℚ) : ℝ)| ≤ (2 : ℝ) ^ ((24 : ℕ) + exp) := (finValue_lt_zpow hmant).le
    _ ≤ (2 : ℝ) ^ (971 : ℤ) := zpow_le_zpow_right₀ one_le_two (by push_cast; omega)
    _ ≤ (2 ^ 53 - 1) * (2 : ℝ) ^ (971 : ℤ) := le_mul_of_one_le_left (zpow_pos two_pos _).le hone
    _ = fpDouble.largest := hlargest.symm

/-- A zero is the pattern of its sign bit. -/
theorem FpFormat.unpack_signBits (f : FpFormat) (hf : 0 < f.expBits) (s : Bool) :
    f.unpack (f.signBits s) = .fin s 0 (f.expMin - f.fracBits) := by
  obtain ⟨hneg, hbiased, hfrac⟩ := f.fields_of s (b := 0) (fr := 0) (by positivity) (by positivity)
  rw [Nat.zero_mul, Nat.zero_add] at hneg hbiased hfrac
  rw [FpFormat.unpack]
  simp only [hneg, hbiased, hfrac, (f.expMax_pos hf).ne, if_false, if_true]

theorem singleToDouble_of_readsAs {m : FpMode} {b : Nat} {s : Bool} {x : ℝ} (h : fpSingle.ReadsAs m b s x) :
    (singleToDouble m b).bits < 2 ^ 64 ∧ (singleToDouble m b).exc = fpSingle.operandExc m b ∧
      ∃ mant exp, fpDouble.unpack (singleToDouble m b).bits = .fin s mant exp ∧ x = finValue s mant exp := by
  obtain ⟨mant, exp, hu, rfl⟩ := h
  obtain ⟨hlt, hmin, hmax⟩ := fpSingle_fin_bounds hu
  have hresult : singleToDouble m b =
      (if mant = 0 then fpDouble.zero s else fpDouble.round m s mant exp).also (fpSingle.operandExc m b) := by
    rw [singleToDouble, hu]
  by_cases hmant : mant = 0
  · have hsign : fpDouble.signBits s < 2 ^ 64 := by cases s <;> decide
    rw [hresult, if_pos hmant]
    refine ⟨hsign, BitVec.zero_or, 0, _, fpDouble.unpack_signBits (by decide) s, ?_⟩
    rw [finValue_eq_zero_iff.mpr hmant, finValue_eq_zero_iff.mpr rfl]
  · have hdelivers := fpDouble.round_delivers_finValue (by decide) m s exp hmant
    have hexpMin : fpDouble.expMin = -1022 := rfl
    obtain ⟨hbits, hexc, mant', exp', hfin, hval⟩ := hdelivers.exact hmant (hlt.trans (by decide)) (by omega)
      (finValue_le_fpDouble_largest hlt hmax)
    rw [hresult, if_neg hmant]
    exact ⟨hbits, by rw [FpResult.also, hexc, BitVec.zero_or], mant', exp', hfin, by rw [hval]⟩

theorem singleToDouble_of_inf {m : FpMode} {b : Nat} {s : Bool} (h : fpSingle.unpack b = .inf s) :
    singleToDouble m b = { bits := fpDouble.infBits + fpDouble.signBits s, exc := 0#5 } := by
  rw [singleToDouble, (fpSingle.operand_of_inf (by decide) h m).1, h]
  rfl

/-- The pattern of a NaN is put together from its fields. -/
theorem FpFormat.nan_fields (f : FpFormat) (s : Bool) {frac : Nat} (hlt : frac < 2 ^ f.fracBits)
    (h0 : frac ≠ 0) : f.fraction (f.infBits + f.signBits s + frac) = frac ∧
      f.isNan (f.infBits + f.signBits s + frac) = true := by
  have hmax : f.expMax < 2 ^ f.expBits := Nat.sub_lt (by positivity) one_pos
  obtain ⟨-, hbiased, hfrac⟩ := f.fields_of s hmax hlt
  rw [Nat.add_right_comm] at hbiased hfrac
  refine ⟨hfrac, ?_⟩
  rw [FpFormat.isNan, FpFormat.infBits, hbiased, hfrac, beq_self_eq_true, bne_iff_ne.mpr h0]
  rfl

/-- A NaN's fraction under the top one is quietened by an addition, which is the setting of a bit. -/
theorem quieted_fraction {frac : Nat} (h : frac < 2 ^ 23) :
    0x7FF0000000000000 + (frac * 2 ^ 29 + if frac * 2 ^ 29 < 2 ^ 51 then 2 ^ 51 else 0) =
      0x7FF8000000000000 ||| frac * 2 ^ 29 := by
  have hquiet : 0x7FF8000000000000 = 2 ^ 51 * 4095 := by norm_num
  have hsum : 0x7FF0000000000000 + 2 ^ 51 = 2 ^ 51 * 4095 := by norm_num
  split_ifs with hs
  · rw [hquiet, ← Nat.two_pow_add_eq_or_of_lt hs, Nat.add_left_comm, Nat.add_comm, hsum]
  · have htop : frac * 2 ^ 29 = 2 ^ 51 * 1 + (frac * 2 ^ 29 - 2 ^ 51) := by omega
    have hrest : frac * 2 ^ 29 - 2 ^ 51 < 2 ^ 51 := by omega
    have hor : 2 ^ 51 * 4095 ||| 2 ^ 51 * 1 = 2 ^ 51 * 4095 := by decide
    rw [hquiet]
    conv_rhs => rw [htop, Nat.two_pow_add_eq_or_of_lt hrest, ← Nat.or_assoc, hor, ← Nat.two_pow_add_eq_or_of_lt hrest]
    omega

theorem singleToDouble_of_nan {m : FpMode} {b : Nat} {s : Bool} {frac : Nat} (h : fpSingle.unpack b = .nan s frac) :
    singleToDouble m b =
      { bits := fpDouble.signBits s + (0x7FF8000000000000 ||| frac * 2 ^ 29)
        exc := if fpSingle.signalling b then excIOC else 0#5 } := by
  have hnan := fpSingle.isNan_of_nan h
  have hfields := fpSingle.unpack_of_isNan hnan
  rw [h] at hfields
  obtain ⟨-, hfrac⟩ := Fp.nan.inj hfields
  have hlt : frac < 2 ^ 23 := hfrac ▸ Nat.mod_lt _ (by decide)
  have h0 : frac ≠ 0 := hfrac ▸ bne_iff_ne.mp (Bool.and_eq_true_iff.mp hnan).2
  obtain ⟨hfrac', hnan'⟩ := fpDouble.nan_fields s (frac := frac * 2 ^ 29)
    (show frac * 2 ^ 29 < 2 ^ 52 by omega) (by omega)
  have hsignalling : fpDouble.signalling (fpDouble.infBits + fpDouble.signBits s + frac * 2 ^ 29) =
      decide (frac * 2 ^ 29 < 2 ^ 51) := by
    rw [FpFormat.signalling, hnan', hfrac', Bool.true_and]
    rfl
  have hbits : fpDouble.quieted (fpDouble.infBits + fpDouble.signBits s + frac * 2 ^ 29) =
      fpDouble.signBits s + (0x7FF8000000000000 ||| frac * 2 ^ 29) := by
    rw [← quieted_fraction hlt, FpFormat.quieted, hsignalling, show fpDouble.infBits = 0x7FF0000000000000 from rfl,
      show fpDouble.quietBit = 2 ^ 51 from rfl]
    simp only [decide_eq_true_eq]
    split_ifs <;> omega
  simp only [singleToDouble, (fpSingle.operand_of_isNan (by decide) hnan m).1, h, hbits]

/-! ### The statement -/

/-- What the statements say of both formats holds for every one with two exponent bits and a fraction. -/
theorem forall_fpFormat {P : FpFormat → Prop} (h : ∀ f : FpFormat, 2 ≤ f.expBits → 0 < f.fracBits → P f) :
    ∀ f ∈ [fpSingle, fpDouble], P f := by
  simp only [List.forall_mem_cons, List.not_mem_nil, false_imp_iff, implies_true, and_true]
  exact ⟨h _ (by decide) (by decide), h _ (by decide) (by decide)⟩

/-- Settles O56: all of it rests on what rounding at a quantum and rounding to a format deliver. -/
theorem roundingIsCorrect : Obligations.RoundingIsCorrect := by
  refine ⟨fun r negative mant exp q => ?quantum, forall_fpFormat fun f hf _ m negative mant exp hmant => ?format,
    forall_fpFormat fun f hf _ m v => f.ofInt_yields hf m v, forall_fpFormat fun f hf _ m r lo hi b => ?toInt,
    fun m b _ => ⟨fun s x => singleToDouble_of_readsAs, fun s => singleToDouble_of_inf,
      fun s frac => singleToDouble_of_nan⟩,
    fun m payload b _ => ⟨fun s x => doubleToSingle_yields, fun s => doubleToSingle_of_inf⟩⟩
  case quantum =>
    obtain ⟨hround, hexact⟩ := roundQuantum_spec r negative mant exp q
    refine ⟨hround.of_real, hexact.trans (not_congr ?_)⟩
    exact ⟨fun h => by exact_mod_cast h, fun h => by exact_mod_cast h⟩
  case format => exact f.round_delivers_finValue hf m negative exp hmant
  case toInt =>
    have hf' := two_pos.trans_le hf
    exact ⟨f.toInt_of_isNan hf' m r lo hi, fun s => f.toInt_of_inf hf' m r lo hi,
      fun s x => f.toInt_of_readsAs m r lo hi⟩

end Sys2Proof.Machine
end

section
/-! ## The VFP arithmetic on finite numbers (49_vfp.md R504, R505, R513 to R519) -/

namespace Sys2Proof.Machine

section
variable {f : FpFormat} {m : FpMode} {a b : Nat} {sa sb : Bool} {ma mb : Nat} {ea eb : Int}

theorem FpFormat.nanResult_pair_none (ha : f.isNan a = false) (hb : f.isNan b = false) : f.nanResult [a, b] = none :=
  f.nanResult_none (by simp [ha, hb])

/-! ### The cores on finite operands -/

section
variable (ha : f.unpack a = .fin sa ma ea) (hb : f.unpack b = .fin sb mb eb)
include ha hb

theorem FpFormat.addCore_fin : f.addCore m a b =
    if alignedMant sa ma ea (min ea eb) + alignedMant sb mb eb (min ea eb) = 0 then f.zero (zeroSumSign m sa sb)
    else f.round m (decide (alignedMant sa ma ea (min ea eb) + alignedMant sb mb eb (min ea eb) < 0))
      (alignedMant sa ma ea (min ea eb) + alignedMant sb mb eb (min ea eb)).natAbs (min ea eb) := by
  rw [FpFormat.addCore, f.nanResult_pair_none (f.isNan_of_fin ha) (f.isNan_of_fin hb), ha, hb]

theorem FpFormat.mulCore_fin : f.mulCore m a b =
    if ma * mb = 0 then f.zero (sa != sb) else f.round m (sa != sb) (ma * mb) (ea + eb) := by
  rw [FpFormat.mulCore, f.nanResult_pair_none (f.isNan_of_fin ha) (f.isNan_of_fin hb), ha, hb]

theorem FpFormat.divCore_fin (h : mb ≠ 0) : f.divCore m a b =
    if ma = 0 then f.zero (sa != sb)
    else f.round m (sa != sb) (jam (ma * 2 ^ (2 * f.fracBits + 4) / mb) (ma * 2 ^ (2 * f.fracBits + 4) % mb == 0))
      (ea - eb - (2 * f.fracBits + 4 : ℕ) - 1) := by
  rw [FpFormat.divCore, f.nanResult_pair_none (f.isNan_of_fin ha) (f.isNan_of_fin hb), ha, hb]
  simp only [if_neg h]

end

theorem zeroSumSign_eq (m : FpMode) (x y : Bool) :
    zeroSumSign m x y = if x = y then x else decide (m.rounding = .minusInfinity) := by
  rw [zeroSumSign, beq_eq_decide]

/-! ### Sums (R513, R514) -/

variable (hf : 2 ≤ f.expBits) (e : FpExc)
include hf

theorem FpFormat.addCore_yields (ha : f.unpack a = .fin sa ma ea) (hb : f.unpack b = .fin sb mb eb) :
    f.Yields m ((finValue sa ma ea : ℚ) + (finValue sb mb eb : ℚ) : ℝ) (zeroSumSign m sa sb) e
      ((f.addCore m a b).also e) := by
  have hsum : ((finValue sa ma ea : ℚ) + (finValue sb mb eb : ℚ) : ℝ) =
      ((alignedMant sa ma ea (min ea eb) + alignedMant sb mb eb (min ea eb) : ℤ) : ℝ) * (2 : ℝ) ^ (min ea eb) := by
    rw [signed_zpow sa ma (min_le_left ea eb), signed_zpow sb mb (min_le_right ea eb), Int.cast_add, add_mul]
  rw [hsum, f.addCore_fin ha hb]
  exact f.yields_signed hf m _ _ _ e

/-! ### Products (R515) -/

omit hf in
theorem signed_mul : signed (sa != sb) (ma * mb) = signed sa ma * signed sb mb := by
  cases sa <;> cases sb <;> simp [signed]

omit hf in
theorem finValue_mul : ((finValue sa ma ea : ℚ) : ℝ) * (finValue sb mb eb : ℚ) =
    (finValue (sa != sb) (ma * mb) (ea + eb) : ℚ) := by
  rw [finValue_real, finValue_real, finValue_real, zpow_add₀ two_ne_zero, signed_mul, Int.cast_mul, mul_mul_mul_comm]

theorem FpFormat.mulCore_yields (ha : f.unpack a = .fin sa ma ea) (hb : f.unpack b = .fin sb mb eb) :
    f.Yields m ((finValue sa ma ea : ℚ) * (finValue sb mb eb : ℚ) : ℝ) (sa != sb) e ((f.mulCore m a b).also e) := by
  rw [finValue_mul, f.mulCore_fin ha hb]
  exact f.yields_finValue hf m _ _ _ _ e

/-! ### Quotients (R517) -/

omit hf in
theorem finValue_div_neg_iff (ha : ma ≠ 0) (hb : mb ≠ 0) :
    (sa != sb) = true ↔ ((finValue sa ma ea : ℚ) : ℝ) / (finValue sb mb eb : ℚ) < 0 := by
  have hx := finValue_neg_iff (s := sa) (exp := ea) ha
  have hy := finValue_neg_iff (s := sb) (exp := eb) hb
  have hx0 := mt (finValue_eq_zero_iff (s := sa) (exp := ea)).mp ha
  have hy0 := mt (finValue_eq_zero_iff (s := sb) (exp := eb)).mp hb
  rw [div_neg_iff, bne_iff_ne]
  generalize ((finValue sa ma ea : ℚ) : ℝ) = x at *
  generalize ((finValue sb mb eb : ℚ) : ℝ) = y at *
  have hxpos : 0 < x ↔ ¬x < 0 := ⟨not_lt_of_gt, fun h => lt_of_le_of_ne (not_lt.mp h) (Ne.symm hx0)⟩
  have hypos : 0 < y ↔ ¬y < 0 := ⟨not_lt_of_gt, fun h => lt_of_le_of_ne (not_lt.mp h) (Ne.symm hy0)⟩
  rw [hxpos, hypos, ← hx, ← hy]
  cases sa <;> cases sb <;> decide

omit hf in
/-- A quotient of significands, `k` bits longer, is the integer quotient or lies strictly above it. -/
theorem standsFor_div (k : Nat) (h : mb ≠ 0) :
    StandsFor |((finValue sa ma ea : ℚ) : ℝ) / (finValue sb mb eb : ℚ)|
      (jam (ma * 2 ^ k / mb) (ma * 2 ^ k % mb == 0)) (ea - eb - k - 1) := by
  have hmb : (0 : ℝ) < mb := Nat.cast_pos.mpr (Nat.pos_of_ne_zero h)
  have hpow : (0 : ℝ) < (2 : ℝ) ^ (ea - eb - k) := zpow_pos two_pos _
  have hmag : |((finValue sa ma ea : ℚ) : ℝ) / (finValue sb mb eb : ℚ)| =
      ((ma * 2 ^ k : ℕ) : ℝ) / mb * (2 : ℝ) ^ (ea - eb - k) := by
    have hk : (2 : ℝ) ^ (k : ℤ) ≠ 0 := (zpow_pos two_pos _).ne'
    have hb : (2 : ℝ) ^ eb ≠ 0 := (zpow_pos two_pos _).ne'
    rw [abs_div, abs_finValue, abs_finValue, zpow_sub₀ two_ne_zero, zpow_sub₀ two_ne_zero]
    push_cast
    rw [← zpow_natCast (2 : ℝ) k]
    field_simp
  have hdivmod := Nat.div_add_mod (ma * 2 ^ k) mb
  have hmod := Nat.mod_lt (ma * 2 ^ k) (Nat.pos_of_ne_zero h)
  generalize ma * 2 ^ k = num at *
  have hnum : (num : ℝ) / mb = (num / mb : ℕ) + (num % mb : ℕ) / (mb : ℝ) := by
    rw [eq_comm, ← eq_sub_iff_add_eq', div_sub' hmb.ne', div_left_inj' hmb.ne', eq_sub_iff_add_eq']
    exact_mod_cast hdivmod
  have hfrac0 : (0 : ℝ) ≤ (num % mb : ℕ) / (mb : ℝ) := by positivity
  have hfrac1 : ((num % mb : ℕ) : ℝ) / mb < 1 := (div_lt_one hmb).mpr (Nat.cast_lt.mpr hmod)
  rw [hmag]
  refine standsFor_jam ?low ?high ?exact
  all_goals rw [sub_add_cancel]
  case low => exact mul_le_mul_of_nonneg_right (by rw [hnum]; linarith) hpow.le
  case high => exact mul_lt_mul_of_pos_right (by rw [hnum]; linarith) hpow
  case exact =>
    rw [mul_left_inj' hpow.ne', hnum, add_eq_left, div_eq_zero_iff, Nat.cast_eq_zero, beq_iff_eq]
    exact (or_iff_left hmb.ne').symm

theorem FpFormat.divCore_yields (ha : f.unpack a = .fin sa ma ea) (hb : f.unpack b = .fin sb mb eb) (hmb : mb ≠ 0) :
    f.Yields m ((finValue sa ma ea : ℚ) / (finValue sb mb eb : ℚ) : ℝ) (sa != sb) e ((f.divCore m a b).also e) := by
  have hy0 := mt (finValue_eq_zero_iff (s := sb) (exp := eb)).mp hmb
  rw [f.divCore_fin ha hb hmb]
  refine ⟨fun h => ?zero, fun h => ?rounded⟩
  case zero =>
    have hma : ma = 0 := finValue_eq_zero_iff.mp ((div_eq_zero_iff.mp h).resolve_right hy0)
    rw [if_pos hma, FpResult.also, FpFormat.zero, BitVec.zero_or]
  case rounded =>
    have hma : ma ≠ 0 := fun h0 => h (by rw [finValue_eq_zero_iff.mpr h0, zero_div])
    have hlong : 2 ^ (f.fracBits + 3) ≤ ma * 2 ^ (2 * f.fracBits + 4) / mb := by
      rw [Nat.le_div_iff_mul_le (Nat.pos_of_ne_zero hmb)]
      calc 2 ^ (f.fracBits + 3) * mb ≤ 2 ^ (f.fracBits + 3) * 2 ^ (f.fracBits + 1) :=
            Nat.mul_le_mul_left _ (f.mant_lt hb).le
        _ = 2 ^ (2 * f.fracBits + 4) := by rw [← pow_add]; congr 1; omega
        _ ≤ ma * 2 ^ (2 * f.fracBits + 4) := Nat.le_mul_of_pos_left _ (Nat.pos_of_ne_zero hma)
    have hpos : 0 < 2 ^ (f.fracBits + 3) := by positivity
    have hjam : 2 ^ (f.fracBits + 3) ≤
        jam (ma * 2 ^ (2 * f.fracBits + 4) / mb) (ma * 2 ^ (2 * f.fracBits + 4) % mb == 0) := by
      rw [jam]
      omega
    rw [if_neg hma]
    exact ⟨_, f.round_delivers hf m (hpos.trans_le hjam).ne' (finValue_div_neg_iff hma hmb)
      (standsFor_div _ hmb) (.inr hjam), rfl⟩

/-! ### Square roots (R518) -/

omit hf in
/-- A magnitude with an even exponent: its root is that of the significand at half the exponent. -/
theorem sqrt_mul_zpow_even (v : Nat) (half : Int) :
    Real.sqrt (v * (2 : ℝ) ^ (2 * half)) = Real.sqrt v * (2 : ℝ) ^ half := by
  have hpow : (0 : ℝ) ≤ (2 : ℝ) ^ half := (zpow_pos two_pos _).le
  rw [mul_comm 2 half, zpow_mul, zpow_ofNat, Real.sqrt_mul (Nat.cast_nonneg v), Real.sqrt_sq hpow]

omit hf in
/-- The integer root of `v` is the root of `v` or lies strictly under it. -/
theorem standsFor_sqrt {v root : Nat} (hlow : root * root ≤ v) (hhigh : v < (root + 1) * (root + 1)) (half : Int) :
    StandsFor (Real.sqrt (v * (2 : ℝ) ^ (2 * half))) (jam root (root * root == v)) (half - 1) := by
  have hpow : (0 : ℝ) < (2 : ℝ) ^ half := zpow_pos two_pos _
  have hroot : (0 : ℝ) ≤ root := Nat.cast_nonneg root
  rw [sqrt_mul_zpow_even]
  refine standsFor_jam ?low ?high ?exact
  all_goals rw [sub_add_cancel]
  case low =>
    refine mul_le_mul_of_nonneg_right ((Real.le_sqrt hroot (Nat.cast_nonneg v)).mpr ?_) hpow.le
    rw [sq]
    exact_mod_cast hlow
  case high =>
    refine mul_lt_mul_of_pos_right ((Real.sqrt_lt' (by linarith)).mpr ?_) hpow
    rw [sq]
    exact_mod_cast hhigh
  case exact =>
    rw [mul_left_inj' hpow.ne', Real.sqrt_eq_iff_mul_self_eq (Nat.cast_nonneg v) hroot, beq_iff_eq]
    norm_cast
    exact eq_comm

omit hf in
/-- The significand and the half of the exponent of which the root is taken. -/
theorem finValue_eq_even (ma : Nat) (ea : Int) (k : Nat) :
    ((finValue false ma ea : ℚ) : ℝ) = (((if ea % 2 = 1 then 2 * ma else ma) * 2 ^ (2 * k) : ℕ) : ℝ) *
      (2 : ℝ) ^ (2 * ((if ea % 2 = 1 then ea - 1 else ea) / 2 - k)) := by
  rw [finValue_real, signed, if_neg Bool.false_ne_true, Int.cast_natCast]
  have hk : ((2 ^ (2 * k) : ℕ) : ℝ) = (2 : ℝ) ^ (2 * k : ℤ) := by
    rw [Nat.cast_pow, ← zpow_natCast]
    push_cast
    rfl
  rw [Nat.cast_mul, hk, mul_assoc, ← zpow_add₀ two_ne_zero]
  split_ifs with hodd
  · rw [show 2 * (k : ℤ) + 2 * ((ea - 1) / 2 - k) = ea - 1 by omega, zpow_sub_one₀ two_ne_zero]
    push_cast
    ring
  · rw [show 2 * (k : ℤ) + 2 * (ea / 2 - k) = ea by omega]

omit hf in
theorem FpFormat.sqrtCore_fin (ha : f.unpack a = .fin false ma ea) (h : ma ≠ 0) :
    let v := (if ea % 2 = 1 then 2 * ma else ma) * 2 ^ (2 * (f.fracBits + 3))
    let root := rootBits v (2 * f.fracBits + 8) 0
    f.sqrtCore m a = f.round m false (jam root (root * root == v))
      ((if ea % 2 = 1 then ea - 1 else ea) / 2 - (f.fracBits + 3 : ℕ) - 1) := by
  have hnan : f.nanResult [a] = none := f.nanResult_none (by simp [f.isNan_of_fin ha])
  rw [FpFormat.sqrtCore, hnan, ha]
  simp only [if_neg h, Bool.false_eq_true, if_false]

/-- The root of the significand has more bits than the fraction. -/
theorem FpFormat.sqrtCore_delivers (ha : f.unpack a = .fin false ma ea) (h : ma ≠ 0) :
    f.Delivers m (Real.sqrt (finValue false ma ea : ℚ)) (f.sqrtCore m a) := by
  have hma := f.mant_lt ha
  rw [f.sqrtCore_fin ha h, finValue_eq_even ma ea (f.fracBits + 3)]
  generalize hv : (if ea % 2 = 1 then 2 * ma else ma) * 2 ^ (2 * (f.fracBits + 3)) = v
  have hsig : 1 ≤ (if ea % 2 = 1 then 2 * ma else ma) ∧
      (if ea % 2 = 1 then 2 * ma else ma) ≤ 2 ^ (f.fracBits + 2) := by
    rw [pow_succ]
    split_ifs <;> omega
  have hmin : 2 ^ (f.fracBits + 3) * 2 ^ (f.fracBits + 3) ≤ v := by
    rw [← pow_add, ← two_mul, ← hv]
    exact Nat.le_mul_of_pos_left _ hsig.1
  have hmax : v < (0 + 2 ^ (2 * f.fracBits + 8)) * (0 + 2 ^ (2 * f.fracBits + 8)) := by
    rw [Nat.zero_add, ← pow_add, ← hv]
    calc _ ≤ 2 ^ (f.fracBits + 2) * 2 ^ (2 * (f.fracBits + 3)) := Nat.mul_le_mul_right _ hsig.2
      _ = 2 ^ (3 * f.fracBits + 8) := by rw [← pow_add]; congr 1; omega
      _ < 2 ^ (2 * f.fracBits + 8 + (2 * f.fracBits + 8)) := Nat.pow_lt_pow_right one_lt_two (by omega)
  obtain ⟨hlow, hhigh⟩ := rootBits_spec v (2 * f.fracBits + 8) 0 (Nat.zero_le v) hmax
  generalize rootBits v (2 * f.fracBits + 8) 0 = root at *
  have hroot : 2 ^ (f.fracBits + 3) ≤ root := Nat.lt_succ_iff.mp (Nat.mul_self_lt_mul_self_iff.mp (hmin.trans_lt hhigh))
  have hpos : 0 < 2 ^ (f.fracBits + 3) := by positivity
  have hjam : 2 ^ (f.fracBits + 3) ≤ jam root (root * root == v) := by
    rw [jam]
    omega
  have hstands := standsFor_sqrt hlow hhigh ((if ea % 2 = 1 then ea - 1 else ea) / 2 - (f.fracBits + 3 : ℕ))
  rw [← abs_of_nonneg (Real.sqrt_nonneg _)] at hstands
  exact f.round_delivers hf m (hpos.trans_le hjam).ne' ⟨nofun, fun h => absurd h (not_lt.mpr (Real.sqrt_nonneg _))⟩
    hstands (.inr hjam)

theorem FpFormat.sqrtCore_yields (ha : f.unpack a = .fin sa ma ea) (h0 : 0 ≤ ((finValue sa ma ea : ℚ) : ℝ)) :
    f.Yields m (Real.sqrt (finValue sa ma ea : ℚ)) sa e ((f.sqrtCore m a).also e) := by
  refine ⟨fun h => ?zero, fun h => ?rounded⟩
  case zero =>
    have hma : ma = 0 := finValue_eq_zero_iff.mp ((Real.sqrt_eq_zero h0).mp h)
    have hnan : f.nanResult [a] = none := f.nanResult_none (by simp [f.isNan_of_fin ha])
    rw [FpFormat.sqrtCore, hnan, ha]
    simp only [if_pos hma]
    rw [FpResult.also, FpFormat.zero, BitVec.zero_or]
  case rounded =>
    have hma : ma ≠ 0 := fun hz => h (by rw [finValue_eq_zero_iff.mpr hz, Real.sqrt_zero])
    have hsa : sa = false := Bool.eq_false_iff.mpr fun hs => absurd ((finValue_neg_iff hma).mp hs) (not_lt.mpr h0)
    subst hsa
    exact ⟨_, f.sqrtCore_delivers hf ha hma, rfl⟩

end

/-! ### Every result is a pattern of the format -/

section
variable {f : FpFormat} {m : FpMode} {a b : Nat}

theorem FpFormat.signBits_le (f : FpFormat) (s : Bool) : f.signBits s ≤ 2 ^ (f.expBits + f.fracBits) := by
  rw [FpFormat.signBits]
  split_ifs
  · exact le_rfl
  · exact Nat.zero_le _

theorem FpFormat.infBits_lt (f : FpFormat) : f.infBits < 2 ^ (f.expBits + f.fracBits) := by
  rw [FpFormat.infBits, pow_add]
  exact Nat.mul_lt_mul_of_pos_right (Nat.sub_lt (by positivity) one_pos) (by positivity)

/-- A magnitude under the sign bit, with a sign. -/
theorem FpFormat.lt_of_magnitude (f : FpFormat) {n : Nat} (h : n < 2 ^ (f.expBits + f.fracBits)) (s : Bool) :
    n + f.signBits s < 2 ^ f.width := by
  rw [f.width_pow]
  have hs := f.signBits_le s
  omega

theorem FpFormat.overflowed_lt (f : FpFormat) (r : Rounding) (s : Bool) : f.overflowed r s < 2 ^ f.width := by
  have hmagnitude (up : Bool) : (if up then f.infBits else f.infBits - 1) < 2 ^ (f.expBits + f.fracBits) := by
    cases up with
    | false => exact (Nat.sub_le _ _).trans_lt f.infBits_lt
    | true => exact f.infBits_lt
  exact f.lt_of_magnitude (hmagnitude _) s

theorem FpFormat.round_lt (f : FpFormat) (m : FpMode) (s : Bool) (mant : Nat) (exp : Int) :
    (f.round m s mant exp).bits < 2 ^ f.width := by
  rw [FpFormat.round]
  dsimp only
  split
  · exact Nat.two_pow_pos _
  · split
    next h => exact f.overflowed_lt _ s
    next h => exact f.lt_of_magnitude ((not_le.mp h).trans f.infBits_lt) s

/-- Quietening a signalling NaN sets its top fraction bit (R504). -/
theorem FpFormat.quieted_of_signalling (hf : 0 < f.fracBits) (h : f.signalling a = true) :
    f.quieted a = a ||| 2 ^ (f.fracBits - 1) := by
  have hlt : f.fraction a < 2 ^ (f.fracBits - 1) := of_decide_eq_true (Bool.and_eq_true_iff.mp h).2
  have hsplit : a = 2 ^ f.fracBits * (a / 2 ^ f.fracBits) + f.fraction a := (Nat.div_add_mod ..).symm
  have hdouble : 2 ^ f.fracBits = 2 * 2 ^ (f.fracBits - 1) := by rw [← pow_succ', Nat.sub_add_cancel hf]
  rw [FpFormat.quieted, if_pos h, FpFormat.quietBit]
  generalize f.fraction a = frac at *
  generalize a / 2 ^ f.fracBits = top at *
  rw [hsplit]
  calc 2 ^ f.fracBits * top + frac + 2 ^ (f.fracBits - 1) =
        2 ^ f.fracBits * top + (2 ^ (f.fracBits - 1) * 1 + frac) := by ring
    _ = 2 ^ f.fracBits * top ||| (2 ^ (f.fracBits - 1) ||| frac) := by
      rw [Nat.two_pow_add_eq_or_of_lt (by omega), Nat.two_pow_add_eq_or_of_lt hlt, mul_one]
    _ = (2 ^ f.fracBits * top ||| frac) ||| 2 ^ (f.fracBits - 1) := by
      rw [Nat.or_comm (2 ^ (f.fracBits - 1)), ← Nat.or_assoc]
    _ = 2 ^ f.fracBits * top + frac ||| 2 ^ (f.fracBits - 1) := by
      rw [Nat.two_pow_add_eq_or_of_lt (by omega : frac < 2 ^ f.fracBits)]

theorem FpFormat.quieted_lt (hf : 0 < f.fracBits) (h : a < 2 ^ f.width) : f.quieted a < 2 ^ f.width := by
  by_cases hs : f.signalling a = true
  · rw [f.quieted_of_signalling hf hs]
    exact Nat.or_lt_two_pow h (Nat.pow_lt_pow_right one_lt_two (by rw [FpFormat.width]; omega))
  · rwa [FpFormat.quieted, if_neg hs]

theorem FpFormat.nanResult_lt (hf : 0 < f.fracBits) {l : List Nat} (h : ∀ x ∈ l, x < 2 ^ f.width) {r : FpResult}
    (hr : f.nanResult l = some r) : r.bits < 2 ^ f.width := by
  rw [FpFormat.nanResult] at hr
  split at hr
  next x hx =>
    rw [← Option.some.inj hr]
    exact f.quieted_lt hf (h x (List.mem_of_find?_eq_some hx))
  next =>
    obtain ⟨x, hx, rfl⟩ := Option.map_eq_some_iff.mp hr
    exact h x (List.mem_of_find?_eq_some hx)

theorem FpFormat.defaultNan_lt (hf : 2 ≤ f.expBits) : f.defaultNan < 2 ^ f.width := by
  have hquiet : f.quietBit ≤ 2 ^ (f.expBits + f.fracBits) := Nat.pow_le_pow_right two_pos (by omega)
  have hinf := f.infBits_lt
  rw [f.width_pow, FpFormat.defaultNan]
  omega

/-- A product of patterns is a pattern. -/
theorem FpFormat.mul_lt (he : 2 ≤ f.expBits) (hf : 0 < f.fracBits) (m : FpMode) (ha : a < 2 ^ f.width)
    (hb : b < 2 ^ f.width) : (f.mul m a b).bits < 2 ^ f.width := by
  have hinvalid := f.defaultNan_lt he
  have hinfinity (s : Bool) : (f.infinity s).bits < 2 ^ f.width := f.lt_of_magnitude f.infBits_lt s
  have hzero (s : Bool) : (f.zero s).bits < 2 ^ f.width := by
    have h := f.lt_of_magnitude (Nat.two_pow_pos _) s
    rwa [Nat.zero_add] at h
  show (f.mulCore m (f.operand m a) (f.operand m b)).bits < _
  rw [FpFormat.mulCore]
  split
  next r hr =>
    exact f.nanResult_lt hf (by simpa using ⟨f.operand_lt m ha, f.operand_lt m hb⟩) hr
  next =>
    split
    next x y _ _ => exact hinfinity _
    next => split_ifs <;> [exact hinvalid; exact hinfinity _]
    next => split_ifs <;> [exact hinvalid; exact hinfinity _]
    next => split_ifs <;> [exact hzero _; exact f.round_lt ..]
    next => exact hinvalid

end

/-! ### The statement -/

section
variable {f : FpFormat} (hf : 2 ≤ f.expBits) {m : FpMode} {a b : Nat} {sa sb : Bool} {x y : ℝ}
include hf

theorem FpFormat.add_yields (ha : f.ReadsAs m a sa x) (hb : f.ReadsAs m b sb y) :
    f.Yields m (x + y) (if sa = sb then sa else decide (m.rounding = .minusInfinity))
      (f.operandExc m a ||| f.operandExc m b) (f.add m a b) := by
  obtain ⟨ma, ea, hua, rfl⟩ := ha
  obtain ⟨mb, eb, hub, rfl⟩ := hb
  rw [← zeroSumSign_eq]
  exact f.addCore_yields hf _ hua hub

theorem FpFormat.sub_yields (hlt : b < 2 ^ f.width) (ha : f.ReadsAs m a sa x) (hb : f.ReadsAs m b sb y) :
    f.Yields m (x - y) (if sa ≠ sb then sa else decide (m.rounding = .minusInfinity))
      (f.operandExc m a ||| f.operandExc m b) (f.sub m a b) := by
  obtain ⟨ma, ea, hua, rfl⟩ := ha
  obtain ⟨mb, eb, hub, rfl⟩ := hb
  have hflip := f.unpack_flipSign (f.operand_lt m hlt) hub
  have hneg : ((finValue (!sb) mb eb : ℚ) : ℝ) = -(finValue sb mb eb : ℚ) := by
    rw [finValue_real, finValue_real]
    cases sb <;> simp [signed]
  have hsign : zeroSumSign m sa (!sb) = if sa ≠ sb then sa else decide (m.rounding = .minusInfinity) := by
    rw [zeroSumSign_eq]
    exact if_congr Bool.eq_not rfl rfl
  have hyields := f.addCore_yields hf (m := m) (f.operandExc m a ||| f.operandExc m b) hua hflip
  rw [hneg, ← sub_eq_add_neg, hsign] at hyields
  rwa [FpFormat.sub, f.isNan_of_fin hub]

theorem FpFormat.mul_yields (ha : f.ReadsAs m a sa x) (hb : f.ReadsAs m b sb y) :
    f.Yields m (x * y) (sa != sb) (f.operandExc m a ||| f.operandExc m b) (f.mul m a b) := by
  obtain ⟨ma, ea, hua, rfl⟩ := ha
  obtain ⟨mb, eb, hub, rfl⟩ := hb
  exact f.mulCore_yields hf _ hua hub

theorem FpFormat.div_yields (ha : f.ReadsAs m a sa x) (hb : f.ReadsAs m b sb y) (hy : y ≠ 0) :
    f.Yields m (x / y) (sa != sb) (f.operandExc m a ||| f.operandExc m b) (f.div m a b) := by
  obtain ⟨ma, ea, hua, rfl⟩ := ha
  obtain ⟨mb, eb, hub, rfl⟩ := hb
  exact f.divCore_yields hf _ hua hub (mt finValue_eq_zero_iff.mpr hy)

theorem FpFormat.sqrt_yields (ha : f.ReadsAs m a sa x) (hx : 0 ≤ x) :
    f.Yields m (Real.sqrt x) sa (f.operandExc m a) (f.sqrt m a) := by
  obtain ⟨ma, ea, hua, rfl⟩ := ha
  exact f.sqrtCore_yields hf _ hua hx

/-- The multiply-accumulate family: the product rounded, then the sum (R519, D32). -/
theorem FpFormat.mulAdd_eq (hfrac : 0 < f.fracBits) {d : Nat} (ha : a < 2 ^ f.width) (hb : b < 2 ^ f.width)
    (hd : d < 2 ^ f.width) (negD negP : Bool) :
    let p := f.mul m a b
    let d' := f.operand m d
    let r := f.add m (if negD then f.otherSign d' else d') (if negP then f.otherSign p.bits else p.bits)
    f.mulAdd m negD negP d a b = { bits := r.bits, exc := r.exc ||| p.exc ||| f.operandExc m d } := by
  dsimp only
  rw [FpFormat.mulAdd, f.flipSign_eq (f.mul_lt hf hfrac m ha hb), f.flipSign_eq (f.operand_lt m hd), BitVec.or_assoc]
  rfl

end

/-- Settles O51: every operation is a core on the operands as read, and each core rounds the exact result. -/
theorem vfpArithmeticIsCorrect : Obligations.VfpArithmeticIsCorrect :=
  forall_fpFormat fun f hf hfrac m a b d ha hb hd =>
    ⟨fun _ _ _ _ hx hy =>
        ⟨f.add_yields hf hx hy, f.sub_yields hf hb hx hy, f.mul_yields hf hx hy, f.div_yields hf hx hy⟩,
      fun _ _ => f.sqrt_yields hf,
      by rw [FpFormat.nmul, FpFormat.negated, f.flipSign_eq (f.mul_lt hf hfrac m ha hb)],
      f.mulAdd_eq hf hfrac ha hb hd⟩

end Sys2Proof.Machine
end

section
/-! ## VFP patterns, and the results on NaNs, infinities and zero divisors (49_vfp.md R501, R504, R505) -/

namespace Sys2Proof.Machine

/-! ### The fields of a pattern -/

/-- The meaning of a pattern by its fields, whatever the format. -/
theorem FpFormat.patternMeans {f : FpFormat} {bias : Nat} (hbias : f.expMin = 1 - bias) (b : Nat) :
    f.PatternMeans b (f.negative b) (f.biased b) (f.fraction b) bias := by
  have hmax : f.expMax = 2 ^ f.expBits - 1 := rfl
  refine ⟨fun he h0 => ?inf, fun he h0 => ?nan, fun he => ?finite, ?isNan, ?signalling, fun m => ⟨fun h => ?flushed,
    fun h => ?kept⟩⟩
  case inf => exact f.unpack_eq_inf_iff.mpr ⟨he.trans hmax.symm, h0, rfl⟩
  case nan => rw [FpFormat.unpack, if_pos (he.trans hmax.symm), if_neg h0]
  case finite =>
    rw [FpFormat.unpack, if_neg (hmax ▸ he.ne)]
    by_cases h0 : f.biased b = 0
    · rw [if_pos h0, if_pos h0]
      exact ⟨_, _, rfl, by rw [finValue_eq, hbias, mul_assoc]⟩
    · rw [if_neg h0, if_neg h0]
      refine ⟨_, _, rfl, ?_⟩
      have hexp : f.expMin - f.fracBits + (f.biased b - 1 : ℕ) = (f.biased b : ℤ) - bias - f.fracBits := by omega
      rw [finValue_eq, hexp, mul_assoc]
      push_cast
      rw [add_comm ((f.fraction b : ℚ))]
  case isNan => rw [FpFormat.isNan, Bool.and_eq_true, beq_iff_eq, bne_iff_ne, hmax]
  case signalling => rw [FpFormat.signalling, Bool.and_eq_true, decide_eq_true_eq, FpFormat.quietBit]
  case flushed =>
    obtain ⟨hm, he, h0⟩ := h
    rw [FpFormat.operand, FpFormat.operandExc, hm, f.denormal_iff.mpr ⟨he, h0⟩]
    exact ⟨rfl, rfl⟩
  case kept =>
    have hread : (m.flush && f.denormal b) = false := by
      rw [← Bool.not_eq_true, Bool.and_eq_true, f.denormal_iff]
      exact h
    rw [FpFormat.operand, FpFormat.operandExc, hread]
    exact ⟨rfl, rfl⟩

/-- A slice of a word is a quotient and a remainder of it. -/
theorem toNat_extractLsb'_eq {n : Nat} (w : BitVec n) (start len : Nat) :
    (w.extractLsb' start len).toNat = w.toNat / 2 ^ start % 2 ^ len := by
  rw [BitVec.extractLsb'_toNat, Nat.shiftRight_eq_div_pow]

theorem getLsbD_eq_beq {n : Nat} (w : BitVec n) (j : Nat) : w.getLsbD j = (w.toNat / 2 ^ j % 2 == 1) := by
  rw [BitVec.getLsbD, Nat.testBit_eq_decide_div_mod_eq, beq_eq_decide]

/-! ### The NaN rule (R504) -/

section
variable {f : FpFormat} {a b : Nat}

/-- What the model chooses among two operands of which one is a NaN. -/
theorem FpFormat.nanResult_pair (hf : 0 < f.fracBits) :
    (f.signalling a = true → f.nanResult [a, b] = some { bits := a ||| 2 ^ (f.fracBits - 1), exc := excIOC }) ∧
    (f.signalling a = false → f.signalling b = true →
      f.nanResult [a, b] = some { bits := b ||| 2 ^ (f.fracBits - 1), exc := excIOC }) ∧
    (f.signalling a = false → f.signalling b = false → f.isNan a = true →
      f.nanResult [a, b] = some { bits := a, exc := 0#5 }) ∧
    (f.signalling a = false → f.signalling b = false → f.isNan a = false → f.isNan b = true →
      f.nanResult [a, b] = some { bits := b, exc := 0#5 }) := by
  refine ⟨fun ha => ?_, fun ha hb => ?_, fun ha hb hn => ?_, fun ha hb hna hnb => ?_⟩
  · rw [← f.quieted_of_signalling hf ha]
    simp [FpFormat.nanResult, ha]
  · rw [← f.quieted_of_signalling hf hb]
    simp [FpFormat.nanResult, ha, hb]
  · simp [FpFormat.nanResult, ha, hb, hn]
  · simp [FpFormat.nanResult, ha, hb, hna, hnb]

/-- One operand given twice is one operand. -/
theorem FpFormat.nanResult_twice (f : FpFormat) (a : Nat) : f.nanResult [a, a] = f.nanResult [a] := by
  cases hs : f.signalling a with
  | true => simp [FpFormat.nanResult, hs]
  | false => cases hn : f.isNan a <;> simp [FpFormat.nanResult, hs, hn]

/-- An operation that answers what the NaN rule of the model answers, where it answers, obeys that of the statement. The
second operand may be changed where it is no NaN, as FSUB does. -/
theorem FpFormat.NanRule.of_nanResult {m : FpMode} {c : Nat} {e : FpExc} {r : FpResult} (he : 0 < f.expBits)
    (hf : 0 < f.fracBits) (hc : f.isNan c = f.isNan b) (hcb : f.isNan b = true → c = b)
    (hr : ∀ r', f.nanResult [f.operand m a, c] = some r' → r = r'.also e) : f.NanRule a b e r := by
  have hsa := f.signalling_operand he m a
  have hna := f.isNan_operand he m a
  have hsc : f.signalling c = f.signalling b := by
    cases hb : f.isNan b with
    | true => rw [hcb hb]
    | false => rw [f.signalling_of_not_isNan hb, f.signalling_of_not_isNan (hc.trans hb)]
  obtain ⟨hfirst, hsecond, hquiet, hquiet'⟩ := f.nanResult_pair (a := f.operand m a) (b := c) hf
  rw [hsa, hna, hsc, hc] at *
  have hopa (h : f.isNan a = true) : f.operand m a = a := (f.operand_of_isNan he h m).1
  refine ⟨fun h => ?_, fun h h' => ?_, fun h h' hn => ?_, fun h h' hn hn' => ?_⟩
  · rw [hr _ (hfirst h), hopa (f.isNan_of_signalling h)]
    rfl
  · rw [hr _ (hsecond h h'), hcb (f.isNan_of_signalling h')]
    rfl
  · rw [hr _ (hquiet h h' hn), hopa hn, FpResult.also, BitVec.zero_or]
  · rw [hr _ (hquiet' h h' hn hn'), hcb hn', FpResult.also, BitVec.zero_or]

variable (he : 0 < f.expBits) (hf : 0 < f.fracBits) {m : FpMode} {e : FpExc}
include he hf

theorem FpFormat.nanRule_add : f.NanRule a b (f.operandExc m a ||| f.operandExc m b) (f.add m a b) :=
  .of_nanResult he hf (f.isNan_operand he m b) (fun h => (f.operand_of_isNan he h m).1) fun r hr => by
    rw [FpFormat.add, FpFormat.addCore, hr]

theorem FpFormat.nanRule_mul : f.NanRule a b (f.operandExc m a ||| f.operandExc m b) (f.mul m a b) :=
  .of_nanResult he hf (f.isNan_operand he m b) (fun h => (f.operand_of_isNan he h m).1) fun r hr => by
    rw [FpFormat.mul, FpFormat.mulCore, hr]

theorem FpFormat.nanRule_div : f.NanRule a b (f.operandExc m a ||| f.operandExc m b) (f.div m a b) :=
  .of_nanResult he hf (f.isNan_operand he m b) (fun h => (f.operand_of_isNan he h m).1) fun r hr => by
    rw [FpFormat.div, FpFormat.divCore, hr]

theorem FpFormat.nanRule_sqrt : f.NanRule a a (f.operandExc m a) (f.sqrt m a) :=
  .of_nanResult he hf (f.isNan_operand he m a) (fun h => (f.operand_of_isNan he h m).1) fun r hr => by
    rw [f.nanResult_twice] at hr
    rw [FpFormat.sqrt, FpFormat.sqrtCore, hr]

omit he hf in
/-- A flipped sign makes no NaN. -/
theorem FpFormat.isNan_flipSign (h : b < 2 ^ f.width) : f.isNan (f.flipSign b) = f.isNan b := by
  obtain ⟨-, hbiased, hfrac⟩ := f.flipSign_fields h
  rw [FpFormat.isNan, FpFormat.isNan, hbiased, hfrac]

theorem FpFormat.nanRule_sub (hb : b < 2 ^ f.width) :
    f.NanRule a b (f.operandExc m a ||| f.operandExc m b) (f.sub m a b) := by
  have hnan := f.isNan_operand he m b
  refine .of_nanResult (m := m)
    (c := if f.isNan (f.operand m b) then f.operand m b else f.flipSign (f.operand m b)) he hf ?_ (fun h => ?_) fun r hr => by rw [FpFormat.sub, FpFormat.addCore, hr]
  · split_ifs
    · exact hnan
    · rw [f.isNan_flipSign (f.operand_lt m hb), hnan]
  · rw [hnan, if_pos h, (f.operand_of_isNan he h m).1]

end

/-! ### Infinities, invalid operations, zero divisors -/

section
variable {f : FpFormat} {m : FpMode} {a b : Nat} {x y : Bool} {ma mb : Nat} {ea eb : Int}

/-- The default NaN with Invalid Operation, added to what reading the operands raised. -/
theorem FpFormat.invalid_also (e : FpExc) : f.invalid.also e = { bits := f.defaultNan, exc := excIOC ||| e } := rfl

theorem FpFormat.infinity_also (s : Bool) (e : FpExc) :
    (f.infinity s).also e = { bits := f.infBits + f.signBits s, exc := e } := by
  rw [FpResult.also, FpFormat.infinity, BitVec.zero_or]

theorem FpFormat.zero_also (s : Bool) (e : FpExc) : (f.zero s).also e = { bits := f.signBits s, exc := e } := by
  rw [FpResult.also, FpFormat.zero, BitVec.zero_or]

/-- An infinity with its sign flipped. -/
theorem FpFormat.unpack_flipSign_inf (h : b < 2 ^ f.width) (hb : f.unpack b = .inf y) :
    f.unpack (f.flipSign b) = .inf (!y) := by
  obtain ⟨hmax, hzero, hneg⟩ := f.unpack_eq_inf_iff.mp hb
  obtain ⟨hneg', hbiased, hfrac⟩ := f.flipSign_fields h
  exact f.unpack_eq_inf_iff.mpr ⟨hbiased.trans hmax, hfrac.trans hzero, by rw [hneg', hneg]⟩

section
variable (ha : f.unpack a = .inf x) (hb : f.unpack b = .inf y)
include ha hb

theorem FpFormat.nanResult_inf_inf : f.nanResult [a, b] = none :=
  f.nanResult_pair_none (f.isNan_of_inf ha) (f.isNan_of_inf hb)

theorem FpFormat.addCore_inf_inf : f.addCore m a b = if x = y then f.infinity x else f.invalid := by
  rw [FpFormat.addCore, f.nanResult_inf_inf ha hb, ha, hb]

theorem FpFormat.mulCore_inf_inf : f.mulCore m a b = f.infinity (x != y) := by
  rw [FpFormat.mulCore, f.nanResult_inf_inf ha hb, ha, hb]

theorem FpFormat.divCore_inf_inf : f.divCore m a b = f.invalid := by
  rw [FpFormat.divCore, f.nanResult_inf_inf ha hb, ha, hb]

end

section
variable (ha : f.unpack a = .inf x) (hb : f.unpack b = .fin y mb eb)
include ha hb

theorem FpFormat.nanResult_inf_fin : f.nanResult [a, b] = none :=
  f.nanResult_pair_none (f.isNan_of_inf ha) (f.isNan_of_fin hb)

theorem FpFormat.addCore_inf_fin : f.addCore m a b = f.infinity x := by
  rw [FpFormat.addCore, f.nanResult_inf_fin ha hb, ha, hb]

theorem FpFormat.mulCore_inf_fin : f.mulCore m a b = if mb = 0 then f.invalid else f.infinity (x != y) := by
  rw [FpFormat.mulCore, f.nanResult_inf_fin ha hb, ha, hb]

theorem FpFormat.divCore_inf_fin : f.divCore m a b = f.infinity (x != y) := by
  rw [FpFormat.divCore, f.nanResult_inf_fin ha hb, ha, hb]

end

section
variable (ha : f.unpack a = .fin x ma ea) (hb : f.unpack b = .inf y)
include ha hb

theorem FpFormat.nanResult_fin_inf : f.nanResult [a, b] = none :=
  f.nanResult_pair_none (f.isNan_of_fin ha) (f.isNan_of_inf hb)

theorem FpFormat.addCore_fin_inf : f.addCore m a b = f.infinity y := by
  rw [FpFormat.addCore, f.nanResult_fin_inf ha hb, ha, hb]

theorem FpFormat.mulCore_fin_inf : f.mulCore m a b = if ma = 0 then f.invalid else f.infinity (x != y) := by
  rw [FpFormat.mulCore, f.nanResult_fin_inf ha hb, ha, hb]

theorem FpFormat.divCore_fin_inf : f.divCore m a b = f.zero (x != y) := by
  rw [FpFormat.divCore, f.nanResult_fin_inf ha hb, ha, hb]

end

theorem FpFormat.divCore_zero (ha : f.unpack a = .fin x ma ea) (hb : f.unpack b = .fin y 0 eb) :
    f.divCore m a b = if ma = 0 then f.invalid else { f.infinity (x != y) with exc := excDZC } := by
  rw [FpFormat.divCore, f.nanResult_pair_none (f.isNan_of_fin ha) (f.isNan_of_fin hb), ha, hb]
  rfl

theorem FpFormat.sqrtCore_inf (ha : f.unpack a = .inf x) :
    f.sqrtCore m a = if x then f.invalid else f.infinity false := by
  have hnan : f.nanResult [a] = none := f.nanResult_none (by simp [f.isNan_of_inf ha])
  rw [FpFormat.sqrtCore, hnan, ha]

theorem FpFormat.sqrtCore_negative (ha : f.unpack a = .fin true ma ea) (h : ma ≠ 0) : f.sqrtCore m a = f.invalid := by
  have hnan : f.nanResult [a] = none := f.nanResult_none (by simp [f.isNan_of_fin ha])
  rw [FpFormat.sqrtCore, hnan, ha]
  simp only [if_neg h, if_true]

end

/-! ### The operations, operands as read -/

section
variable {f : FpFormat} (m : FpMode) (a b : Nat) {x y : Bool} {ma mb : Nat} {ea eb : Int}

theorem FpFormat.sub_eq_of_not_isNan (h : f.isNan (f.operand m b) = false) : f.sub m a b =
    (f.addCore m (f.operand m a) (f.flipSign (f.operand m b))).also (f.operandExc m a ||| f.operandExc m b) := by
  rw [FpFormat.sub]
  simp only [h, Bool.false_eq_true, if_false]

variable {a b} (hlt : b < 2 ^ f.width)

section
variable (ha : f.unpack (f.operand m a) = .inf x) (hb : f.unpack (f.operand m b) = .inf y)
include hlt ha hb

/-- Two infinities: the sum needs the same signs, the difference the opposite ones; a quotient has no value. -/
theorem FpFormat.ops_inf_inf :
    let e := f.operandExc m a ||| f.operandExc m b
    let inf (z : Bool) : FpResult := { bits := f.infBits + f.signBits z, exc := e }
    let invalid : FpResult := { bits := f.defaultNan, exc := excIOC ||| e }
    f.add m a b = (if x = y then inf x else invalid) ∧ f.sub m a b = (if x = y then invalid else inf x) ∧
      f.mul m a b = inf (x != y) ∧ f.div m a b = invalid := by
  have hflip := f.unpack_flipSign_inf (f.operand_lt m hlt) hb
  refine ⟨?add, ?sub, ?mul, ?div⟩
  case add =>
    rw [FpFormat.add, f.addCore_inf_inf ha hb, apply_ite (FpResult.also · _), f.infinity_also, f.invalid_also]
  case sub =>
    rw [f.sub_eq_of_not_isNan m a b (f.isNan_of_inf hb), f.addCore_inf_inf ha hflip, apply_ite (FpResult.also · _),
      f.infinity_also, f.invalid_also, ← ite_not]
    exact if_congr (by rw [Bool.eq_not, not_not]) rfl rfl
  case mul => rw [FpFormat.mul, f.mulCore_inf_inf ha hb, f.infinity_also]
  case div => rw [FpFormat.div, f.divCore_inf_inf ha hb, f.invalid_also]

end

section
variable (ha : f.unpack (f.operand m a) = .inf x) (hb : f.unpack (f.operand m b) = .fin y mb eb)
include hlt ha hb

theorem FpFormat.ops_inf_fin :
    let e := f.operandExc m a ||| f.operandExc m b
    let inf (z : Bool) : FpResult := { bits := f.infBits + f.signBits z, exc := e }
    let invalid : FpResult := { bits := f.defaultNan, exc := excIOC ||| e }
    f.add m a b = inf x ∧ f.sub m a b = inf x ∧ f.mul m a b = (if mb = 0 then invalid else inf (x != y)) ∧
      f.div m a b = inf (x != y) := by
  have hflip := f.unpack_flipSign (f.operand_lt m hlt) hb
  refine ⟨?add, ?sub, ?mul, ?div⟩
  case add => rw [FpFormat.add, f.addCore_inf_fin ha hb, f.infinity_also]
  case sub => rw [f.sub_eq_of_not_isNan m a b (f.isNan_of_fin hb), f.addCore_inf_fin ha hflip, f.infinity_also]
  case mul => rw [FpFormat.mul, f.mulCore_inf_fin ha hb, apply_ite (FpResult.also · _), f.infinity_also, f.invalid_also]
  case div => rw [FpFormat.div, f.divCore_inf_fin ha hb, f.infinity_also]

end

section
variable (ha : f.unpack (f.operand m a) = .fin x ma ea) (hb : f.unpack (f.operand m b) = .inf y)
include hlt ha hb

theorem FpFormat.ops_fin_inf :
    let e := f.operandExc m a ||| f.operandExc m b
    let inf (z : Bool) : FpResult := { bits := f.infBits + f.signBits z, exc := e }
    let invalid : FpResult := { bits := f.defaultNan, exc := excIOC ||| e }
    f.add m a b = inf y ∧ f.sub m a b = inf (!y) ∧ f.mul m a b = (if ma = 0 then invalid else inf (x != y)) ∧
      f.div m a b = { bits := f.signBits (x != y), exc := e } := by
  have hflip := f.unpack_flipSign_inf (f.operand_lt m hlt) hb
  refine ⟨?add, ?sub, ?mul, ?div⟩
  case add => rw [FpFormat.add, f.addCore_fin_inf ha hb, f.infinity_also]
  case sub => rw [f.sub_eq_of_not_isNan m a b (f.isNan_of_inf hb), f.addCore_fin_inf ha hflip, f.infinity_also]
  case mul => rw [FpFormat.mul, f.mulCore_fin_inf ha hb, apply_ite (FpResult.also · _), f.infinity_also, f.invalid_also]
  case div => rw [FpFormat.div, f.divCore_fin_inf ha hb, f.zero_also]

end

omit hlt

theorem FpFormat.div_zero (ha : f.unpack (f.operand m a) = .fin x ma ea)
    (hb : f.unpack (f.operand m b) = .fin y 0 eb) :
    let e := f.operandExc m a ||| f.operandExc m b
    f.div m a b = if ma = 0 then { bits := f.defaultNan, exc := excIOC ||| e }
      else { bits := f.infBits + f.signBits (x != y), exc := excDZC ||| e } := by
  rw [FpFormat.div, f.divCore_zero ha hb, apply_ite (FpResult.also · _), f.invalid_also]
  rfl

theorem FpFormat.sqrt_inf (ha : f.unpack (f.operand m a) = .inf false) :
    f.sqrt m a = { bits := f.infBits, exc := f.operandExc m a } := by
  rw [FpFormat.sqrt, f.sqrtCore_inf ha, if_neg Bool.false_ne_true, f.infinity_also]
  rfl

theorem FpFormat.sqrt_invalid (ha : f.unpack (f.operand m a) = .inf true ∨
      ∃ mant exp, mant ≠ 0 ∧ f.unpack (f.operand m a) = .fin true mant exp) :
    f.sqrt m a = { bits := f.defaultNan, exc := excIOC ||| f.operandExc m a } := by
  rcases ha with ha | ⟨mant, exp, h, ha⟩
  · rw [FpFormat.sqrt, f.sqrtCore_inf ha, if_pos rfl, f.invalid_also]
  · rw [FpFormat.sqrt, f.sqrtCore_negative ha h, f.invalid_also]

end

/-! ### The statement -/

theorem fpSingle_patternMeans (w : Word) :
    fpSingle.PatternMeans w.toNat (w.getLsbD 31) (w.extractLsb' 23 8).toNat (w.extractLsb' 0 23).toNat 127 := by
  have hfrac : (w.extractLsb' 0 23).toNat = fpSingle.fraction w.toNat := by
    rw [toNat_extractLsb'_eq, pow_zero, Nat.div_one]
    rfl
  rw [getLsbD_eq_beq, toNat_extractLsb'_eq w 23 8, hfrac]
  exact fpSingle.patternMeans rfl w.toNat

theorem fpDouble_patternMeans (w : DWord) :
    fpDouble.PatternMeans w.toNat (w.getLsbD 63) (w.extractLsb' 52 11).toNat (w.extractLsb' 0 52).toNat 1023 := by
  have hfrac : (w.extractLsb' 0 52).toNat = fpDouble.fraction w.toNat := by
    rw [toNat_extractLsb'_eq, pow_zero, Nat.div_one]
    rfl
  rw [getLsbD_eq_beq, toNat_extractLsb'_eq w 52 11, hfrac]
  exact fpDouble.patternMeans rfl w.toNat

/-- Settles O50: the fields decide the kind of a pattern, and each operation its result on the kinds of its operands. -/
theorem vfpSpecialOperands : Obligations.VfpSpecialOperands := by
  refine ⟨fpSingle_patternMeans, fpDouble_patternMeans, rfl, rfl, rfl, rfl,
    forall_fpFormat fun f he hf m a b _ hb => ?_⟩
  have he' := two_pos.trans_le he
  exact ⟨f.nanRule_add he' hf, f.nanRule_sub he' hf hb, f.nanRule_mul he' hf, f.nanRule_div he' hf,
    f.nanRule_sqrt he' hf, fun x y => f.ops_inf_inf m hb, fun x y mant exp => f.ops_inf_fin m hb,
    fun x y mant exp => f.ops_fin_inf m hb, fun x y ma ea eb => f.div_zero m, f.sqrt_inf m, f.sqrt_invalid m⟩

end Sys2Proof.Machine
end
